-- ==== Sys2Proof/Word.lean ====
section
/-! DEFINITION. The byte, the quantities of §1.5 and reading and writing one place of a fixed table. -/

namespace Sys2Proof

/-- A byte of the Source Link or of the service port. -/
abbrev Byte := BitVec 8

/-- A temperature, or a temperature difference, counted in 0.1 °C or 0.1 K (§1.5). -/
abbrev Temp := Int

/-- Place `i`, counted from 0, of a table of fixed size; `d` beyond its end. -/
def tget {α : Type} {n : Nat} (v : Vector α n) (i : Nat) (d : α) : α := v.toList.getD i d

/-- The table with place `i`, counted from 0, replaced; unchanged beyond its end. -/
def tset {α : Type} {n : Nat} (v : Vector α n) (i : Nat) (x : α) : Vector α n := v.setIfInBounds i x

end Sys2Proof
end

