-- ==== Sys2Proof/Config.lean ====
section
/-! DEFINITION. The figures the part fixes for itself, and the free values: what the manual leaves open. -/

namespace Sys2Proof

/-- The window that a QUALIFY of rate 0 carries, by the moment it is sent. The frame has the field (§8.2) and no rule
states what stands in it when the rate is 0: a free value (log entry 2). -/
opaque Config.stopQualifyWindow : Nat → BitVec 16

/-- The window of a qualification trial in seconds (R124). -/
def Config.trialWindow : Nat := 300

/-- The energy at which a trial succeeds, in Wh (R125). -/
def Config.trialEnergy : Nat := 50

/-- The retry time after a failed trial, in seconds (R125). -/
def Config.retryTime : Nat := 120

/-- The consecutive failures that bar an entry (R125). -/
def Config.barringFailures : Nat := 7

/-- The decline cooldown in seconds (R133). -/
def Config.cooldownTime : Nat := 600

/-- The revoke time in seconds (R80). -/
def Config.revokeTime : Nat := 60

/-- The step timer of the learned cap in seconds (R100). -/
def Config.learnStepTime : Nat := 60

/-- The unallocated budget an electric opening needs, and the least share a waiting lease takes, in W (R95, R110). -/
def Config.electricFloor : Nat := 500

/-- The greatest rate of a lease in W (R87). -/
def Config.maxRate : Nat := 15000

/-- The span in which a serve list makes its lease near due, in minutes (R106). -/
def Config.nearDueSpan : Nat := 15

/-- The sweep interval in seconds (R1). -/
def Config.sweepInterval : Nat := 10

/-- The period for which a stuck call line is ignored, in seconds (R147). -/
def Config.ignoreTime : Nat := 10

/-- The discovery timer in seconds (R148). -/
def Config.discoveryTime : Nat := 60

/-- The step timer and the remeasure timer of the solar loop in seconds (R155, R158). -/
def Config.solarStepTime : Nat := 30

/-- The stop timer of the solar loop in seconds (R159). -/
def Config.solarStopTime : Nat := 120

/-- The least time between two valve moves in seconds (R162). -/
def Config.valveSpacing : Nat := 60

/-- The span of dues that sets the recool stop point, in minutes (R164). -/
def Config.recoolSpan : Nat := 720

/-- One more than the greatest 32-bit count (§1.5). -/
def Config.wrap32 : Nat := 4294967296

/-- The greatest value of a saturating 16-bit counter (R22). -/
def Config.top16 : Nat := 65535

/-- The last day of the clock (§10.1). -/
def Config.lastDay : Nat := 65535

/-- The minutes of a day (§2.1). -/
def Config.dayMinutes : Nat := 1440

/-- 1.163 Wh per litre per kelvin, counted in 0.001 Wh (§1.5). -/
def Config.waterHeat : Nat := 1163

end Sys2Proof
end

