-- ==== Sys2Proof/Syntax.lean ====
section
/-! DEFINITION. The commands: one constructor for every row of spec/opcode_table.json, with the row's operands. -/

namespace Sys2Proof

/-- A handle: a slot and an issue (§1.5), of a reservation or of a lease. -/
structure Handle where
  slot : Nat
  issue : Nat
deriving DecidableEq, Repr

/-- The fields of a BOOK request (R21). -/
structure BookTerms where
  dueDay : Nat
  dueMinute : Nat
  volume : Nat
  thetaMin : Temp
  lead : Nat
  repeatDays : Option Nat
  preferred : Option Nat
deriving DecidableEq, Repr

/-- The fields of an AMEND request (R24): `none` is a field left out. A repeat interval or preferred station given as
`some none` is given as none. -/
structure AmendTerms where
  due : Option (Nat × Nat)
  volume : Option Nat
  thetaMin : Option Temp
  lead : Option Nat
  repeatDays : Option (Option Nat)
  preferred : Option (Option Nat)
deriving DecidableEq, Repr

/-- The ten readings of a sweep (R1). -/
structure Readings where
  s1 : Temp
  s2 : Temp
  s3 : Temp
  s4 : Temp
  s5 : Temp
  s6 : Temp
  s7 : Temp
  s8 : Temp
  collector : Temp
  loopReturn : Temp
deriving DecidableEq, Repr

/-- The payload of an IDENTITY answer (§8.2). -/
structure Identity where
  signature : Nat
  serial : Nat
  classCode : Nat
  inlet : Nat
  cap : Nat
  dual : Bool
deriving DecidableEq, Repr

/-- An item carried in a STATUS (§8.2). -/
inductive Item where
  | request (rate : Nat)
  | change (rate : Nat)
  | report (energy : Nat) (supply : Temp) (limited : Bool)
  | retire (h : Handle) (energy : Nat)
  | confirm (h : Handle) (energy : Nat)
deriving DecidableEq, Repr

/-- The commands of the block: the host's requests, the events of the timebase, of the link and of the solar loop. -/
inductive Instr where
  /-- Power is applied (R17). -/
  | powerOn
  /-- A request write whose bytes fail the port's checks (R174). -/
  | requestWriteRejected (bytes : List Byte)
  /-- A request write that ends while the port is WORKING (R175). -/
  | requestWriteWhileWorking (bytes : List Byte)
  /-- An answer read that clocks `clocked` bytes after its first, 0x00 (R173). -/
  | answerRead (clocked : Nat)
  | answerPlaced
  | identifyPart
  | setClock (day minute : Nat)
  | readClock
  /-- SET PARAMETER, numbers 1 to 8. -/
  | setStratumVolume (number : Nat) (value : Int)
  | setThetaMax (value : Int)
  | setReserveLine (value : Int)
  | setMargin (value : Int)
  /-- SET PARAMETER, numbers 16 to 18. -/
  | setLeaseParameter (number : Nat) (value : Int)
  /-- SET PARAMETER 19, in units of 100 W. -/
  | setSitePowerBudget (value : Int)
  /-- SET PARAMETER 20, in units of 100 W. -/
  | setSolarRating (value : Int)
  | setAutoCap (value : Int)
  /-- SET PARAMETER, numbers 32 to 43. -/
  | setLoopParameter (number : Nat) (value : Int)
  /-- SET PARAMETER, numbers 48 to 53. -/
  | setSanitiseSetting (number : Nat) (value : Int)
  | readParameter (number : Nat)
  | readStrata
  | book (terms : BookTerms)
  | amend (h : Handle) (terms : AmendTerms)
  | withdraw (h : Handle)
  | release (h : Handle)
  | lookupReservation (h : Handle)
  | listReservations
  | openBoost (index : Nat) (ceiling : Temp) (minutes : Nat) (budget : Option Nat)
  | revokeLease (h : Handle)
  | lookupLease (h : Handle)
  | listLeases
  | readStation (index : Nat)
  /-- SET STATION with its action bytes as they are sent (§11.2). -/
  | setStation (index capAction cap rankAction rank : Nat)
  | clearBar (index : Nat)
  | relearn (index : Nat)
  | forget (index : Nat)
  | discover
  | setSchedule (slots : List Nat)
  | readSchedule
  | readSolar
  | remeasure
  | readEvents
  | setMask (mask : BitVec 16)
  | readCounters
  | halt
  | resumeAll
  | reset
  | sweepStart
  | sweepComplete (readings : Readings)
  | passComplete
  | clockMinuteAdvance
  | durationExpiry (h : Handle)
  | finishingHoldExpiry (h : Handle)
  | revokeTimeout (h : Handle)
  | learnedCapStepTimerExpiry (h : Handle)
  | declineCooldownExpiry (index : Nat)
  | retryTimerExpiry (index : Nat)
  | trialWindowEnd
  /-- The arbiter decides; `released` says whether the call line is found released (R145, R147). -/
  | arbiterDecision (released : Bool)
  | identity (addr : Nat) (fields : Identity)
  | status (addr : Nat) (flags : Byte) (handle : Option Handle) (item : Option Item)
  | accept (addr : Nat) (h : Handle)
  | decline (addr : Nat) (h : Handle)
  /-- An ACK naming the kind code of the command acknowledged. -/
  | ack (addr : Nat) (kind : Byte)
  /-- An answer that may fail the exchange, as its bytes came (R137). -/
  | answerRejected (bytes : List Byte)
  | answerWindowExpiry
  | broadcastExchangeEnd
  | discoveryTimerExpiry
  | callLineLow
  | callIgnoreExpiry
  | flowPulse
  | primeTimerExpiry
  | solarStepTimerExpiry
  | stopTimerExpiry
  | remeasureTimerExpiry
deriving DecidableEq, Repr

end Sys2Proof
end

