-- ==== Sys2Proof/Decode.lean ====
section
/-! DEFINITION. The decoder the host asks for: no row of spec/opcode_table.json gives a command any bits. -/

namespace Sys2Proof

/-- The command a word of table bits spells: none, since no row of the table gives bits (every row's field list is
empty and no row has a fixed pattern). The port's and the link's frames are read in `Machine/Frames.lean`. -/
def decodeTableWord (_nbits _w : Nat) : Option Instr := none

end Sys2Proof
end

