-- ==== Sys2Proof/Machine/State.lean ====
section
/-! DEFINITION. The state of the part, block by block as §1.3 lists the blocks, and the state after power-on. -/

namespace Sys2Proof.Machine

/-! ### The measurement sequencer (chapter 1) -/

inductive ProbeState where
  | valid | faulted
deriving DecidableEq, Repr

/-- A probe: its state and its history of up to three readings, oldest first (R2). -/
structure Probe where
  state : ProbeState
  history : List Temp
deriving DecidableEq, Repr

structure Stratum where
  probe : Probe
  temp : Temp
  volume : Nat
  claimed : Nat
deriving DecidableEq, Repr

/-- The collector or the return probe with its map temperature (R6). -/
structure LoopProbe where
  probe : Probe
  temp : Temp
deriving DecidableEq, Repr

inductive GuardState where
  | clear | half | shut
deriving DecidableEq, Repr

/-- The stratum map, the cylinder parameters and the sequencer's sweep (R1, R17). -/
structure StratumMap where
  strata : Vector Stratum 8
  collector : LoopProbe
  loopReturn : LoopProbe
  valid : Bool
  guard : GuardState
  thetaMax : Temp
  reserveLine : Nat
  margin : Temp
  /-- A sweep is in flight (R1). -/
  sweeping : Bool
  /-- A sweep has completed since the last reset (R7). -/
  swept : Bool
  /-- Seconds to the next sweep-start; 0 when it is due (R1). -/
  sweepIn : Nat
deriving DecidableEq, Repr

/-! ### The coverage engine (chapters 2 and 3) -/

inductive ResState where
  | booked | covered | atRisk | served | missed | withdrawn
deriving DecidableEq, Repr

/-- The six pass figures (R20), each present or absent. -/
structure Figures where
  covered : Option Nat
  depth : Option Nat
  shortfall : Option Nat
  deficit : Option Nat
  beyond : Option Bool
  marginMet : Option Bool
deriving DecidableEq, Repr

/-- The last outcome of a repeating record (R35). -/
structure DueOutcome where
  served : Bool
  shortfall : Nat
  day : Nat
deriving DecidableEq, Repr

structure Reservation where
  terms : BookTerms
  state : ResState
  figures : Figures
  topUp : Option Handle
  last : Option DueOutcome
deriving DecidableEq, Repr

/-- A slot of the book: its issue and, when occupied, its record (R18). -/
structure BookSlot where
  issue : Nat
  record : Option Reservation
deriving DecidableEq, Repr

structure Book where
  slots : Vector BookSlot 24
  starved : Nat
deriving DecidableEq, Repr

/-- A stratum as a pass holds it, with its figure of the claims table (R42, R43). -/
structure Layer where
  no : Nat
  temp : Temp
  volume : Nat
  claimed : Nat
deriving DecidableEq, Repr

/-- An open record as a pass took it at its start (R31). -/
structure PassRecord where
  handle : Handle
  terms : BookTerms
deriving DecidableEq, Repr

/-- A pass in flight: what it took at its start (R42), and the slots of the records excepted since (R31).
The layers stand from S8 down; the records stand in due order. -/
structure Pass where
  layers : List Layer
  reserveLine : Nat
  margin : Temp
  now : Nat
  records : List PassRecord
  excepted : List Nat
deriving DecidableEq, Repr

structure Coverage where
  pass : Option Pass
  rerun : Bool
deriving DecidableEq, Repr

/-! ### The admission controller (chapters 4 to 6) -/

/-- Lease kinds in the order of the lease record's table (§4.2, §11.1). -/
inductive LeaseKind where
  | solar | free | topUp | sanitise | boost
deriving DecidableEq, Repr

inductive Origin where
  | part | station | host
deriving DecidableEq, Repr

inductive LeaseState where
  | offered | admitted | throttled | suspended | finishing | revoking
deriving DecidableEq, Repr

/-- Outcomes in the order of the outcome table of §4.10. -/
inductive LeaseOutcome where
  | completed | expired | revoked | declined | sourceLost | sourceEnded | ceased | satisfiedByFree | unneeded
deriving DecidableEq, Repr

inductive RunView where
  | running | suspended
deriving DecidableEq, Repr

/-- The saved context of a SUSPENDED lease (R107). The timer is held in half seconds. -/
structure SavedContext where
  state : LeaseState
  rate : Nat
  timer : Option Nat
  hold : Option Nat
  freeMark : Nat
  deliveredMark : Nat
deriving DecidableEq, Repr

/-- A lease record (§4.2) and, below the line, what the part keeps beside it. -/
structure Lease where
  kind : LeaseKind
  origin : Origin
  holder : Nat
  state : LeaseState
  inlet : Nat
  ceiling : Temp
  entitlement : Nat
  granted : Nat
  budget : Option Nat
  delivered : Nat
  /-- Duration limit in seconds. -/
  limit : Option Nat
  /-- Timer remaining in half seconds: a THROTTLED lease may lose half a second in a second (R74). -/
  timer : Option Nat
  hold : Option Nat
  saved : Option SavedContext
  serve : List Handle
  handovers : Option Nat
  reason : Option LeaseOutcome
  revokeTime : Option Nat
  -- kept beside the record
  /-- The rate a free station offers (R88). -/
  offer : Nat
  /-- An exchange carrying the GRANT has begun (R70). -/
  grantSent : Bool
  limitMark : Bool
  stepTimer : Option Nat
  /-- Waiting for budget (R110). -/
  waiting : Bool
  ackRate : Option Nat
  runView : Option RunView
deriving DecidableEq, Repr

structure LeaseSlot where
  issue : Nat
  lease : Option Lease
deriving DecidableEq, Repr

structure Admission where
  leases : Vector LeaseSlot 8
  /-- The admission order, oldest first (R63). -/
  order : List Handle
  /-- Top-up lease limit in minutes (R75). -/
  topUpLimit : Nat
  /-- Finishing hold in minutes (R75). -/
  finishHold : Nat
  halfRate : Bool
  /-- Site power budget in W (R94). -/
  siteBudget : Nat
  /-- Solar rating in W (R89). -/
  rating : Nat
  freeHeat : Nat
  /-- The guard state the controller last took (R91). -/
  guard : GuardState
  halted : Bool
  revokeTimeouts : Nat
deriving DecidableEq, Repr

/-! ### The source roster (chapter 7) -/

inductive SourceClass where
  | solarThermal | pvSurplus | recovered | heatPump | combustion | gridElectric
deriving DecidableEq, Repr

inductive EntryState where
  | absent | identifying | qualifying | ready | barred | lost
deriving DecidableEq, Repr

structure LeaseRecord where
  handle : Handle
  kind : LeaseKind
  outcome : LeaseOutcome
  delivered : Nat
deriving DecidableEq, Repr

/-- A roster entry (§7.1). Entry 0's inlet, declared cap and effective cap follow the valve and the solar rating (R119)
and every effective cap follows its inputs (R120): both are read by accessors and not stored. -/
structure Entry where
  state : EntryState
  address : Nat
  partner : Option Nat
  baseMark : Bool
  serial : Nat
  cls : SourceClass
  inlet : Nat
  declared : Nat
  hostCap : Option Nat
  learned : Option Nat
  failures : Nat
  retry : Option Nat
  cooldown : Option Nat
  rank : Option Nat
  missed : Nat
  last : Option LeaseRecord
  lifetime : Nat
deriving DecidableEq, Repr

/-- The running qualification trial (R124); its window is absent until it begins. -/
structure Trial where
  entry : Nat
  rate : Nat
  energy : Nat
  window : Option Nat
deriving DecidableEq, Repr

structure Roster where
  entries : Vector Entry 8
  autoCap : Bool
  trial : Option Trial
deriving DecidableEq, Repr

/-! ### The Source Link controller (chapter 8) -/

inductive RefuseReason where
  | halted | mapInvalid | notReady | boughtSource | holdsLease
deriving DecidableEq, Repr

/-- A command of the Source Link (§8.2). -/
inductive LinkCmd where
  | identify
  | poll
  | grant (h : Handle) (kind : LeaseKind) (rate : Nat) (ceiling : Temp) (budget : Option Nat)
  | amend (h : Handle) (ceiling : Temp) (budget : Option Nat)
  | setRate (h : Handle) (rate : Nat)
  | suspend (h : Handle)
  | resume (h : Handle) (rate : Nat)
  | revoke (h : Handle)
  | qualify (rate : Nat)
  | refuse (reason : RefuseReason)
  | linkClear
  | allStop
deriving DecidableEq, Repr

/-- A command waiting in a queue, with its age: the moment it was placed (R142). -/
structure Queued where
  cmd : LinkCmd
  age : Nat
deriving DecidableEq, Repr

/-- Why an exchange was begun; a queued command keeps its place and its age (R144, R145). -/
inductive Source where
  | broadcast
  | queue (place age : Nat)
  | rollCall
  | enumeration
  | discovery
  | schedule
deriving DecidableEq, Repr

/-- The exchange in flight (R137). -/
structure Exchange where
  addr : Nat
  cmd : LinkCmd
  source : Source
  /-- The command bore the entry's live lease when it was sent (R142). -/
  bore : Bool
  /-- A command placed since would have removed or replaced this one (R144). -/
  overtaken : Bool
deriving DecidableEq, Repr

inductive Enumeration where
  | idle
  | due
  | running (next : Nat)
deriving DecidableEq, Repr

/-- A roll call in progress: the last index polled and the heard mark (R147). -/
structure RollCall where
  cursor : Nat
  heard : Bool
deriving DecidableEq, Repr

/-- The latest STATUS of an entry, with the day clock when it was taken (R139). -/
structure StatusRecord where
  flags : Byte
  day : Nat
  minute : Nat
  second : Nat
deriving DecidableEq, Repr

/-- What the link controller keeps for one roster entry. -/
structure Station where
  queue : List Queued
  status : Option StatusRecord
  supply : Option Temp
deriving DecidableEq, Repr

structure Link where
  /-- By roster index; place 0 belongs to the solar loop and is never used. -/
  stations : Vector Station 8
  schedule : Vector Nat 32
  cursor : Nat
  allStop : Bool
  linkClear : Bool
  enumeration : Enumeration
  roll : Option RollCall
  /-- The call line is held low, as last seen. -/
  callLow : Bool
  /-- Seconds for which the call line is still ignored (R147). -/
  ignoring : Option Nat
  discoveryCursor : Nat
  discoveryTimer : Option Nat
  probeDue : Bool
  /-- The address of a second probe for the partner of a new base (R148). -/
  pairProbe : Option Nat
  exchange : Option Exchange
  /-- The bytes of the latest frame the part began to send (R136). -/
  frame : List Byte
  ghostCalls : Nat
  stuckCalls : Nat
  badIdentities : Nat
  staleItems : Nat
deriving DecidableEq, Repr

/-! ### The solar loop controller (chapter 9) -/

inductive LoopState where
  | off | priming | charging | regulating | stagnant | recooling | faulted
deriving DecidableEq, Repr

inductive Valve where
  | lower | upper
deriving DecidableEq, Repr

structure LoopParams where
  startDiff : Temp
  stopDiff : Temp
  primeTime : Nat
  minSpeed : Nat
  fixedTarget : Option Temp
  stagnation : Temp
  releaseTemp : Temp
  upperInlet : Nat
  /-- In 0.1 L. -/
  litresPerPulse : Nat
  recooling : Bool
  windowStart : Nat
  windowEnd : Nat
deriving DecidableEq, Repr

structure Solar where
  params : LoopParams
  state : LoopState
  pump : Nat
  valve : Valve
  target : Option Temp
  prime : Option Nat
  step : Option Nat
  stop : Option Nat
  remeasure : Option Nat
  /-- What is left of the 60 s spacing of valve moves (R162). -/
  spacing : Option Nat
  /-- Seconds that the timebase has counted since the last sweep-complete, to no more than 10 (log entry 17). -/
  counted : Nat
  /-- The carried remainder of the heat meter in 0.00001 Wh (R163). -/
  remainder : Nat
  stopPoint : Option Temp
deriving DecidableEq, Repr

/-! ### The sanitise monitor and the day clock (chapter 10) -/

structure Sanitise where
  /-- In days; absent when off. -/
  interval : Option Nat
  temp : Temp
  /-- In minutes. -/
  hold : Nat
  floor : Nat
  startMinute : Nat
  /-- In minutes. -/
  limit : Nat
  lastDay : Option Nat
  /-- In seconds. -/
  accumulator : Nat
  attempted : Bool
deriving DecidableEq, Repr

structure Clock where
  set : Bool
  day : Nat
  minute : Nat
  second : Nat
deriving DecidableEq, Repr

/-! ### The service port (chapter 11) -/

inductive Status where
  | ok | badFrame | unknownRequest | badField | noSuch | stale
  | wrongState | bookFull | clockUnset | notEligible | inProgress | busy
deriving DecidableEq, Repr

/-- An answer: its status, the code of the request answered and the fields after the code (§11.1). -/
structure Answer where
  status : Status
  code : Byte
  fields : List Byte
deriving DecidableEq, Repr

/-- The port's state (R173); WORKING keeps the answer that the work in progress will place. -/
inductive PortState where
  | empty
  | working (answer : Answer)
  | held (answer : Answer)
deriving DecidableEq, Repr

structure Port where
  state : PortState
  ready : Bool
  flags : BitVec 16
  mask : BitVec 16
  /-- The bytes the latest answer read shifted out after its first byte (R173). -/
  dataOut : List Byte
deriving DecidableEq, Repr

/-! ### The part -/

structure State where
  map : StratumMap
  book : Book
  coverage : Coverage
  admission : Admission
  roster : Roster
  link : Link
  solar : Solar
  sanitise : Sanitise
  clock : Clock
  port : Port
  /-- Counts the steps that may place commands: the moment that a command's age records (log entry 5). -/
  moment : Nat
  /-- The commands that wait, first in, first out. -/
  pending : List Instr
deriving DecidableEq, Repr

/-- Why a step stops. -/
inductive Fault where
  /-- Raised by no meaning: the spec names no event that stops the part. Safe. -/
  | stopped
deriving DecidableEq, Repr

/-- Why a command has no meaning. -/
inductive Refusal where
  /-- Raised by an arm of `exec` whose command has no meaning yet; none is left. Safe. -/
  | notModelled (mnemonic : String)
deriving DecidableEq, Repr

/-! ### Values after power-on -/

/-- A probe after a reset (R17). -/
def Probe.initial : Probe := { state := .valid, history := [] }

/-- A stratum after a reset (R17). -/
def Stratum.initial : Stratum := { probe := .initial, temp := 0, volume := 25, claimed := 0 }

/-- The map after a reset (R17). -/
def StratumMap.initial : StratumMap :=
  { strata := Vector.replicate 8 .initial
    collector := { probe := .initial, temp := 0 }
    loopReturn := { probe := .initial, temp := 0 }
    valid := false, guard := .shut, thetaMax := 850, reserveLine := 5, margin := 50
    sweeping := false, swept := false, sweepIn := 0 }

/-- A free slot of the book with issue 0 (R39). -/
def BookSlot.initial : BookSlot := { issue := 0, record := none }

/-- A free lease slot with issue 0 (R86). -/
def LeaseSlot.initial : LeaseSlot := { issue := 0, lease := none }

/-- The admission controller after a reset (R75, R86, R94, R104, R117). -/
def Admission.initial : Admission :=
  { leases := Vector.replicate 8 .initial, order := []
    topUpLimit := 120, finishHold := 5, halfRate := true
    siteBudget := 6000, rating := 4000, freeHeat := 0, guard := .shut, halted := false, revokeTimeouts := 0 }

/-- An entry in ABSENT: every field cleared (R132, R135). -/
def Entry.absent : Entry :=
  { state := .absent, address := 0, partner := none, baseMark := false, serial := 0, cls := .pvSurplus, inlet := 0
    declared := 0, hostCap := none, learned := none, failures := 0, retry := none, cooldown := none, rank := none
    missed := 0, last := none, lifetime := 0 }

/-- Entry 0, the solar loop (R119). -/
def Entry.solarLoop : Entry := { Entry.absent with state := .ready, cls := .solarThermal }

/-- The roster after a reset (R135). -/
def Roster.initial : Roster :=
  { entries := tset (Vector.replicate 8 .absent) 0 .solarLoop, autoCap := true, trial := none }

/-- The link's record of an entry with nothing queued and nothing heard (R152). -/
def Station.initial : Station := { queue := [], status := none, supply := none }

/-- The link controller after power-on (R152). -/
def Link.initial : Link :=
  { stations := Vector.replicate 8 .initial, schedule := Vector.replicate 32 0, cursor := 1
    allStop := false, linkClear := true, enumeration := .due, roll := none, callLow := false, ignoring := none
    discoveryCursor := 1, discoveryTimer := none, probeDue := false, pairProbe := none, exchange := none, frame := []
    ghostCalls := 0, stuckCalls := 0, badIdentities := 0, staleItems := 0 }

/-- The loop parameters' defaults (§9.1). -/
def LoopParams.initial : LoopParams :=
  { startDiff := 80, stopDiff := 40, primeTime := 90, minSpeed := 40, fixedTarget := none, stagnation := 1300
    releaseTemp := 1100, upperInlet := 6, litresPerPulse := 10, recooling := false, windowStart := 0, windowEnd := 300 }

/-- The solar loop after a reset (R166). -/
def Solar.initial : Solar :=
  { params := .initial, state := .off, pump := 0, valve := .lower, target := none, prime := none, step := none
    stop := none, remeasure := none, spacing := none, counted := 0, remainder := 0, stopPoint := none }

/-- The sanitise monitor after a reset (R169). -/
def Sanitise.initial : Sanitise :=
  { interval := none, temp := 620, hold := 30, floor := 5, startMinute := 780, limit := 180, lastDay := none
    accumulator := 0, attempted := false }

/-- The day clock after power-on (R167). -/
def Clock.initial : Clock := { set := false, day := 0, minute := 0, second := 0 }

/-- The service port after power-on: every flag clear but CLOCK_UNSET, bit 15 (R180). -/
def Port.initial : Port := { state := .empty, ready := false, flags := 0x8000#16, mask := 0#16, dataOut := [] }

/-- The part right after power-on. -/
def State.reset : State :=
  { map := .initial
    book := { slots := Vector.replicate 24 .initial, starved := 0 }
    coverage := { pass := none, rerun := false }
    admission := .initial, roster := .initial, link := .initial, solar := .initial, sanitise := .initial
    clock := .initial, port := .initial, moment := 0, pending := [] }

end Sys2Proof.Machine
end

