-- ==== Sys2Proof/Machine/Ops.lean ====
section
/-! DEFINITION. The named operations over the blocks' records: reading and writing one slot, entry, lease or station,
the handles, and the lists they are searched by. -/

namespace Sys2Proof.Machine

/-! ### Block updates -/

def State.modMap (f : StratumMap → StratumMap) (s : State) : State := { s with map := f s.map }
def State.modBook (f : Book → Book) (s : State) : State := { s with book := f s.book }
def State.modCoverage (f : Coverage → Coverage) (s : State) : State := { s with coverage := f s.coverage }
def State.modAdmission (f : Admission → Admission) (s : State) : State := { s with admission := f s.admission }
def State.modRoster (f : Roster → Roster) (s : State) : State := { s with roster := f s.roster }
def State.modLink (f : Link → Link) (s : State) : State := { s with link := f s.link }
def State.modSolar (f : Solar → Solar) (s : State) : State := { s with solar := f s.solar }
def State.modSanitise (f : Sanitise → Sanitise) (s : State) : State := { s with sanitise := f s.sanitise }
def State.modPort (f : Port → Port) (s : State) : State := { s with port := f s.port }

/-- A new moment: commands placed from here on are younger than all placed before (R142). -/
def State.bump (s : State) : State := { s with moment := s.moment + 1 }

/-- Rounded down to 100 W (chapter 5). -/
def floor100 (w : Nat) : Nat := w / 100 * 100

/-- The quotient rounded up. -/
def ceilDiv (a b : Nat) : Nat := (a + b - 1) / b

/-- The numbers of the strata and of the lease slots, ascending. -/
def upTo8 : List Nat := [1, 2, 3, 4, 5, 6, 7, 8]

/-- The roster indexes of the link stations, ascending. -/
def stationIndexes : List Nat := [1, 2, 3, 4, 5, 6, 7]

/-- The numbers 1 to `n`, ascending. -/
def countTo (n : Nat) : List Nat := (List.range n).map (· + 1)

/-- Insertion into a list ascending by `key`, behind the entries with an equal key. -/
def insertBy {α : Type} (key : α → Nat) (x : α) : List α → List α
  | [] => [x]
  | y :: ys => if key y ≤ key x then y :: insertBy key x ys else x :: y :: ys

/-- The list in ascending order of `key`, equal keys in the order they came. -/
def sortBy {α : Type} (key : α → Nat) (l : List α) : List α := l.foldl (fun acc x => insertBy key x acc) []

/-! ### The map -/

/-- Stratum `n`, 1 to 8. -/
def State.stratum (s : State) (n : Nat) : Stratum := tget s.map.strata (n - 1) .initial

/-- The map temperature of stratum `n`. -/
def State.temp (s : State) (n : Nat) : Temp := (s.stratum n).temp

/-- The cylinder volume: the sum of the eight stratum volumes (§1.5). -/
def StratumMap.cylinderVolume (m : StratumMap) : Nat := (m.strata.toList.map (·.volume)).sum

/-! ### The book -/

/-- Slot `n` of the book, 1 to 24. -/
def State.bookSlot (s : State) (n : Nat) : BookSlot := tget s.book.slots (n - 1) .initial

def State.setBookSlot (n : Nat) (b : BookSlot) (s : State) : State :=
  s.modBook fun k => { k with slots := tset k.slots (n - 1) b }

/-- The record in slot `n`. -/
def State.record? (s : State) (n : Nat) : Option Reservation := (s.bookSlot n).record

/-- The record in slot `n`, if there is one, changed by `f`. -/
def State.modRecord (n : Nat) (f : Reservation → Reservation) (s : State) : State :=
  s.setBookSlot n { s.bookSlot n with record := (s.record? n).map f }

/-- The record that a reservation handle names. -/
def State.recordOf? (s : State) (h : Handle) : Option Reservation :=
  if (s.bookSlot h.slot).issue = h.issue then s.record? h.slot else none

/-- The lowest-numbered free slot of the book (R18). -/
def State.freeBookSlot (s : State) : Option Nat := (countTo 24).find? fun n => (s.record? n).isNone

/-- The open states (§2.1). -/
def ResState.isOpen : ResState → Bool
  | .booked | .covered | .atRisk => true
  | .served | .missed | .withdrawn => false

/-- A due in minutes (§2.1). -/
def dueOf (t : BookTerms) : Nat := t.dueDay * Config.dayMinutes + t.dueMinute

/-- Now, in minutes (§2.1). -/
def Clock.now (c : Clock) : Nat := c.day * Config.dayMinutes + c.minute

/-- The occupied slots of the book, ascending, with their records. -/
def State.records (s : State) : List (Nat × Reservation) :=
  (countTo 24).filterMap fun n => (s.record? n).map fun r => (n, r)

/-- The open records with their slots, in due order: ascending due, ascending slot among equal dues (§2.1). -/
def State.openByDue (s : State) : List (Nat × Reservation) :=
  sortBy (fun p => dueOf p.2.terms) (s.records.filter fun p => p.2.state.isOpen)

/-- The handle of a book slot as it stands. -/
def State.bookHandle (s : State) (n : Nat) : Handle := { slot := n, issue := (s.bookSlot n).issue }

/-- What a handle resolves to (R19, R61). -/
inductive Resolved where
  | badField | stale | noSuch | live
deriving DecidableEq, Repr

/-- A handle against a slot table of `size` slots: the present issue, and whether the slot is occupied. -/
def resolveHandle (size : Nat) (h : Handle) (issue : Nat) (occupied : Bool) : Resolved :=
  if h.slot < 1 ∨ size < h.slot then .badField
  else if h.issue ≠ issue then .stale
  else if occupied then .live else .noSuch

/-- A reservation handle resolved (R19). -/
def State.resolveReservation (s : State) (h : Handle) : Resolved :=
  resolveHandle 24 h (s.bookSlot h.slot).issue (s.record? h.slot).isSome

/-! ### The lease table -/

/-- Lease slot `n`, 1 to 8. -/
def State.leaseSlot (s : State) (n : Nat) : LeaseSlot := tget s.admission.leases (n - 1) .initial

def State.setLeaseSlot (n : Nat) (x : LeaseSlot) (s : State) : State :=
  s.modAdmission fun a => { a with leases := tset a.leases (n - 1) x }

/-- The lease in slot `n`. -/
def State.lease? (s : State) (n : Nat) : Option Lease := (s.leaseSlot n).lease

/-- The state of the lease in slot `n`. -/
def State.leaseState? (s : State) (n : Nat) : Option LeaseState := (s.lease? n).map (·.state)

/-- The lease in slot `n`, if there is one, changed by `f`. -/
def State.modLease (n : Nat) (f : Lease → Lease) (s : State) : State :=
  s.setLeaseSlot n { s.leaseSlot n with lease := (s.lease? n).map f }

/-- The handle of a lease slot as it stands. -/
def State.leaseHandle (s : State) (n : Nat) : Handle := { slot := n, issue := (s.leaseSlot n).issue }

/-- A lease handle resolved (R61). -/
def State.resolveLease (s : State) (h : Handle) : Resolved :=
  resolveHandle 8 h (s.leaseSlot h.slot).issue (s.lease? h.slot).isSome

/-- The live lease that a handle names. -/
def State.leaseOf? (s : State) (h : Handle) : Option Lease :=
  if s.resolveLease h = .live then s.lease? h.slot else none

/-- The slot of the lease that roster entry `i` holds (R64: at most one). -/
def State.slotHeldBy (s : State) (i : Nat) : Option Nat :=
  upTo8.find? fun n => (s.lease? n).any fun l => l.holder == i

/-- The handle of the lease that roster entry `i` holds. -/
def State.handleHeldBy (s : State) (i : Nat) : Option Handle := (s.slotHeldBy i).map s.leaseHandle

/-- The lowest-numbered free lease slot (R60). -/
def State.freeLeaseSlot (s : State) : Option Nat := upTo8.find? fun n => (s.lease? n).isNone

/-- The slot of the lease of a kind that the part opens one of at a time, SOLAR or SANITISE. -/
def State.slotOfKind (s : State) (k : LeaseKind) : Option Nat :=
  upTo8.find? fun n => (s.lease? n).any fun l => l.kind == k

/-- The kinds held by bought stations (R62). -/
def LeaseKind.isBought : LeaseKind → Bool
  | .topUp | .sanitise | .boost => true
  | .solar | .free => false

/-- The states in which a lease has a demand (R90). -/
def LeaseState.hasDemand : LeaseState → Bool
  | .offered | .admitted | .throttled | .finishing => true
  | .suspended | .revoking => false

/-- The states in which a station heats at the granted rate (R93). -/
def LeaseState.isHeating : LeaseState → Bool
  | .admitted | .throttled | .finishing => true
  | .offered | .suspended | .revoking => false

/-- ADMITTED or THROTTLED. -/
def LeaseState.isRunning : LeaseState → Bool
  | .admitted | .throttled => true
  | .offered | .suspended | .finishing | .revoking => false

/-! ### The roster -/

/-- Roster entry `i`, 0 to 7. -/
def State.entry (s : State) (i : Nat) : Entry := tget s.roster.entries i .absent

def State.setEntry (i : Nat) (e : Entry) (s : State) : State :=
  s.modRoster fun r => { r with entries := tset r.entries i e }

def State.modEntry (i : Nat) (f : Entry → Entry) (s : State) : State := s.setEntry i (f (s.entry i))

/-- The entry that holds a link address (R131: no two do). -/
def State.indexAt (s : State) (addr : Nat) : Option Nat :=
  stationIndexes.find? fun i => (s.entry i).state != .absent && (s.entry i).address == addr

/-- The bought group (§7.1). -/
def SourceClass.isBought : SourceClass → Bool
  | .heatPump | .combustion | .gridElectric => true
  | .solarThermal | .pvSurplus | .recovered => false

/-- The classes of the bought group that draw on the site power budget (R94). -/
def SourceClass.drawsBudget : SourceClass → Bool
  | .heatPump | .gridElectric => true
  | .solarThermal | .pvSurplus | .recovered | .combustion => false

/-- The default cap of a class (§7.1). -/
def SourceClass.defaultCap : SourceClass → Option Nat
  | .solarThermal => none
  | .pvSurplus => some 3000
  | .recovered => some 2000
  | .heatPump => some 3000
  | .combustion => some 12000
  | .gridElectric => some 3000

/-- The default rank of a class (§7.1). -/
def SourceClass.defaultRank : SourceClass → Option Nat
  | .heatPump => some 1
  | .combustion => some 2
  | .gridElectric => some 3
  | .solarThermal | .pvSurplus | .recovered => none

/-- The lesser of a figure and an optional figure. -/
def minWith (a : Nat) : Option Nat → Nat
  | none => a
  | some b => min a b

/-- The effective cap of an entry 1 to 7 (R120). -/
def Entry.effectiveCap (autoCap : Bool) (e : Entry) : Nat :=
  let hostCap := match e.hostCap with
    | some c => some c
    | none => if autoCap then e.cls.defaultCap else none
  minWith (minWith e.declared hostCap) e.learned

/-- The effective cap of roster entry `i`; entry 0's is the solar rating (R119). -/
def State.effectiveCap (s : State) (i : Nat) : Nat :=
  if i = 0 then s.admission.rating else (s.entry i).effectiveCap s.roster.autoCap

/-- The stratum at the divert valve's present inlet (R154, R162). -/
def Solar.inlet (v : Solar) : Nat :=
  match v.valve with
  | .lower => 1
  | .upper => v.params.upperInlet

/-- The inlet stratum of roster entry `i`; entry 0's follows the valve (R119). -/
def State.entryInlet (s : State) (i : Nat) : Nat := if i = 0 then s.solar.inlet else (s.entry i).inlet

/-- A roster entry that may be given a new bought lease (R52). -/
def State.eligible (s : State) (i : Nat) : Bool :=
  (s.entry i).state == .ready && (s.entry i).cls.isBought && decide (s.map.reserveLine ≤ s.entryInlet i)
    && (s.slotHeldBy i).isNone && (s.entry i).cooldown.isNone && !s.admission.halted

/-- The set of eligible entries, ascending (R52). -/
def State.eligibleSet (s : State) : List Nat := stationIndexes.filter s.eligible

/-! ### The link -/

/-- What the link keeps for roster entry `i`. -/
def State.station (s : State) (i : Nat) : Station := tget s.link.stations i .initial

def State.modStation (i : Nat) (f : Station → Station) (s : State) : State :=
  s.modLink fun k => { k with stations := tset k.stations i (f (s.station i)) }

/-- The handle a link command names. -/
def LinkCmd.handle? : LinkCmd → Option Handle
  | .grant h _ _ _ _ => some h
  | .amend h _ _ => some h
  | .setRate h _ => some h
  | .suspend h => some h
  | .resume h _ => some h
  | .revoke h => some h
  | .identify | .poll | .qualify _ | .refuse _ | .linkClear | .allStop => none

/-- REVOKE and SUSPEND are urgent, all others ordinary (R142). -/
def LinkCmd.isUrgent : LinkCmd → Bool
  | .revoke _ | .suspend _ => true
  | .identify | .poll | .grant _ _ _ _ _ | .amend _ _ _ | .setRate _ _ | .resume _ _ | .qualify _ | .refuse _
  | .linkClear | .allStop => false

/-- A command bears a lease when it names the live lease the entry holds (R142). -/
def State.bears (s : State) (i : Nat) (c : LinkCmd) : Bool :=
  match c.handle? with
  | none => false
  | some h => s.handleHeldBy i == some h

end Sys2Proof.Machine
end

