-- ==== Sys2Proof/Machine/Bytes.lean ====
section
/-! DEFINITION. Bytes and fields of the frames: most significant byte first, signed temperatures, handles, the CRC-8
(§8.2, §11.1, R136). -/

namespace Sys2Proof.Machine

/-- One byte. -/
def byte (n : Nat) : Byte := BitVec.ofNat 8 n

/-- Two bytes, most significant first. -/
def be16 (n : Nat) : List Byte := [byte (n / 256), byte n]

/-- Four bytes, most significant first. -/
def be32 (n : Nat) : List Byte := be16 (n / 65536) ++ be16 n

/-- A signed 16-bit count. -/
def beSigned (t : Int) : List Byte := be16 (t % 65536).toNat

/-- A mark: 0 clear, 1 set. -/
def mark (b : Bool) : List Byte := [if b then 1#8 else 0#8]

/-- An optional field (§11.1): the presence byte, then the field's full width, zero bytes where it is absent. -/
def optField {α : Type} (width : Nat) (f : α → List Byte) : Option α → List Byte
  | none => 0#8 :: List.replicate width 0#8
  | some a => 1#8 :: f a

/-- A reservation handle: the slot, then the issue (§11.1). -/
def reservationBytes (h : Handle) : List Byte := [byte h.slot, byte h.issue]

/-- A lease handle: the issue in the upper four bits and the slot in the lower four (§8.2, §11.1). -/
def leaseByte (h : Handle) : Byte := byte (h.issue * 16 + h.slot)

/-- A lease handle, 0x00 for none. -/
def leaseByteOpt : Option Handle → Byte
  | none => 0#8
  | some h => leaseByte h

/-- The lease handle a byte codes. -/
def leaseOfByte (b : Byte) : Handle := { slot := b.toNat % 16, issue := b.toNat / 16 }

/-- The lease handle a byte codes; 0x00 is no handle. -/
def leaseOfByteOpt (b : Byte) : Option Handle := if b = 0#8 then none else some (leaseOfByte b)

/-- One bit of the CRC-8: polynomial 0x07, no reflection (R136). -/
def crcBit (c : Byte) : Byte := if c.msb then (c <<< 1) ^^^ 0x07#8 else c <<< 1

/-- One byte of the CRC-8. -/
def crcByte (c b : Byte) : Byte := (List.range 8).foldl (fun x _ => crcBit x) (c ^^^ b)

/-- The CRC-8 of the bytes of a frame, from 0x00 (R136). -/
def crc8 (bytes : List Byte) : Byte := bytes.foldl crcByte 0#8

/-- Bytes with their CRC behind them. -/
def sealed (bytes : List Byte) : List Byte := bytes ++ [crc8 bytes]

/-- Two bytes read as a count. -/
def word16 (a b : Byte) : Nat := a.toNat * 256 + b.toNat

/-- Two bytes read as a signed count. -/
def signed16 (a b : Byte) : Int := if a.msb then (word16 a b : Int) - 65536 else word16 a b

/-- Four bytes read as a count. -/
def word32 (a b c d : Byte) : Nat := word16 a b * 65536 + word16 c d

end Sys2Proof.Machine
end

