-- ==== Sys2Proof/Machine/Flags.lean ====
section
/-! DEFINITION. The event flags and the attention line (§11.3), and the counters that stop or wrap (§1.5). -/

namespace Sys2Proof.Machine

/-- The sixteen event flags (§11.3). -/
inductive EventFlag where
  | atRisk | served | missed | leaseRetired | stationAdded | stationLost | stationBarred | probeFault
  | mapInvalid | solarState | sanitiseDone | sanitiseFailed | bookStarved | rosterFull | dualRefused | clockUnset
deriving DecidableEq, Repr

/-- The flag's bit (§11.3). -/
def EventFlag.bit : EventFlag → Nat
  | .atRisk => 0
  | .served => 1
  | .missed => 2
  | .leaseRetired => 3
  | .stationAdded => 4
  | .stationLost => 5
  | .stationBarred => 6
  | .probeFault => 7
  | .mapInvalid => 8
  | .solarState => 9
  | .sanitiseDone => 10
  | .sanitiseFailed => 11
  | .bookStarved => 12
  | .rosterFull => 13
  | .dualRefused => 14
  | .clockUnset => 15

/-- The flag's mask: a 1 in its bit. -/
def EventFlag.one (f : EventFlag) : BitVec 16 := 1#16 <<< f.bit

/-- A flag is set when a block raises it; raising a set flag leaves it set (R176). -/
def State.raise (f : EventFlag) (s : State) : State := s.modPort fun p => { p with flags := p.flags ||| f.one }

/-- The flag is raised where a condition holds. -/
def State.raiseIf (c : Bool) (f : EventFlag) (s : State) : State := if c then s.raise f else s

/-- A flag is set. -/
def State.flagged (s : State) (f : EventFlag) : Bool := s.port.flags &&& f.one != 0#16

/-- The attention line: asserted while a flag is set whose mask bit is 0 (R177). -/
def Port.attention (p : Port) : Bool := p.flags &&& ~~~p.mask != 0#16

/-- A 16-bit counter that stops at 65,535, one higher (R22). -/
def satInc (n : Nat) : Nat := if n < Config.top16 then n + 1 else n

/-- A 32-bit count that stops at its top (R73). -/
def satAdd32 (n e : Nat) : Nat := min (n + e) (Config.wrap32 - 1)

/-- A 32-bit count that wraps to 0 (R102, R134). -/
def wrapAdd32 (n e : Nat) : Nat := (n + e) % Config.wrap32

/-- The count since a mark, modulo 2^32 (R103). -/
def since32 (n mark : Nat) : Nat := (n + Config.wrap32 - mark) % Config.wrap32

/-- One stale station item is counted (R141). -/
def State.countStale (s : State) : State := s.modLink fun k => { k with staleItems := satInc k.staleItems }

end Sys2Proof.Machine
end

