-- ==== Sys2Proof/Machine/Queue.lean ====
section
/-! DEFINITION. Placing a command in a station's queue: coalescing, room-making and what overtakes a command in flight
(§8.4). -/

namespace Sys2Proof.Machine

def LinkCmd.isGrant (h : Handle) : LinkCmd → Bool
  | .grant h' _ _ _ _ => h' == h
  | _ => false

def LinkCmd.isSetRate (h : Handle) : LinkCmd → Bool
  | .setRate h' _ => h' == h
  | _ => false

def LinkCmd.isAmend (h : Handle) : LinkCmd → Bool
  | .amend h' _ _ => h' == h
  | _ => false

def LinkCmd.isSuspend (h : Handle) : LinkCmd → Bool
  | .suspend h' => h' == h
  | _ => false

def LinkCmd.isResume (h : Handle) : LinkCmd → Bool
  | .resume h' _ => h' == h
  | _ => false

def LinkCmd.isRevoke (h : Handle) : LinkCmd → Bool
  | .revoke h' => h' == h
  | _ => false

def LinkCmd.isQualify : LinkCmd → Bool
  | .qualify _ => true
  | _ => false

/-- A QUALIFY that starts a trial. -/
def LinkCmd.startsTrial : LinkCmd → Bool
  | .qualify rate => rate != 0
  | _ => false

def LinkCmd.isRefuse : LinkCmd → Bool
  | .refuse _ => true
  | _ => false

/-- Placing the first command removes or replaces the second under R142 and R143; removal for room is not meant (log entry
48). -/
def overtakes (new old : LinkCmd) : Bool :=
  match new with
  | .setRate h _ => old.isSetRate h
  | .amend h _ _ => old.isAmend h
  | .suspend h => old.isSetRate h || old.isResume h || old.isSuspend h
  | .resume h _ => old.isSuspend h || old.isResume h
  | .revoke h => old.handle? == some h
  | .qualify _ => old.isQualify
  | .refuse _ => old.isRefuse
  | .grant _ _ _ _ _ | .identify | .poll | .linkClear | .allStop => false

/-- The commands that may wait for a lease in each of its states (R143). A REVOKE waits for an OFFERED lease where its
station had believed in the handle before the lease was given to it (R140). -/
def LeaseState.mayWait (st : LeaseState) : LinkCmd → Bool
  | .grant _ _ _ _ _ => st == .offered
  | .setRate _ _ | .suspend _ | .resume _ _ => st.isHeating || st == .suspended
  | .revoke _ => st == .offered || st == .revoking
  | .amend _ _ _ | .qualify _ | .refuse _ | .identify | .poll | .linkClear | .allStop => true

/-- The first command that a test accepts takes a new content, its place and age unchanged (R142). -/
def replaceFirst (p : LinkCmd → Bool) (c : LinkCmd) : List Queued → List Queued
  | [] => []
  | x :: xs => if p x.cmd then { x with cmd := c } :: xs else x :: replaceFirst p c xs

/-- The first command that a test accepts is removed. -/
def removeFirst (p : LinkCmd → Bool) : List Queued → List Queued
  | [] => []
  | x :: xs => if p x.cmd then xs else x :: removeFirst p xs

/-- The commands a test accepts are removed. -/
def removeAll (p : LinkCmd → Bool) (q : List Queued) : List Queued := q.filter fun x => !p x.cmd

def anyWaiting (p : LinkCmd → Bool) (q : List Queued) : Bool := q.any fun x => p x.cmd

/-- Room in a queue of four places: the oldest command that bears no lease goes (R142), and the head of a queue that holds
none (log entry 42). -/
def makeRoom (bears : LinkCmd → Bool) (q : List Queued) : List Queued :=
  if q.length < 4 then q
  else if anyWaiting (fun c => !bears c) q then removeFirst (fun c => !bears c) q
  else q.tail

/-- A SET RATE on a full queue takes the place of the oldest SET RATE waiting (R142). -/
def takesSetRatePlace (c : LinkCmd) (q : List Queued) : Bool :=
  match c with
  | .setRate _ _ => 4 ≤ q.length && anyWaiting (fun x => match x with | .setRate _ _ => true | _ => false) q
  | _ => false

/-- A command at the tail, with room made for it (R142). -/
def enqueue (bears : LinkCmd → Bool) (x : Queued) (q : List Queued) : List Queued :=
  if takesSetRatePlace x.cmd q then
    replaceFirst (fun c => match c with | .setRate _ _ => true | _ => false) x.cmd q
  else makeRoom bears q ++ [x]

/-- A command in the place of one that a test accepts, or else at the tail. -/
def replaceOrEnqueue (bears : LinkCmd → Bool) (p : LinkCmd → Bool) (x : Queued) (q : List Queued) : List Queued :=
  if anyWaiting p q then replaceFirst p x.cmd q else enqueue bears x q

/-- What the coalescing rules read of a lease: the acknowledged rate, the run view, and whether a RESUME for it is in
flight (R143). -/
structure LeaseView where
  ackRate : Option Nat
  runView : Option RunView
  resumeInFlight : Bool
deriving DecidableEq, Repr

/-- A SET RATE placed: a waiting RESUME takes its rate, and a SET RATE that waits beside it is overtaken (R143). -/
def placeSetRate (bears : LinkCmd → Bool) (h : Handle) (rate age : Nat) (q : List Queued) : List Queued :=
  if anyWaiting (·.isResume h) q then
    replaceFirst (·.isResume h) (.resume h rate) (removeAll (·.isSetRate h) q)
  else replaceOrEnqueue bears (·.isSetRate h) { cmd := .setRate h rate, age := age } q

/-- A SUSPEND placed (R143). -/
def placeSuspend (bears : LinkCmd → Bool) (v : LeaseView) (h : Handle) (age : Nat) (q : List Queued) : List Queued :=
  let q1 := removeAll (·.isSetRate h) q
  let x : Queued := { cmd := .suspend h, age := age }
  if anyWaiting (·.isResume h) q1 then
    let q2 := removeAll (·.isResume h) q1
    if v.runView = some .suspended ∧ v.resumeInFlight = false then q2
    else replaceOrEnqueue bears (·.isSuspend h) x q2
  else replaceOrEnqueue bears (·.isSuspend h) x q1

/-- A RESUME placed (R143). -/
def placeResume (bears : LinkCmd → Bool) (v : LeaseView) (h : Handle) (rate age : Nat) (q : List Queued) :
    List Queued :=
  if anyWaiting (·.isSuspend h) q then
    let q1 := removeAll (·.isSuspend h) q
    if v.ackRate = some rate then q1 else placeSetRate bears h rate age q1
  else replaceOrEnqueue bears (·.isResume h) { cmd := .resume h rate, age := age } q

/-- A REVOKE placed: it removes every other command that names the handle; at most one for each handle (R142, R143). -/
def placeRevoke (bears : LinkCmd → Bool) (h : Handle) (age : Nat) (q : List Queued) : List Queued :=
  let q1 := removeAll (fun c => c.handle? == some h && !c.isRevoke h) q
  if anyWaiting (·.isRevoke h) q1 then q1 else enqueue bears { cmd := .revoke h, age := age } q1

/-- A QUALIFY placed; one of rate 0 that finds a trial's QUALIFY waiting removes it and is dropped (R142). -/
def placeQualify (bears : LinkCmd → Bool) (rate age : Nat) (q : List Queued) : List Queued :=
  if rate = 0 ∧ anyWaiting (·.startsTrial) q = true then removeAll (·.startsTrial) q
  else replaceOrEnqueue bears (·.isQualify) { cmd := .qualify rate, age := age } q

/-- A queue with a command placed in it by R142 and R143. -/
def coalesce (bears : LinkCmd → Bool) (v : LeaseView) (c : LinkCmd) (age : Nat) (q : List Queued) : List Queued :=
  match c with
  | .setRate h rate => placeSetRate bears h rate age q
  | .amend h _ _ => replaceOrEnqueue bears (·.isAmend h) { cmd := c, age := age } q
  | .suspend h => placeSuspend bears v h age q
  | .resume h rate => placeResume bears v h rate age q
  | .revoke h => placeRevoke bears h age q
  | .qualify rate => placeQualify bears rate age q
  | .refuse _ => replaceOrEnqueue bears (·.isRefuse) { cmd := c, age := age } q
  | .grant _ _ _ _ _ | .identify | .poll | .linkClear | .allStop => enqueue bears { cmd := c, age := age } q

/-- The in-flight exchange carries a command that a test accepts to entry `i`. -/
def State.inFlightTo (s : State) (i : Nat) (p : LinkCmd → Bool) : Bool :=
  s.link.exchange.any fun x => x.addr == (s.entry i).address && p x.cmd

/-- What the coalescing rules read of the lease that a command names. -/
def State.leaseView (s : State) (i : Nat) (c : LinkCmd) : LeaseView :=
  match c.handle? with
  | none => { ackRate := none, runView := none, resumeInFlight := false }
  | some h =>
    { ackRate := (s.leaseOf? h).bind (·.ackRate)
      runView := (s.leaseOf? h).bind (·.runView)
      resumeInFlight := s.inFlightTo i (·.isResume h) }

/-- A command of the same entry now in flight is marked when the one placed would have removed or replaced it (R144). -/
def markOvertaken (i : Nat) (c : LinkCmd) (s : State) : State :=
  if s.inFlightTo i (overtakes c) then
    s.modLink fun k => { k with exchange := k.exchange.map fun x => { x with overtaken := true } }
  else s

/-- A command placed in the queue of roster entry `i` (R142, R143); entry 0 is not on the link. -/
def place (i : Nat) (c : LinkCmd) (s : State) : State :=
  if i = 0 then s
  else
    markOvertaken i c <|
      s.modStation i fun t => { t with queue := coalesce (s.bears i) (s.leaseView i c) c s.moment t.queue }

/-- The commands for a lease that wait in its holder's queue are removed (R84, R113). -/
def dropCommands (i : Nat) (h : Handle) (s : State) : State :=
  s.modStation i fun t => { t with queue := removeAll (fun c => c.handle? == some h) t.queue }

/-- The GRANT of a lease that has left OFFERED, and a REVOKE of its handle, wait no longer (R143, R144; log entry 49). -/
def dropOffer (i : Nat) (h : Handle) (s : State) : State :=
  s.modStation i fun t => { t with queue := removeAll (fun c => c.isGrant h || c.isRevoke h) t.queue }

/-- A queue is emptied (R144). -/
def emptyQueue (i : Nat) (s : State) : State := s.modStation i fun t => { t with queue := [] }

/-- A QUALIFY that starts a trial waits for entry `i` or is in flight to it. -/
def State.qualifyOutstanding (s : State) (i : Nat) : Bool :=
  anyWaiting (·.startsTrial) (s.station i).queue || s.inFlightTo i (·.startsTrial)

end Sys2Proof.Machine
end

