-- ==== Sys2Proof/Machine/Pass.lean ====
section
/-! DEFINITION. Starting a coverage pass and what it takes at its start (§3.1). -/

namespace Sys2Proof.Machine

/-- The strata as a pass holds them, from S8 down, with an empty claims table (R42, R43). -/
def State.layers (s : State) : List Layer :=
  upTo8.reverse.map fun n =>
    { no := n, temp := s.temp n, volume := (s.stratum n).volume, claimed := 0 }

/-- What a pass takes and holds (R42): the map, the reserve line and margin, the open records in due order, and now. -/
def State.snapshot (s : State) : Pass :=
  { layers := s.layers
    reserveLine := s.map.reserveLine
    margin := s.map.margin
    now := s.clock.now
    records := s.openByDue.map fun p => { handle := s.bookHandle p.1, terms := p.2.terms }
    excepted := [] }

/-- A pass start (R40): discarded while the map is INVALID (R9), it begins a pass or sets rerun-pending (R41). -/
def passStart (s : State) : State :=
  if s.map.valid then
    match s.coverage.pass with
    | none => s.modCoverage fun c => { c with pass := some s.snapshot }
    | some _ => s.modCoverage fun c => { c with rerun := true }
  else s

/-- A change in the set of eligible stations is a pass start; a change that leaves the set as it was gives none (R52). -/
def noteEligible (before : State) (s : State) : State :=
  if s.eligibleSet = before.eligibleSet then s else passStart s

/-- A record changed since the start of the pass in flight takes nothing from it (R31). -/
def exceptRecord (n : Nat) (s : State) : State :=
  s.modCoverage fun c => { c with pass := c.pass.map fun p => { p with excepted := n :: p.excepted } }

end Sys2Proof.Machine
end

