-- ==== Sys2Proof/Machine/Rates.lean ====
section
/-! DEFINITION. Entitlement, demand, granted rate and the site budget arbiter (chapter 5). -/

namespace Sys2Proof.Machine

/-! ### Entitlement and demand -/

/-- The lease's holder is of class HEAT_PUMP or GRID_ELECTRIC (R90). -/
def State.drawsBudget (s : State) (l : Lease) : Bool := (s.entry l.holder).cls.drawsBudget

/-- The entitlement of a lease by its kind (R87, R88, R89). -/
def State.entitlementOf (s : State) (l : Lease) : Nat :=
  match l.kind with
  | .solar => s.admission.rating
  | .free => min (floor100 l.offer) (min (s.effectiveCap l.holder) Config.maxRate)
  | .topUp | .sanitise | .boost => floor100 (min (s.effectiveCap l.holder) Config.maxRate)

/-- The guard's cap on an entitlement (R90). -/
def guardCap (g : GuardState) (entitlement : Nat) : Nat :=
  match g with
  | .clear => entitlement
  | .half => floor100 (entitlement / 2)
  | .shut => 0

/-- The regulation cap of the SOLAR lease while the loop is REGULATING (R89). -/
def State.regulationCap (s : State) : Nat :=
  min (floor100 (s.admission.rating * s.solar.params.minSpeed / 100)) (s.admission.rating - 100)

/-- What the guard leaves of a lease's entitlement: its demand but for the caps of FINISHING and REGULATING (R90). -/
def State.guarded (s : State) (l : Lease) : Nat := min l.entitlement (guardCap s.admission.guard l.entitlement)

/-- The demand of a lease in OFFERED, ADMITTED, THROTTLED or FINISHING (R90). -/
def State.demand (s : State) (l : Lease) : Nat :=
  let guarded := s.guarded l
  let finished := if l.state = .finishing then min guarded (floor100 (l.entitlement / 4)) else guarded
  if l.kind = .solar ∧ s.solar.state = .regulating then min finished s.regulationCap else finished

/-! ### Allocations -/

/-- The site budget that a lease holds (R94). -/
def State.allocation (s : State) (l : Lease) : Nat :=
  if l.state.hasDemand && s.drawsBudget l then l.granted else 0

/-- The site budget that the running trial holds (R94, R99). -/
def State.trialAllocation (s : State) : Nat :=
  match s.roster.trial with
  | none => 0
  | some t => if (s.entry t.entry).cls.drawsBudget then t.rate else 0

/-- All allocations (R94). -/
def State.allocated (s : State) : Nat :=
  (upTo8.map fun n => ((s.lease? n).map s.allocation).getD 0).sum + s.trialAllocation

/-- The unallocated budget (R94). -/
def State.unallocated (s : State) : Nat := s.admission.siteBudget - s.allocated

/-- The lease in slot `n` holds an allocation of the site budget (R94). -/
def State.holdsAllocation (s : State) (n : Nat) : Bool :=
  (s.lease? n).any fun l => l.state.hasDemand && s.drawsBudget l

/-- The slots of the electric bought leases in OFFERED, ascending. -/
def State.offeredSlots (s : State) : List Nat :=
  upTo8.filter fun n => s.holdsAllocation n && (s.lease? n).any fun l => l.state == .offered

/-- The slots of the electric bought leases past OFFERED, in the admission order. -/
def State.admittedSlots (s : State) : List Nat :=
  (s.admission.order.map (·.slot)).filter fun n =>
    s.holdsAllocation n && (s.lease? n).any fun l => l.state != .offered

/-- The removal order (R96). -/
def State.removalOrder (s : State) : List Nat := s.offeredSlots.reverse ++ s.admittedSlots.reverse

/-- The restoration order (R97). -/
def State.restorationOrder (s : State) : List Nat := s.admittedSlots ++ s.offeredSlots

/-- Power taken from one lease, as far as 0 W or until the excess is gone (R96). -/
def takePower (s : State) (n : Nat) : State :=
  s.modLease n fun l => { l with granted := l.granted - (s.allocated - s.admission.siteBudget) }

/-- The trial ends where it stands: nothing is counted, its allocation is released, and a QUALIFY of 0 is queued where
its entry is still QUALIFYING (R126). -/
def stopTrial (s : State) : State :=
  match s.roster.trial with
  | none => s
  | some t =>
    let s1 := s.modRoster fun r => { r with trial := none }
    if (s1.entry t.entry).state = .qualifying then place t.entry (.qualify 0) s1 else s1

/-- The excess is removed, from the leases and then by stopping the trial (R96). -/
def removeExcess (s : State) : State :=
  let s1 := s.removalOrder.foldl takePower s
  if s1.admission.siteBudget < s1.allocated then stopTrial s1 else s1

/-- Power given to one lease, up to its demand or what is left (R97). A lease waiting for budget is passed over until the
share it could be offered reaches 500 W; one that waits in FINISHING is offered power on what the guard leaves of its
entitlement and takes the finishing rate of it (R110; log entry 45). -/
def givePower (s : State) (n : Nat) : State :=
  match s.lease? n with
  | none => s
  | some l =>
    let share := min (s.demand l - l.granted) s.unallocated
    let offer := min (s.guarded l - l.granted) s.unallocated
    if share = 0 ∨ (l.waiting = true ∧ offer < Config.electricFloor) then s
    else s.modLease n fun l => { l with granted := l.granted + share, waiting := false }

/-- The unallocated budget is given out (R97). -/
def restorePower (s : State) : State := s.restorationOrder.foldl givePower s

/-! ### Recomputation -/

/-- The lease that stood in slot `n` of an earlier state, if it is the same lease. -/
def State.sameLease? (before : State) (s : State) (n : Nat) : Option Lease :=
  if before.leaseHandle n = s.leaseHandle n then before.lease? n else none

/-- The entitlement of the lease in slot `n` follows its inputs (R87). -/
def followEntitlement (s : State) (n : Nat) : State :=
  s.modLease n fun l => { l with entitlement := s.entitlementOf l }

/-- An electric bought lease's demand rose since an earlier state (R98). -/
def State.demandRose (before : State) (s : State) (n : Nat) (l : Lease) : Bool :=
  (before.sameLease? s n).any fun l0 => l0.state.hasDemand && decide (before.demand l0 < s.demand l)

/-- The rate of the lease in slot `n` follows its demand: at once for a lease that holds no allocation; an allocation is
raised where the demand rose, which ends a wait for budget, and lowered where it stands above the demand (R90, R98, R110;
log entry 46). -/
def followDemand (before : State) (s : State) (n : Nat) : State :=
  match s.lease? n with
  | none => s
  | some l =>
    if l.state.hasDemand then
      if s.drawsBudget l then
        if before.demandRose s n l then
          s.modLease n fun l => { l with granted := s.demand l, waiting := false }
        else s.modLease n fun l => { l with granted := min l.granted (s.demand l) }
      else s.modLease n fun l => { l with granted := s.demand l }
    else s.modLease n fun l => { l with granted := 0 }

/-- ADMITTED or THROTTLED by the test of R92; while the map is INVALID no lease is ADMITTED (R118). -/
def settledState (mapValid : Bool) (l : Lease) : LeaseState :=
  if l.state.isRunning then
    if mapValid && l.granted == l.entitlement then .admitted else .throttled
  else l.state

/-- The lease in slot `n` brought to its own demand and to the state that its rate gives it, before the arbiter acts on
what has changed since an earlier state (R70, R90, R92). -/
def enterRate (before : State) (s : State) (n : Nat) : State :=
  (followDemand before (followEntitlement s n) n).modLease n fun l => { l with state := settledState s.map.valid l }

/-- The lease in slot `n` takes the state its rate gives it, and a SET RATE is queued where the rate of a lease that was
heating and heats has changed since an earlier state (R92, R93). -/
def publishRate (before : State) (s : State) (n : Nat) : State :=
  match s.lease? n with
  | none => s
  | some l =>
    let s1 := s.modLease n fun l => { l with state := settledState s.map.valid l }
    let changed := (before.sameLease? s n).any fun l0 => l0.state.isHeating && l0.granted != l.granted
    if l.state.isHeating && changed then place l.holder (.setRate (s.leaseHandle n) l.granted) s1 else s1

/-- The lease in slot `n` is of the free group. -/
def State.freeGroup (s : State) (n : Nat) : Bool := (s.lease? n).any fun l => !l.kind.isBought

/-- The rates of the free leases brought up to date: they hold no allocation and take their demand at once (R90). -/
def freeRates (before : State) (s : State) : State :=
  let s1 := upTo8.foldl followEntitlement s
  (upTo8.filter s1.freeGroup).foldl (followDemand before) s1

/-- Every entitlement, demand and granted rate is brought up to date after a change of any of their inputs since an
earlier state, and the arbiter acts (R87, R90, R92, R93, R96, R97, R98). -/
def settle (before : State) (s : State) : State :=
  let s1 := upTo8.foldl followEntitlement s
  let s2 := upTo8.foldl (followDemand before) s1
  let s3 := if s2.admission.siteBudget < s2.allocated then removeExcess s2 else s2
  let s4 := restorePower s3
  upTo8.foldl (publishRate before) s4

/-- A change of some input, followed by the recomputation of every rate. -/
def settling (f : State → State) (s : State) : State := settle s (f s)

end Sys2Proof.Machine
end

