-- ==== Sys2Proof/Machine/Lease.lean ====
section
/-! DEFINITION. The lease table's shared operations: opening, crediting, finishing, revoking, retiring, suspending,
resuming and handing over a lease (chapters 4 and 6). -/

namespace Sys2Proof.Machine

/-! ### Opening (§4.4) -/

/-- A lease record as it is opened (R64): delivered 0, and the optional fields absent until its kind sets them. -/
def Lease.fresh (kind : LeaseKind) (origin : Origin) (holder inlet : Nat) (ceiling : Temp) : Lease :=
  { kind := kind, origin := origin, holder := holder, state := .offered, inlet := inlet, ceiling := ceiling
    entitlement := 0, granted := 0, budget := none, delivered := 0, limit := none, timer := none, hold := none
    saved := none, serve := [], handovers := none, reason := none, revokeTime := none
    offer := 0, grantSent := false, limitMark := false, stepTimer := none, waiting := false, ackRate := none
    runView := none }

/-- A duration limit in seconds, with the timer at the limit (R65). -/
def Lease.withLimit (seconds : Nat) (l : Lease) : Lease := { l with limit := some seconds, timer := some (2 * seconds) }

/-- The tests every opening meets first: not halted, the map VALID, the holder free (R64). -/
def State.mayOpen (s : State) (holder : Nat) : Bool :=
  !s.admission.halted && s.map.valid && (s.slotHeldBy holder).isNone

/-- An electric holder needs 500 W of unallocated budget (R95). -/
def State.budgetAllows (s : State) (holder : Nat) : Bool :=
  !(s.entry holder).cls.drawsBudget || decide (Config.electricFloor ≤ s.unallocated)

/-- The tests of a TOPUP, SANITISE or BOOST opening: those of R64, an eligible holder, and the budget floor
(R65, R66, R67). -/
def State.mayOpenBought (s : State) (holder : Nat) : Bool :=
  s.mayOpen holder && s.eligible holder && s.budgetAllows holder

/-- The GRANT of the lease in slot `n` (R64): handle, kind, granted rate, ceiling and budget. -/
def State.grantOf (s : State) (n : Nat) (l : Lease) : LinkCmd :=
  .grant (s.leaseHandle n) l.kind l.granted l.ceiling l.budget

/-- The AMEND of the lease in slot `n`: its ceiling and budget as they stand (R54, R143). -/
def State.amendOf (s : State) (n : Nat) (l : Lease) : LinkCmd := .amend (s.leaseHandle n) l.ceiling l.budget

/-- A lease placed in slot `n` with its entitlement and its granted rate: its demand, or for an electric holder the
lesser of its demand and the unallocated budget (R64, R90, R95). -/
def putLease (n : Nat) (l : Lease) (s : State) : State :=
  let s1 := s.setLeaseSlot n { s.leaseSlot n with lease := some l }
  let s2 := followEntitlement s1 n
  let free := s2.unallocated
  s2.modLease n fun l => { l with granted := if s2.drawsBudget l then min (s2.demand l) free else s2.demand l }

/-- An opening that is taken by a holder on the link: the record in the lowest free slot, OFFERED, and a GRANT queued
(R60, R64). -/
def openOffered (l : Lease) (s : State) : Option (Handle × State) :=
  match s.freeLeaseSlot with
  | none => none
  | some n =>
    let s1 := noteEligible s (putLease n l s)
    match s1.lease? n with
    | none => none
    | some l1 => some (s.leaseHandle n, place l1.holder (s1.grantOf n l1) s1)

/-- The SOLAR opening: placed directly in ADMITTED or THROTTLED and added to the admission order (R63, R69). -/
def openSolar (s : State) : State :=
  match s.freeLeaseSlot with
  | none => s
  | some n =>
    let l := { Lease.fresh .solar .part 0 s.solar.inlet s.map.thetaMax with state := .admitted }
    let s1 := putLease n l s
    let s2 := s1.modLease n fun l => { l with state := settledState s1.map.valid l }
    s2.modAdmission fun a => { a with order := a.order ++ [s.leaseHandle n] }

/-! ### The solar loop's stop, which a retirement may cause (R159, R161) -/

/-- The loop leaves its state: pump at 0 %, every timer dropped, the target cleared, SOLAR_STATE raised (R154, R159,
R160, R161). The valve's spacing is not a timer of the loop's state and runs on (log entry 17). -/
def stopLoop (st : LoopState) (s : State) : State :=
  (s.modSolar fun v =>
    { v with state := st, pump := 0, target := none, prime := none, step := none, stop := none, remeasure := none }).raise
      .solarState

/-! ### Retirement (§4.10) -/

/-- The record that a handle names loses its top-up lease field (R32). -/
def clearTopUp (h : Handle) (s : State) : State :=
  if (s.bookSlot h.slot).issue = h.issue then s.modRecord h.slot fun r => { r with topUp := none } else s

/-- What the retirement of a SANITISE or SOLAR lease is to its owner (R84 step 6, R161, R172). The loop asks for the
outcome CEASED itself; at any other outcome it is told, and enters OFF. -/
def tellOwner (kind : LeaseKind) (out : LeaseOutcome) (s : State) : State :=
  match kind with
  | .sanitise =>
    s.raiseIf (out != .completed && out != .expired && s.sanitise.lastDay != some s.clock.day) .sanitiseFailed
  | .solar =>
    let s1 := s.modSolar fun v => { v with remainder := 0 }
    if out = .ceased then s1 else stopLoop .off s1
  | .free | .topUp | .boost => s

/-- A lease leaves the table: every trace of it is removed and its slot's issue advances (R84 steps 2 to 4). -/
def freeLease (n : Nat) (l : Lease) (out : LeaseOutcome) (s : State) : State :=
  let h := s.leaseHandle n
  let s1 := s.modEntry l.holder fun e =>
    { e with last := some { handle := h, kind := l.kind, outcome := out, delivered := l.delivered } }
  let s2 := dropCommands l.holder h s1
  let s3 := s2.modAdmission fun a => { a with order := a.order.filter (· != h) }
  s3.setLeaseSlot n { issue := (h.issue + 1) % 16, lease := none }

/-- The lease in slot `n` retires, before the arbiter gives out what it released (R84). -/
def dismiss (n : Nat) (out : LeaseOutcome) (s : State) : State :=
  match s.lease? n with
  | none => s
  | some l =>
    let s1 := l.serve.foldl (fun t r => passStart (clearTopUp r t)) s
    let s2 := noteEligible s1 (freeLease n l out s1)
    tellOwner l.kind out (s2.raise .leaseRetired)

/-! ### Revocation (§4.9) -/

/-- A lease put into REVOKING and its REVOKE queued, before the arbiter gives out what it released (R80). -/
def beginRevoking (n : Nat) (l : Lease) (reason : LeaseOutcome) (s : State) : State :=
  place l.holder (.revoke (s.leaseHandle n)) <|
    s.modLease n fun l =>
      { l with
        state := .revoking, reason := some reason, revokeTime := some Config.revokeTime, granted := 0, hold := none
        saved := none, limitMark := false, stepTimer := none, waiting := false }

/-- A lease ended, before the arbiter acts (R80): one in REVOKING is unchanged; the SOLAR lease and an OFFERED lease
whose GRANT is unsent retire at once; any other goes to REVOKING. -/
def beginEnding (n : Nat) (reason : LeaseOutcome) (s : State) : State :=
  match s.lease? n with
  | none => s
  | some l =>
    if l.state = .revoking then s
    else if l.kind = .solar ∨ (l.state = .offered ∧ l.grantSent = false) then dismiss n reason s
    else beginRevoking n l reason s

/-! ### Delivered energy (R73) -/

/-- Energy credited to the lease in slot `n`, to its holder's lifetime total and, for free heat at or above the reserve
line, to the free-heat counter (R73, R102, R134). -/
def credit (n e : Nat) (s : State) : State :=
  match s.lease? n with
  | none => s
  | some l =>
    let s1 := s.modLease n fun l => { l with delivered := satAdd32 l.delivered e }
    let s2 := s1.modEntry l.holder fun r => { r with lifetime := wrapAdd32 r.lifetime e }
    if !l.kind.isBought && decide (s.map.reserveLine ≤ s.entryInlet l.holder) then
      s2.modAdmission fun a => { a with freeHeat := wrapAdd32 a.freeHeat e }
    else s2

/-! ### Finishing (§4.7) -/

/-- A served reservation wants no more heat: COVERED with its margin met (R76). -/
def State.servedFully (s : State) (h : Handle) : Bool :=
  (s.recordOf? h).any fun r => r.state == .covered && r.figures.marginMet == some true

/-- Every stratum from the sanitise floor to S8 stands at or above the sanitise temperature (R78, R170). -/
def State.hotFromFloor (s : State) : Bool :=
  upTo8.all fun n => decide (n < s.sanitise.floor) || decide (s.sanitise.temp ≤ s.temp n)

/-- The delivered energy has reached the budget, where there is one. -/
def Lease.budgetSpent (l : Lease) : Bool := l.budget.any fun b => decide (b ≤ l.delivered)

/-- The finishing condition of a lease (R76, R78). -/
def State.finishingMet (s : State) (l : Lease) : Bool :=
  match l.kind with
  | .topUp => decide (l.ceiling ≤ s.temp l.inlet) || l.budgetSpent || l.serve.all s.servedFully
  | .boost => decide (l.ceiling ≤ s.temp l.inlet) || l.budgetSpent
  | .sanitise => s.hotFromFloor
  | .free | .solar => false

/-- The finishing hold a lease entering FINISHING starts; a SANITISE lease has none (R76, R78). -/
def State.startHold (s : State) (l : Lease) : Option Nat :=
  if l.kind = .sanitise then none else some (60 * s.admission.finishHold)

/-- A lease put into FINISHING (R76, R78, R100). -/
def beginFinishing (n : Nat) (s : State) : State :=
  s.modLease n fun l =>
    { l with state := .finishing, hold := s.startHold l, limitMark := false, stepTimer := none }

/-- A finishing hold of 0 has run out as it starts (R76): the lease, bought and FINISHING, goes to REVOKING (R80). -/
def endZeroHold (n : Nat) (s : State) : State :=
  match s.lease? n with
  | none => s
  | some l =>
    if l.state = .finishing ∧ l.hold = some 0 then settling (beginRevoking n l .completed) s else s

/-- A lease in FINISHING returns to ADMITTED or THROTTLED, with a SET RATE queued (R77, R78). -/
def recharge (n : Nat) (s : State) : State :=
  let s1 := settling (fun t => t.modLease n fun l => { l with state := .admitted, hold := none }) s
  match s1.lease? n with
  | none => s1
  | some l => place l.holder (.setRate (s1.leaseHandle n) l.granted) s1

/-- A FINISHING lease whose condition has lapsed recharges: a TOPUP or BOOST lease only where its inlet stratum stands
more than 3.0 K below its ceiling (R77, R78). -/
def State.recharges (s : State) (l : Lease) : Bool :=
  !s.finishingMet l && (l.kind == .sanitise || decide (s.temp l.inlet < l.ceiling - 30))

/-- The finishing test of the lease in slot `n` (R76, R77, R78). -/
def testFinishing (n : Nat) (s : State) : State :=
  match s.lease? n with
  | none => s
  | some l =>
    if l.state.isRunning && l.kind.isBought && s.finishingMet l then
      endZeroHold n (settling (beginFinishing n) s)
    else if l.state == .finishing && s.recharges l then recharge n s
    else s

/-- The finishing test where it is made for TOPUP and BOOST leases alone: credits, pass-complete, joins and removals
(R76, R78). -/
def testFinishingUnlessSanitise (n : Nat) (s : State) : State :=
  if (s.lease? n).any fun l => l.kind == .sanitise then s else testFinishing n s

/-! ### Suspension and resumption (§6.1) -/

/-- A free-group lease that is flowing (R105). -/
def Lease.isFlowing (l : Lease) : Bool := !l.kind.isBought && l.state.isRunning && decide (0 < l.granted)

/-- Some flowing free lease has an inlet at or above this one's (R105). -/
def State.overlapped (s : State) (l : Lease) : Bool :=
  upTo8.any fun n => (s.lease? n).any fun f => f.isFlowing && decide (l.inlet ≤ f.inlet)

/-- A TOPUP lease that serves a reservation due within 15 min (R106). -/
def State.nearDue (s : State) (l : Lease) : Bool :=
  l.kind == .topUp && l.serve.any fun h =>
    (s.recordOf? h).any fun r => decide (dueOf r.terms ≤ s.clock.now + Config.nearDueSpan)

/-- The slots of the leases to suspend (R105). -/
def State.toSuspend (s : State) : List Nat :=
  upTo8.filter fun n => (s.lease? n).any fun l =>
    l.kind.isBought && l.state.isHeating && s.overlapped l && !s.nearDue l

/-- The slots of the leases to resume (R105, R106). -/
def State.toResume (s : State) : List Nat :=
  upTo8.filter fun n => (s.lease? n).any fun l =>
    l.kind.isBought && l.state == .suspended && (!s.overlapped l || s.nearDue l)

/-- The saved context of a lease as it stands (R107). -/
def State.contextOf (s : State) (l : Lease) : SavedContext :=
  { state := l.state, rate := l.granted, timer := l.timer, hold := l.hold, freeMark := s.admission.freeHeat
    deliveredMark := l.delivered }

/-- A lease suspended, before the arbiter gives out what it released (R107). -/
def beginSuspension (s : State) (n : Nat) : State :=
  match s.lease? n with
  | none => s
  | some l =>
    place l.holder (.suspend (s.leaseHandle n)) <|
      s.modLease n fun l =>
        { l with
          state := .suspended, saved := some (s.contextOf l), granted := 0, hold := none, limitMark := false
          stepTimer := none, waiting := false }

/-- The budget lowered by the free heat received since a mark, to no less than 0 (R109). -/
def State.adjustedBudget (s : State) (l : Lease) (ctx : SavedContext) : Option Nat :=
  l.budget.map fun b => b - since32 s.admission.freeHeat ctx.freeMark

/-- The adjusted budget is at or below the delivered energy (R109). -/
def State.satisfiedByFree (s : State) (l : Lease) (ctx : SavedContext) : Bool :=
  (s.adjustedBudget l ctx).any fun b => decide (b ≤ l.delivered)

/-- A suspended lease restored and its budget adjusted, before the arbiter acts (R109, R110). -/
def beginResumption (s : State) (n : Nat) : State :=
  match s.lease? n with
  | none => s
  | some l =>
    match l.saved with
    | none => s
    | some ctx =>
      let budget := s.adjustedBudget l ctx
      if s.satisfiedByFree l ctx then
        beginRevoking n l .satisfiedByFree (s.modLease n fun l => { l with budget := budget })
      else
        let s1 := s.modLease n fun l =>
          { l with
            state := ctx.state, timer := ctx.timer, hold := ctx.hold, saved := none, budget := budget, granted := 0
            waiting := s.drawsBudget l }
        if budget = l.budget then s1
        else place l.holder (.amend (s.leaseHandle n) l.ceiling budget) s1

/-- The RESUME of a lease that goes on, carrying its granted rate (R110). -/
def announceResume (s : State) (n : Nat) : State :=
  match s.lease? n with
  | none => s
  | some l =>
    if l.state.isHeating then place l.holder (.resume (s.leaseHandle n) l.granted) s else s

/-- All leases that the overlap test suspends are suspended and all that it resumes are restored, and only then does the
arbiter act on what has changed since an earlier state; those that go on are told and tested for finishing (R105, R107,
R109, R110). -/
def actOnOverlap (before s : State) : State :=
  let back := s.toResume
  let s1 := s.toSuspend.foldl beginSuspension s
  let s2 := back.foldl beginResumption s1
  let s3 := settle before s2
  let s4 := back.foldl announceResume s3
  back.foldl (fun t n => testFinishing n t) s4

/-- No lease is to be suspended or resumed (R105). -/
def State.overlapCalm (s : State) : Bool := s.toSuspend.isEmpty && s.toResume.isEmpty

/-- The overlap test of every bought lease where no rate has changed (R105, R106). -/
def testOverlap (s : State) : State := if s.overlapCalm then s else actOnOverlap s s

/-- Every rate brought up to date after a change, since an earlier state, that may start or stop a flow: the free leases'
rates first, then the overlap test, and then the arbiter (R105). -/
def resettle (before s : State) : State :=
  let s1 := freeRates before s
  if s1.overlapCalm then settle before s1 else actOnOverlap before s1

/-! ### Leases that end one at a time -/

/-- The lease in slot `n` retires, and the power it held is given out (R84, R97). -/
def retire (n : Nat) (out : LeaseOutcome) (s : State) : State :=
  match s.lease? n with
  | none => s
  | some _ => resettle s (dismiss n out s)

/-- The lease in slot `n` is sent to REVOKING, and the power it held is given out (R80, R97). -/
def sendRevoking (n : Nat) (reason : LeaseOutcome) (s : State) : State :=
  match s.lease? n with
  | none => s
  | some l => if l.state = .revoking then s else resettle s (beginEnding n reason s)

/-! ### The serve list (R79) -/

/-- A reservation is removed from the serve list of the lease that a handle names; an emptied list sends the lease to
REVOKING with reason UNNEEDED (R32, R79). -/
def removeServed (lease reservation : Handle) (s : State) : State :=
  match s.leaseOf? lease with
  | none => s
  | some l =>
    let rest := l.serve.filter (· != reservation)
    let s1 := s.modLease lease.slot fun l => { l with serve := rest }
    if rest.isEmpty then beginEnding lease.slot .unneeded s1 else s1

/-- The top-up link of the record in slot `n` is removed at its due or its withdrawal (R32). -/
def removeTopUp (n : Nat) (s : State) : State :=
  match (s.record? n).bind (·.topUp) with
  | none => s
  | some lease => removeServed lease (s.bookHandle n) (s.modRecord n fun r => { r with topUp := none })

/-- The finishing test of the lease in slot `n` where a reservation has left its serve list since an earlier state
(R76). -/
def testShrunk (before : State) (s : State) (n : Nat) : State :=
  if (s.lease? n).any fun l => (before.sameLease? s n).any fun l0 => decide (l.serve.length < l0.serve.length) then
    testFinishingUnlessSanitise n s
  else s

/-- What follows once every removal of an event has been made: the near-due status and the overlap, the arbiter, and the
finishing tests (R76, R105, R106). -/
def afterRemovals (before s : State) : State := upTo8.foldl (testShrunk before) (resettle before s)

/-- The record in slot `n` leaves its top-up lease, where it has one, with all that follows. -/
def leaveTopUp (n : Nat) (s : State) : State :=
  if ((s.record? n).bind (·.topUp)).isNone then s else afterRemovals s (removeTopUp n s)

/-! ### Qualification trials called off (R126) -/

/-- A running trial is called off and its allocation given out (R97, R126). -/
def callOffTrial (s : State) : State := settling stopTrial s

/-- The trial of entry `i`, if it is the one that runs, stops, before the arbiter gives out what it held. -/
def stopTrialOf (i : Nat) (s : State) : State := if s.roster.trial.any fun t => t.entry == i then stopTrial s else s

/-- The trial of entry `i`, if it is the one that runs, is called off. -/
def callOffTrialOf (i : Nat) (s : State) : State :=
  if s.roster.trial.any fun t => t.entry == i then callOffTrial s else s

/-- A trial whose window has not begun and whose QUALIFY neither waits nor is in flight had its QUALIFY removed for
room, and is called off (R126, R142; log entry 37). -/
def callOffEvicted (s : State) : State :=
  match s.roster.trial with
  | none => s
  | some t => if t.window.isNone && !s.qualifyOutstanding t.entry then callOffTrial s else s

/-- What closes a step that may have moved leases or placed commands: the overlap test, the check for a trial whose
QUALIFY was removed, and a new moment, so that later commands are younger (R105, R126, R142; log entry 9). -/
def closing (s : State) : State := (callOffEvicted (testOverlap s)).bump

/-! ### Station selection (R55) -/

/-- The preference rank of an entry, as it stands at the selection (R121; log entry 41). -/
def State.rankOf (s : State) (i : Nat) : Nat := ((s.entry i).rank).getD 0

/-- The station selected among the eligible entries for a required depth (R55). -/
def State.selectStation (s : State) (preferred : Option Nat) (depth : Nat) : Option Nat :=
  let all := s.eligibleSet
  match preferred.filter (fun p => all.contains p) with
  | some p => some p
  | none =>
    match (sortBy s.rankOf (all.filter fun i => decide (s.entryInlet i ≤ depth))).head? with
    | some i => some i
    | none => (sortBy s.entryInlet (sortBy s.rankOf all)).head?

/-! ### Handover (§6.2) -/

/-- The earliest-due reservation of a serve list, ties to the lower slot (R112). -/
def State.earliestServed (s : State) (l : Lease) : Option Reservation :=
  ((s.openByDue.filter fun p => l.serve.contains (s.bookHandle p.1)).head?).map (·.2)

/-- The new holder of a lost station's lease (R112). -/
def State.newHolder (s : State) (l : Lease) : Option Nat :=
  match l.kind with
  | .topUp =>
    match s.earliestServed l with
    | none => s.selectStation none s.map.reserveLine
    | some r => s.selectStation r.terms.preferred (r.figures.depth.getD s.map.reserveLine)
  | .sanitise => s.selectStation none s.sanitise.floor
  | .boost | .free | .solar => none

/-- The lease as its new holder is offered it (R113), with its budget as R114 adjusted it. -/
def State.handedOver (s : State) (l : Lease) (holder : Nat) (budget : Option Nat) : Lease :=
  let l1 := { l with
    holder := holder, inlet := s.entryInlet holder, state := .offered, granted := 0, budget := budget
    timer := match l.saved with
      | none => l.timer
      | some ctx => ctx.timer
    hold := none, saved := none, handovers := l.handovers.map (· + 1), grantSent := false, limitMark := false
    stepTimer := none, waiting := false, ackRate := none, runView := none }
  { l1 with entitlement := s.entitlementOf l1 }

/-- The lease in slot `n` moves to another station with the same handle, before the arbiter acts (R113). -/
def moveLease (n : Nat) (l : Lease) (holder : Nat) (budget : Option Nat) (s : State) : State :=
  let h := s.leaseHandle n
  let s1 := dropCommands l.holder h s
  let s2 := s1.modAdmission fun a => { a with order := a.order.filter (· != h) }
  noteEligible s (s2.modLease n fun _ => s.handedOver l holder budget)

/-- The lease in slot `n` handed over, or retired with the outcome of a lost source where it has been handed over twice
or no station is found (R112, R114; log entry 34). -/
def handOverOrEnd (n : Nat) (l : Lease) (s : State) : State :=
  match s.newHolder l with
  | none => dismiss n .sourceLost s
  | some holder =>
    if 2 ≤ l.handovers.getD 0 then dismiss n .sourceLost s
    else
      match l.saved with
      | none => moveLease n l holder l.budget s
      | some ctx =>
        if s.satisfiedByFree l ctx then dismiss n .satisfiedByFree s
        else moveLease n l holder (s.adjustedBudget l ctx) s

/-- The lease in slot `n` of a lost entry, by its kind and state, before the arbiter acts (R82, R112). -/
def endLost (n : Nat) (l : Lease) (s : State) : State :=
  if l.state = .revoking then dismiss n (l.reason.getD .revoked) s
  else
    match l.kind with
    | .free | .solar => dismiss n .ceased s
    | .boost => dismiss n .sourceLost s
    | .topUp | .sanitise => handOverOrEnd n l s

/-- The lease of a lost entry is dealt with, if it holds one (R112). -/
def dealWithLost (s : State) (i : Nat) : State :=
  match s.slotHeldBy i with
  | none => s
  | some n =>
    match s.lease? n with
    | none => s
    | some l => endLost n l s

/-- The GRANT of the lease in slot `n` where it has been handed over since an earlier state (R113). -/
def announceHandover (before : State) (s : State) (n : Nat) : State :=
  match s.lease? n with
  | none => s
  | some l =>
    if (before.sameLease? s n).any fun l0 => l0.holder != l.holder then place l.holder (s.grantOf n l) s else s

end Sys2Proof.Machine
end

