-- ==== Sys2Proof/Machine/Port.lean ====
section
/-! DEFINITION. The service port's conversation: a request taken, its answer in work, and the frames of answers
(§11.1). -/

namespace Sys2Proof.Machine

/-- What a request comes to: its status, the fields of its answer after the echoed code, and the state it leaves. -/
structure Reply where
  status : Status
  fields : List Byte
  state : State

/-- Answered OK with no fields. -/
def Reply.ok (s : State) : Reply := { status := .ok, fields := [], state := s }

/-- Answered OK with fields. -/
def Reply.okWith (fields : List Byte) (s : State) : Reply := { status := .ok, fields := fields, state := s }

/-- Refused: the code alone is answered (§11.2). -/
def Reply.no (st : Status) (s : State) : Reply := { status := st, fields := [], state := s }

/-- The status codes (§11.1). -/
def Status.code : Status → Byte
  | .ok => 0x00#8
  | .badFrame => 0x01#8
  | .unknownRequest => 0x02#8
  | .badField => 0x03#8
  | .noSuch => 0x04#8
  | .stale => 0x05#8
  | .wrongState => 0x06#8
  | .bookFull => 0x07#8
  | .clockUnset => 0x08#8
  | .notEligible => 0x09#8
  | .inProgress => 0x0A#8
  | .busy => 0x0B#8

/-- The answer frame: status, length, the code and the fields, the CRC-8 (§11.1). -/
def Answer.frame (a : Answer) : List Byte :=
  sealed ([a.status.code, byte (a.fields.length + 1), a.code] ++ a.fields)

/-- The request in work, if any. -/
def PortState.work? : PortState → Option Answer
  | .working a => some a
  | .empty | .held _ => none

/-- A request is in work (R173). -/
def State.isWorking (s : State) : Bool := s.port.state.work?.isSome

/-- The port is WORKING and will place this answer; an answer held before is discarded (R173). -/
def State.answering (code : Byte) (st : Status) (fields : List Byte) (s : State) : State :=
  s.modPort fun p => { p with state := .working { status := st, code := code, fields := fields }, ready := false }

/-- A request of the host. One written while another is in work is discarded and no block sees it (R175); one that is
taken is judged by its block, and what it changes is closed like any step. -/
def request (code : Byte) (work : State → Reply) (s : State) : State :=
  if s.isWorking then s
  else
    let r := work s
    (if r.status = .ok then closing r.state else r.state).answering code r.status r.fields

/-- A request that only reads. -/
def query (code : Byte) (read : State → Status × List Byte) (s : State) : State :=
  if s.isWorking then s else s.answering code (read s).1 (read s).2

/-- The answer that a handle not naming a live record draws (R19, R61). -/
def Resolved.status : Resolved → Option Status
  | .badField => some .badField
  | .stale => some .stale
  | .noSuch => some .noSuch
  | .live => none

end Sys2Proof.Machine
end

