-- ==== Sys2Proof/Machine/Answers.lean ====
section
/-! DEFINITION. The requests that only read, with the layouts of their answers (§11.2). -/

namespace Sys2Proof.Machine

/-! ### Positions in the tables that list them (§11.1) -/

def ProbeState.pos : ProbeState → Byte
  | .valid => 0#8
  | .faulted => 1#8

def GuardState.pos : GuardState → Byte
  | .clear => 0#8
  | .half => 1#8
  | .shut => 2#8

def ResState.pos : ResState → Byte
  | .booked => 0#8
  | .covered => 1#8
  | .atRisk => 2#8
  | .served => 3#8
  | .missed => 4#8
  | .withdrawn => 5#8

def LeaseKind.pos : LeaseKind → Byte
  | .solar => 0#8
  | .free => 1#8
  | .topUp => 2#8
  | .sanitise => 3#8
  | .boost => 4#8

def Origin.pos : Origin → Byte
  | .part => 0#8
  | .station => 1#8
  | .host => 2#8

def LeaseState.pos : LeaseState → Byte
  | .offered => 0#8
  | .admitted => 1#8
  | .throttled => 2#8
  | .suspended => 3#8
  | .finishing => 4#8
  | .revoking => 5#8

def LeaseOutcome.pos : LeaseOutcome → Byte
  | .completed => 0#8
  | .expired => 1#8
  | .revoked => 2#8
  | .declined => 3#8
  | .sourceLost => 4#8
  | .sourceEnded => 5#8
  | .ceased => 6#8
  | .satisfiedByFree => 7#8
  | .unneeded => 8#8

def SourceClass.pos : SourceClass → Byte
  | .solarThermal => 0#8
  | .pvSurplus => 1#8
  | .recovered => 2#8
  | .heatPump => 3#8
  | .combustion => 4#8
  | .gridElectric => 5#8

def EntryState.pos : EntryState → Byte
  | .absent => 0#8
  | .identifying => 1#8
  | .qualifying => 2#8
  | .ready => 3#8
  | .barred => 4#8
  | .lost => 5#8

def LoopState.pos : LoopState → Byte
  | .off => 0#8
  | .priming => 1#8
  | .charging => 2#8
  | .regulating => 3#8
  | .stagnant => 4#8
  | .recooling => 5#8
  | .faulted => 6#8

def Valve.pos : Valve → Byte
  | .lower => 0#8
  | .upper => 1#8

/-! ### READ STRATA (R16) -/

/-- A temperature with its probe: the state, the number of readings and three readings oldest first. -/
def probeBytes (temp : Temp) (p : Probe) : List Byte :=
  beSigned temp ++ [p.state.pos, byte p.history.length]
    ++ beSigned (p.history.getD 0 0) ++ beSigned (p.history.getD 1 0) ++ beSigned (p.history.getD 2 0)

def stratumBytes (x : Stratum) : List Byte := probeBytes x.temp x.probe ++ be16 x.volume ++ be16 x.claimed

/-- The 139 field bytes of READ STRATA. -/
def strataBytes (m : StratumMap) : List Byte :=
  m.strata.toList.flatMap stratumBytes ++ probeBytes m.collector.temp m.collector.probe
    ++ probeBytes m.loopReturn.temp m.loopReturn.probe ++ mark m.valid ++ [m.guard.pos] ++ beSigned m.thetaMax
    ++ [byte m.reserveLine] ++ beSigned m.margin

/-- READ_STRATA (R16). -/
def execReadStrata (s : State) : Host.Outcome State Fault Refusal :=
  .next (query 0x0A#8 (fun s => (.ok, strataBytes s.map)) s)

/-! ### The book (R29, R30) -/

/-- A lease handle as a field. -/
def leaseField (h : Handle) : List Byte := [leaseByte h]

def outcomeBytes (o : DueOutcome) : List Byte :=
  [if o.served then ResState.pos .served else ResState.pos .missed] ++ be16 o.shortfall ++ be16 o.day

def oneByte (n : Nat) : List Byte := [byte n]

/-- The record in the order of its table. -/
def recordBytes (h : Handle) (r : Reservation) : List Byte :=
  reservationBytes h ++ be16 r.terms.dueDay ++ be16 r.terms.dueMinute ++ be16 r.terms.volume
    ++ beSigned r.terms.thetaMin ++ be16 r.terms.lead ++ optField 1 oneByte r.terms.repeatDays
    ++ optField 1 oneByte r.terms.preferred ++ [r.state.pos] ++ optField 2 be16 r.figures.covered
    ++ optField 1 oneByte r.figures.depth ++ optField 2 be16 r.figures.shortfall ++ optField 4 be32 r.figures.deficit
    ++ optField 1 mark r.figures.beyond ++ optField 1 mark r.figures.marginMet ++ optField 1 leaseField r.topUp
    ++ optField 5 outcomeBytes r.last

/-- LOOKUP RESERVATION judged (R29). -/
def lookupReservation (h : Handle) (s : State) : Status × List Byte :=
  match (s.resolveReservation h).status, s.record? h.slot with
  | some st, _ => (st, [])
  | none, none => (.noSuch, [])
  | none, some r => (.ok, recordBytes h r)

/-- LOOKUP_RESERVATION (R29). -/
def execLookupReservation (h : Handle) (s : State) : Host.Outcome State Fault Refusal :=
  .next (query 0x14#8 (lookupReservation h) s)

/-- The free slots and the occupied ones in ascending order (R30). -/
def bookBytes (s : State) : List Byte :=
  byte (24 - s.records.length) :: s.records.flatMap fun p => reservationBytes (s.bookHandle p.1) ++ [p.2.state.pos]

/-- LIST_RESERVATIONS (R30). -/
def execListReservations (s : State) : Host.Outcome State Fault Refusal :=
  .next (query 0x15#8 (fun s => (.ok, bookBytes s)) s)

/-! ### The lease table (R85) -/

/-- Half seconds as whole seconds, rounded up (R74). -/
def wholeSeconds (half : Nat) : Nat := (half + 1) / 2

/-- A duration timer as the host reads it. -/
def timerBytes (half : Nat) : List Byte := be16 (wholeSeconds half)

def contextBytes (c : SavedContext) : List Byte :=
  [c.state.pos] ++ be16 c.rate ++ timerBytes (c.timer.getD 0) ++ optField 2 be16 c.hold ++ be32 c.freeMark
    ++ be32 c.deliveredMark

/-- The serve list: the number of handles and eight handles, zero bytes beyond the number. -/
def serveBytes (l : List Handle) : List Byte :=
  byte l.length :: (l.flatMap reservationBytes ++ List.replicate (2 * (8 - l.length)) 0#8)

/-- The place of a handle in the admission order, 1 to 8, or 0. -/
def placeIn (h : Handle) (order : List Handle) : Nat :=
  match order.findIdx? (· == h) with
  | none => 0
  | some k => k + 1

/-- The lease record in the order of its table, and its place in the admission order. -/
def leaseBytes (s : State) (h : Handle) (l : Lease) : List Byte :=
  [leaseByte h, l.kind.pos, l.origin.pos, byte l.holder, l.state.pos, byte l.inlet] ++ beSigned l.ceiling
    ++ be16 l.entitlement ++ be16 l.granted ++ optField 4 be32 l.budget ++ be32 l.delivered ++ optField 2 be16 l.limit
    ++ optField 2 timerBytes l.timer ++ optField 2 be16 l.hold ++ optField 16 contextBytes l.saved
    ++ optField 17 serveBytes (if l.kind = .topUp then some l.serve else none) ++ optField 1 oneByte l.handovers
    ++ optField 1 (fun o => [LeaseOutcome.pos o]) l.reason ++ optField 2 be16 l.revokeTime
    ++ oneByte (placeIn h s.admission.order)

/-- LOOKUP LEASE judged (R85). -/
def lookupLease (h : Handle) (s : State) : Status × List Byte :=
  match (s.resolveLease h).status, s.lease? h.slot with
  | some st, _ => (st, [])
  | none, none => (.noSuch, [])
  | none, some l => (.ok, leaseBytes s h l)

/-- LOOKUP_LEASE (R85). -/
def execLookupLease (h : Handle) (s : State) : Host.Outcome State Fault Refusal :=
  .next (query 0x1A#8 (lookupLease h) s)

/-- The occupied lease slots, ascending, with their leases. -/
def State.liveLeases (s : State) : List (Nat × Lease) := upTo8.filterMap fun n => (s.lease? n).map fun l => (n, l)

/-- The free slots and the occupied ones in ascending order (R85). -/
def tableBytes (s : State) : List Byte :=
  byte (8 - s.liveLeases.length) ::
    s.liveLeases.flatMap fun p => [leaseByte (s.leaseHandle p.1), p.2.kind.pos, byte p.2.holder, p.2.state.pos]

/-- LIST_LEASES (R85). -/
def execListLeases (s : State) : Host.Outcome State Fault Refusal :=
  .next (query 0x1B#8 (fun s => (.ok, tableBytes s)) s)

/-! ### READ STATION (R134) -/

/-- A field that entries 1 to 7 have and entry 0 lacks. -/
def forLink {α : Type} (i : Nat) (x : α) : Option α := if i = 0 then none else some x

/-- A field that bought entries have. -/
def forBought {α : Type} (e : Entry) (x : Option α) : Option α := if e.cls.isBought then x else none

def lastLeaseBytes (r : LeaseRecord) : List Byte :=
  [leaseByte r.handle, r.kind.pos, r.outcome.pos] ++ be32 r.delivered

/-- The declared cap; entry 0 shows the solar rating (R119). -/
def State.declaredCap (s : State) (i : Nat) : Nat := if i = 0 then s.admission.rating else (s.entry i).declared

/-- The entry in the order of its table (§7.1). -/
def entryBytes (s : State) (i : Nat) (e : Entry) : List Byte :=
  optField 1 oneByte (forLink i e.address) ++ optField 1 oneByte e.partner ++ optField 1 mark (forLink i e.baseMark)
    ++ optField 4 be32 (forLink i e.serial) ++ [e.cls.pos, byte (s.entryInlet i)] ++ be16 (s.declaredCap i)
    ++ optField 2 be16 e.hostCap ++ optField 2 be16 e.learned ++ be16 (s.effectiveCap i) ++ [e.state.pos]
    ++ optField 1 oneByte (forBought e (some e.failures)) ++ optField 2 be16 e.retry ++ optField 2 be16 e.cooldown
    ++ optField 1 oneByte (forBought e e.rank) ++ optField 1 oneByte (forLink i e.missed)
    ++ optField 7 lastLeaseBytes e.last ++ be32 e.lifetime

def trialBytes (t : Trial) : List Byte := be16 t.rate ++ be32 t.energy ++ optField 2 be16 t.window

def statusBytes (r : StatusRecord) : List Byte :=
  [r.flags] ++ be16 r.day ++ be16 r.minute ++ [byte r.second]

/-- What stands beside the entry's fields: the trial, the lease handle, the latest STATUS and the supply temperature. -/
def besideBytes (s : State) (i : Nat) : List Byte :=
  optField 9 trialBytes (s.roster.trial.filter fun t => t.entry == i) ++ [leaseByteOpt (s.handleHeldBy i)]
    ++ optField 6 statusBytes (s.station i).status ++ optField 2 beSigned (s.station i).supply

/-- READ STATION judged (R134). -/
def readStation (i : Nat) (s : State) : Status × List Byte :=
  if 7 < i then (.badField, [])
  else if (s.entry i).state = .absent then (.ok, [EntryState.pos .absent])
  else (.ok, entryBytes s i (s.entry i) ++ besideBytes s i)

/-- READ_STATION (R134). -/
def execReadStation (index : Nat) (s : State) : Host.Outcome State Fault Refusal :=
  .next (query 0x20#8 (readStation index) s)

/-! ### READ SOLAR, READ SCHEDULE, READ CLOCK, IDENTIFY PART -/

/-- The target mark: absent 0, fixed 1, automatic 2 (§11.2); absent outside CHARGING and REGULATING also where the host has
given a fixed target (log entry 54). -/
def targetMark (v : Solar) : Byte :=
  if v.target.isNone then 0#8 else if v.params.fixedTarget.isSome then 1#8 else 2#8

/-- READ SOLAR's fields (§11.2). -/
def solarBytes (s : State) : List Byte :=
  [s.solar.state.pos, byte s.solar.pump, s.solar.valve.pos, byte s.solar.inlet, byte s.solar.inlet, targetMark s.solar]
    ++ beSigned (s.solar.target.getD 0) ++ optField 2 be16 s.solar.prime ++ optField 2 be16 s.solar.step
    ++ optField 2 be16 s.solar.stop ++ optField 2 be16 s.solar.remeasure ++ optField 2 be16 s.solar.spacing
    ++ be32 s.solar.remainder ++ optField 2 beSigned s.solar.stopPoint ++ [leaseByteOpt (s.handleHeldBy 0)]

/-- READ_SOLAR (R166). -/
def execReadSolar (s : State) : Host.Outcome State Fault Refusal :=
  .next (query 0x28#8 (fun s => (.ok, solarBytes s)) s)

/-- READ SCHEDULE's fields (R146). -/
def scheduleBytes (s : State) : List Byte := s.link.schedule.toList.map byte ++ [byte s.link.cursor]

/-- READ_SCHEDULE (R146). -/
def execReadSchedule (s : State) : Host.Outcome State Fault Refusal :=
  .next (query 0x27#8 (fun s => (.ok, scheduleBytes s)) s)

/-- READ CLOCK's fields (R167). -/
def clockBytes (c : Clock) : List Byte := be16 c.day ++ be16 c.minute ++ [byte c.second] ++ mark c.set

/-- READ_CLOCK (R167). -/
def execReadClock (s : State) : Host.Outcome State Fault Refusal :=
  .next (query 0x03#8 (fun s => (.ok, clockBytes s.clock)) s)

/-- IDENTIFY_PART (§11.2): family code 0x0608, revision 1. -/
def execIdentifyPart (s : State) : Host.Outcome State Fault Refusal :=
  .next (query 0x01#8 (fun _ => (.ok, be16 0x0608 ++ [1#8])) s)

/-! ### READ PARAMETER -/

/-- On and off as a value (§11.2). -/
def onOffValue (b : Bool) : Int := if b then 1 else 0

/-- The value of a parameter by its number; absent where no parameter has it (§11.2). -/
def State.parameter? (s : State) (number : Nat) : Option Int :=
  let p := s.solar.params
  match number with
  | 1 | 2 | 3 | 4 | 5 | 6 | 7 | 8 => some (s.stratum number).volume
  | 9 => some s.map.thetaMax
  | 10 => some s.map.reserveLine
  | 11 => some s.map.margin
  | 16 => some s.admission.topUpLimit
  | 17 => some s.admission.finishHold
  | 18 => some (onOffValue s.admission.halfRate)
  | 19 => some (s.admission.siteBudget / 100 : Nat)
  | 20 => some (s.admission.rating / 100 : Nat)
  | 21 => some (onOffValue s.roster.autoCap)
  | 32 => some p.startDiff
  | 33 => some p.stopDiff
  | 34 => some p.primeTime
  | 35 => some p.minSpeed
  | 36 => some (p.fixedTarget.getD 0)
  | 37 => some p.stagnation
  | 38 => some p.releaseTemp
  | 39 => some p.upperInlet
  | 40 => some p.litresPerPulse
  | 41 => some (onOffValue p.recooling)
  | 42 => some p.windowStart
  | 43 => some p.windowEnd
  | 48 => some ((s.sanitise.interval.getD 0 : Nat) : Int)
  | 49 => some s.sanitise.temp
  | 50 => some s.sanitise.hold
  | 51 => some s.sanitise.floor
  | 52 => some s.sanitise.startMinute
  | 53 => some s.sanitise.limit
  | _ => none

/-- READ PARAMETER judged (§11.2). -/
def readParameter (number : Nat) (s : State) : Status × List Byte :=
  match s.parameter? number with
  | none => (.badField, [])
  | some v => (.ok, beSigned v)

/-- READ_PARAMETER (R11, §11.2). -/
def execReadParameter (number : Nat) (s : State) : Host.Outcome State Fault Refusal :=
  .next (query 0x09#8 (readParameter number) s)

end Sys2Proof.Machine
end

