-- ==== Sys2Proof/Machine/Frames.lean ====
section
/-! DEFINITION. The frames of the Source Link: a command's bytes, and a station's answer read from its bytes (R136,
§8.2). -/

namespace Sys2Proof.Machine

/-- The code of a command (§8.2). -/
def LinkCmd.code : LinkCmd → Byte
  | .identify => 0x01#8
  | .poll => 0x02#8
  | .grant _ _ _ _ _ => 0x10#8
  | .amend _ _ _ => 0x11#8
  | .setRate _ _ => 0x12#8
  | .suspend _ => 0x13#8
  | .resume _ _ => 0x14#8
  | .revoke _ => 0x15#8
  | .qualify _ => 0x18#8
  | .refuse _ => 0x19#8
  | .linkClear => 0x3E#8
  | .allStop => 0x3F#8

/-- The code of a lease kind on the link (§8.2); a SOLAR lease is never granted. -/
def LeaseKind.linkCode : LeaseKind → Byte
  | .topUp => 1#8
  | .sanitise => 2#8
  | .boost => 3#8
  | .free => 4#8
  | .solar => 0#8

/-- The code of a refusal's reason (§8.2). -/
def RefuseReason.code : RefuseReason → Byte
  | .halted => 1#8
  | .mapInvalid => 2#8
  | .notReady => 3#8
  | .boughtSource => 4#8
  | .holdsLease => 5#8

/-- A rate byte: a count of 100 W (§8.2). -/
def rateByte (w : Nat) : Byte := byte (w / 100)

/-- A budget, where the lease has one (§8.2). -/
def budgetBytes : Option Nat → List Byte
  | none => []
  | some b => be32 b

/-- The window of a QUALIFY: 300 s for a trial (R124); a free value for a QUALIFY of 0 (log entry 2). -/
def qualifyWindow (moment rate : Nat) : Nat :=
  if rate = 0 then (Config.stopQualifyWindow moment).toNat else Config.trialWindow

/-- The payload of a command sent at a moment, which a free value alone reads (§8.2). -/
def LinkCmd.payload (moment : Nat) : LinkCmd → List Byte
  | .identify | .poll | .linkClear | .allStop => []
  | .grant h k r c b => [leaseByte h, k.linkCode, rateByte r] ++ beSigned c ++ budgetBytes b
  | .amend h c b => leaseByte h :: (beSigned c ++ budgetBytes b)
  | .setRate h r => [leaseByte h, rateByte r]
  | .suspend h => [leaseByte h]
  | .resume h r => [leaseByte h, rateByte r]
  | .revoke h => [leaseByte h]
  | .qualify r => rateByte r :: be16 (qualifyWindow moment r)
  | .refuse r => [r.code]

/-- The frame of a command sent to an address at a moment (R136, §8.2). -/
def commandFrame (moment addr : Nat) (c : LinkCmd) : List Byte :=
  let payload := c.payload moment
  sealed ([byte (0xA0 + addr), c.code, byte payload.length] ++ payload)

/-- A station's answer. -/
inductive LinkAnswer where
  | identity (d : Identity)
  | status (flags : Byte) (handle : Option Handle) (item : Option Item)
  | accept (h : Handle)
  | decline (h : Handle)
  | ack (kind : Byte)
deriving DecidableEq, Repr

/-- The item of a STATUS, by its code and fields (§8.2); absent where the code is none of the table's or its fields are
not of its item's length (log entry 31). -/
def itemOfBytes : List Byte → Option Item
  | [0x01#8, a, b] => some (.request (word16 a b))
  | [0x02#8, a, b] => some (.change (word16 a b))
  | [0x03#8, a, b, c, d, m] => some (.report (word16 a b) (signed16 c d) (m != 0#8))
  | [0x04#8, h, a, b] => some (.retire (leaseOfByte h) (word16 a b))
  | [0x05#8, h, a, b] => some (.confirm (leaseOfByte h) (word16 a b))
  | _ => none

/-- An IDENTITY's payload (§8.2). -/
def identityOfBytes : List Byte → Option LinkAnswer
  | [g1, g2, n1, n2, n3, n4, c, i, p1, p2, m] =>
    some <| .identity
      { signature := word16 g1 g2, serial := word32 n1 n2 n3 n4, classCode := c.toNat, inlet := i.toNat
        cap := word16 p1 p2, dual := m != 0#8 }
  | _ => none

/-- A STATUS's payload: flags, handle, and an item if one is carried. Its length alone makes it well formed (R136,
§8.2); an item of no known kind has no owner and is set aside (log entry 31). -/
def statusOfBytes : List Byte → Option LinkAnswer
  | f :: h :: item =>
    if item.length ∈ [0, 3, 4, 6] then some (.status f (leaseOfByteOpt h) (itemOfBytes item)) else none
  | _ => none

/-- An answer's payload, by its kind (§8.2). -/
def answerOfPayload (kind : Byte) (payload : List Byte) : Option LinkAnswer :=
  if kind = 0x81#8 then identityOfBytes payload
  else if kind = 0x82#8 then statusOfBytes payload
  else
    match payload with
    | [b] =>
      if kind = 0x90#8 then some (.accept (leaseOfByte b))
      else if kind = 0x91#8 then some (.decline (leaseOfByte b))
      else if kind = 0x8F#8 then some (.ack b)
      else none
    | _ => none

/-- The bytes end in the CRC of those before. -/
def sealOk (bytes : List Byte) : Bool := bytes.getLast? == some (crc8 bytes.dropLast)

/-- A well-formed answer frame with the address in its mark byte; absent where the frame is partial or not well formed
(R136). -/
def answerOfBytes (bytes : List Byte) : Option (Nat × LinkAnswer) :=
  match bytes with
  | m :: kind :: len :: rest =>
    if 0x41 ≤ m.toNat ∧ m.toNat ≤ 0x5E ∧ rest.length = len.toNat + 1 ∧ len.toNat ≤ 24 ∧ sealOk bytes = true then
      (answerOfPayload kind rest.dropLast).map fun a => (m.toNat - 0x40, a)
    else none
  | _ => none

/-- The answers a command allows (R137). -/
def LinkCmd.allows (c : LinkCmd) (a : LinkAnswer) : Bool :=
  match c, a with
  | .identify, .identity _ => true
  | .poll, .status _ _ _ => true
  | .grant h _ _ _ _, .accept h' => h' == h
  | .grant h _ _ _ _, .decline h' => h' == h
  | .amend _ _ _, .ack k | .setRate _ _, .ack k | .suspend _, .ack k | .resume _ _, .ack k | .revoke _, .ack k
  | .qualify _, .ack k | .refuse _, .ack k => k == c.code
  | _, _ => false

end Sys2Proof.Machine
end

