-- ==== Sys2Proof/Machine/Trial.lean ====
section
/-! DEFINITION. Qualification trials: the attempt, a trial's report, its success and its failure (§7.4). -/

namespace Sys2Proof.Machine

/-- The inlet stratum of an entry stands below θmax less 3.0 K (R124). -/
def State.coolEnoughToTry (s : State) (i : Nat) : Bool := decide (s.temp (s.entryInlet i) < s.map.thetaMax - 30)

/-- An entry for which a trial may start (R124). -/
def State.mayTry (s : State) (i : Nat) : Bool :=
  (s.entry i).state == .qualifying && (s.entry i).retry.isNone && s.map.valid && !s.admission.halted
    && s.coolEnoughToTry i && (!(s.entry i).cls.drawsBudget || decide (s.effectiveCap i ≤ s.unallocated))

/-- A trial starts at the entry's effective cap, and its QUALIFY is queued (R124). -/
def startTrial (i : Nat) (s : State) : State :=
  place i (.qualify (s.effectiveCap i)) <|
    s.modRoster fun r =>
      { r with trial := some { entry := i, rate := s.effectiveCap i, energy := 0, window := none } }

/-- An attempt to start a trial, for the first entry in ascending index that may have one (R124). -/
def tryTrial (s : State) : State :=
  match s.roster.trial with
  | some _ => s
  | none =>
    match stationIndexes.find? s.mayTry with
    | none => s
    | some i => startTrial i s

/-- A trial succeeds: the entry is READY with its learned cap at its declared cap, a QUALIFY of 0 is queued, and the
next trial is tried (R125). -/
def succeedTrial (i : Nat) (s : State) : State :=
  let s1 := s.modRoster fun r => { r with trial := none }
  let s2 := s1.modEntry i fun e => { e with state := .ready, failures := 0, learned := some e.declared }
  let s3 := settle s (place i (.qualify 0) s2)
  tryTrial (noteEligible s s3)

/-- A REPORT that belongs to the running trial (R125). -/
def reportToTrial (t : Trial) (energy : Nat) (s : State) : State :=
  let s1 := s.modEntry t.entry fun e => { e with lifetime := wrapAdd32 e.lifetime energy }
  let total := t.energy + energy
  if Config.trialEnergy ≤ total then succeedTrial t.entry s1
  else s1.modRoster fun r => { r with trial := some { t with energy := total } }

/-- The count of a failure: the retry timer, or at the seventh the bar (R125). -/
def countFailure (i : Nat) (s : State) : State :=
  let failures := (s.entry i).failures + 1
  if failures < Config.barringFailures then
    s.modEntry i fun e => { e with failures := failures, retry := some Config.retryTime }
  else (s.modEntry i fun e => { e with failures := failures, state := .barred, retry := none }).raise .stationBarred

/-- A trial's window ends short of 50 Wh: the failure is counted, the allocation given out, and the next trial tried
(R125). -/
def failTrial (t : Trial) (s : State) : State :=
  tryTrial (settle s (countFailure t.entry (s.modRoster fun r => { r with trial := none })))

/-- A sweep-complete calls off a trial whose entry's inlet stratum has reached θmax less 3.0 K (R126). -/
def callOffHotTrial (s : State) : State :=
  if s.roster.trial.any fun t => !s.coolEnoughToTry t.entry then callOffTrial s else s

end Sys2Proof.Machine
end

