-- ==== Sys2Proof/Machine/Loss.lean ====
section
/-! DEFINITION. Missed exchanges, the loss of a station, and the identity that fills or returns an entry (§7.5, §7.6). -/

namespace Sys2Proof.Machine

/-! ### Loss (R128) -/

/-- The states from which an entry may be lost. -/
def EntryState.isHeard : EntryState → Bool
  | .identifying | .qualifying | .ready | .barred => true
  | .absent | .lost => false

/-- The entries that become LOST with entry `i`: itself and its partner, those not LOST already, ascending (R128). -/
def State.lostWith (s : State) (i : Nat) : List Nat :=
  stationIndexes.filter fun j => (j == i || (s.entry i).partner == some j) && (s.entry j).state.isHeard

/-- An entry marked LOST: its retry timer is dropped, its queue emptied and its trial stopped (R126, R128, R144).
Its missed exchanges and its learned cap stay as they stand (log entries 35, 36). -/
def markLost (s : State) (i : Nat) : State :=
  stopTrialOf i (emptyQueue i (s.modEntry i fun e => { e with state := .lost, retry := none }))

/-- The entry was READY and of the bought group in an earlier state (R128 step 5, R132). -/
def State.wasReadyBought (before : State) (i : Nat) : Bool :=
  (before.entry i).state == .ready && (before.entry i).cls.isBought

/-- A pass start for each entry that was READY and bought in an earlier state (R128 step 5, R132). -/
def startForLost (before : State) (s : State) (i : Nat) : State :=
  if before.wasReadyBought i then passStart s else s

/-- The leases of lost entries are dealt with in ascending index, and then the arbiter gives out what they released and
the new holders are granted theirs (R105, R112, R113, R128). -/
def dealWithLeases (lost : List Nat) (s : State) : State :=
  let s1 := lost.foldl dealWithLost s
  upTo8.foldl (announceHandover s) (resettle s1 s1)

/-- Entries become LOST: all are marked before any lease is dealt with (R128). -/
def loseEntries (lost : List Nat) (s : State) : State :=
  if lost.isEmpty then s
  else lost.foldl (startForLost s) ((dealWithLeases lost (lost.foldl markLost s)).raise .stationLost)

/-- A missed exchange of entry `i`: counted to no more than 3, and at 3 the entry is LOST (R128, R137). -/
def countMiss (i : Nat) (s : State) : State :=
  let missed := min 3 ((s.entry i).missed + 1)
  let s1 := s.modEntry i fun e => { e with missed := missed }
  if missed = 3 ∧ (s.entry i).state.isHeard = true then loseEntries (s1.lostWith i) s1 else s1

/-- A good exchange of entry `i` (R137). -/
def countGood (i : Nat) (s : State) : State := s.modEntry i fun e => { e with missed := 0 }

/-! ### Identities (R122) -/

/-- The class that an identity's code names (§8.2). -/
def classOfCode : Nat → Option SourceClass
  | 1 => some .pvSurplus
  | 2 => some .recovered
  | 3 => some .heatPump
  | 4 => some .combustion
  | 5 => some .gridElectric
  | _ => none

/-- The class of a sound identity; absent where it is not sound (R122). -/
def soundClass (d : Identity) : Option SourceClass :=
  if d.signature = 0xD64E ∧ 1 ≤ d.inlet ∧ d.inlet ≤ 8 ∧ 100 ≤ d.cap ∧ d.cap ≤ Config.maxRate then classOfCode d.classCode
  else none

/-- An entry as a sound identity creates it (R122). -/
def Entry.found (addr : Nat) (cls : SourceClass) (d : Identity) : Entry :=
  { Entry.absent with
    state := .identifying, address := addr, serial := d.serial, cls := cls, inlet := d.inlet, declared := floor100 d.cap
    rank := cls.defaultRank }

/-- One bad identity is counted (R122, R129). -/
def countBadIdentity (s : State) : State := s.modLink fun k => { k with badIdentities := satInc k.badIdentities }

/-- The base at the address below that awaits a partner of this serial (R131). -/
def State.baseBelow (s : State) (addr serial : Nat) : Option Nat :=
  if addr % 2 = 1 ∧ 3 ≤ addr ∧ addr ≤ 29 then
    (s.indexAt (addr - 1)).filter fun j => (s.entry j).baseMark && (s.entry j).serial == serial
  else none

/-- Two entries are paired, and the base's mark is cleared (R131). -/
def pairEntries (base partner : Nat) (s : State) : State :=
  (s.modEntry base fun e => { e with partner := some partner, baseMark := false }).modEntry partner fun e =>
    { e with partner := some base }

/-- The entry is paired with a base below it that awaits it, where there is one (R131). -/
def pairIfBase (i addr : Nat) (d : Identity) (s : State) : State :=
  if d.dual then
    match s.baseBelow addr d.serial with
    | some j => pairEntries j i s
    | none => s
  else s

/-- The dual mark of an identity that created or re-identified entry `i` (R131). The mark from the address above a base of
another serial is refused with DUAL_REFUSED (log entry 50). -/
def takeDualMark (i addr : Nat) (d : Identity) (s : State) : State :=
  if d.dual then
    if addr % 2 = 0 ∧ 2 ≤ addr ∧ addr ≤ 28 then s.modEntry i fun e => { e with baseMark := true }
    else
      match s.baseBelow addr d.serial with
      | some j => pairEntries j i s
      | none => s.raise .dualRefused
  else s

/-- Entry `i` filled from a sound identity (R122, R130). -/
def fillEntry (i addr : Nat) (cls : SourceClass) (d : Identity) (s : State) : State :=
  takeDualMark i addr d ((s.setEntry i (Entry.found addr cls d)).raise .stationAdded)

/-- The lowest-numbered ABSENT entry (R122). -/
def State.freeEntry (s : State) : Option Nat := stationIndexes.find? fun i => (s.entry i).state == .absent

/-- A sound identity from an address that no entry holds (R122). -/
def createEntry (addr : Nat) (cls : SourceClass) (d : Identity) (s : State) : State :=
  match s.freeEntry with
  | none => s.raise .rosterFull
  | some i => fillEntry i addr cls d s

/-- The rank of a re-attached entry: its own, or the class default where the class moved into the bought group
(R129). -/
def rankAfter (e : Entry) (cls : SourceClass) : Option Nat :=
  if cls.isBought then (if e.cls.isBought then e.rank else cls.defaultRank) else e.rank

/-- The entry a re-attachment leaves (R129). -/
def Entry.reattached (e : Entry) (cls : SourceClass) (d : Identity) : Entry :=
  { e with
    state := if cls.isBought then .qualifying else .ready, cls := cls, inlet := d.inlet, declared := floor100 d.cap
    missed := 0, failures := 0, retry := none, learned := none, rank := rankAfter e cls
    baseMark := e.baseMark && d.dual }

/-- A LOST entry returns with its own serial; one that enters QUALIFYING has a trial tried (R124, R129). -/
def reattach (i addr : Nat) (cls : SourceClass) (d : Identity) (s : State) : State :=
  let s1 := (pairIfBase i addr d (s.modEntry i fun e => e.reattached cls d)).raise .stationAdded
  if cls.isBought then tryTrial s1 else s1

/-- The pair of entry `i`, if it has one, is dissolved (R131). -/
def dissolvePair (i : Nat) (s : State) : State :=
  match (s.entry i).partner with
  | none => s
  | some j =>
    (s.modEntry i fun e => { e with partner := none }).modEntry j fun e => { e with partner := none }

/-- A different station at a held address (R130): the entry is lost with all its consequences, then filled afresh. -/
def reidentify (i addr : Nat) (cls : SourceClass) (d : Identity) (s : State) : State :=
  let s1 := (loseEntries (s.lostWith i) s).raise .stationLost
  let s2 := (dissolvePair i s1).modStation i fun _ => .initial
  fillEntry i addr cls d s2

/-- A sound IDENTITY from an entry that is not LOST with its own serial (R129); a base below that awaits it is paired
(R131; log entry 18). -/
def confirmIdentity (i addr : Nat) (d : Identity) (s : State) : State := pairIfBase i addr d (countGood i s)

/-- An IDENTITY is judged and filed (R122, R129, R130, R131). -/
def takeIdentity (addr : Nat) (d : Identity) (s : State) : State :=
  match s.indexAt addr, soundClass d with
  | none, none => countBadIdentity s
  | none, some cls => createEntry addr cls d s
  | some i, none => if (s.entry i).state = .lost then countBadIdentity s else s
  | some i, some cls =>
    if (s.entry i).serial ≠ d.serial then reidentify i addr cls d s
    else if (s.entry i).state = .lost then reattach i addr cls d s
    else confirmIdentity i addr d s

/-! ### Forgetting (R132) -/

/-- The entries that FORGET of entry `i` forgets: itself and its partner. -/
def State.forgottenWith (s : State) (i : Nat) : List Nat :=
  stationIndexes.filter fun j => j == i || (s.entry i).partner == some j

/-- One entry forgotten: ABSENT, every field cleared, its queue and its schedule slots emptied, its trial called off
(R126, R132, R144, R146). -/
def forgetEntry (s : State) (i : Nat) : State :=
  let s1 := (s.setEntry i .absent).modStation i fun _ => .initial
  callOffTrialOf i <|
    s1.modLink fun k => { k with schedule := k.schedule.map fun x => if x = i then 0 else x }

/-- Entries forgotten together (R132). -/
def forgetEntries (l : List Nat) (s : State) : State := l.foldl (startForLost s) (l.foldl forgetEntry s)

/-! ### Learned caps (R100) -/

/-- The step by which a learned cap falls: 5 % of the declared cap, rounded down to 100 W, and at least 100 W. -/
def learnedStep (declared : Nat) : Nat := max 100 (floor100 (declared * 5 / 100))

/-- A learned cap one step lower, but no lower than 500 W or the declared cap where that is lower. -/
def stepDown (declared learned : Nat) : Nat := max (learned - learnedStep declared) (min 500 declared)

/-- A learned-cap step is taken for entry `i`, and its lease's entitlement and rate follow (R87, R90, R100). -/
def takeLearnedStep (i : Nat) (s : State) : State :=
  settling (fun t => t.modEntry i fun e => { e with learned := e.learned.map (stepDown e.declared) }) s

/-- The limited bit of a REPORT credited to the bought lease in slot `n` while it is ADMITTED or THROTTLED (R100). -/
def noteLimited (n : Nat) (limited : Bool) (s : State) : State :=
  match s.lease? n with
  | none => s
  | some l =>
    if l.kind.isBought && l.state.isRunning then
      if limited then
        if l.limitMark then s
        else
          takeLearnedStep l.holder <|
            s.modLease n fun l => { l with limitMark := true, stepTimer := some Config.learnStepTime }
      else s.modLease n fun l => { l with limitMark := false, stepTimer := none }
    else s

end Sys2Proof.Machine
end

