-- ==== Sys2Proof/Machine/Arbiter.lean ====
section
/-! DEFINITION. The link's arbiter: the choice of the next exchange, the roll call, enumeration, discovery and the poll
schedule (§8.5 to §8.9). -/

namespace Sys2Proof.Machine

/-- The address of all stations (R137). -/
def allStations : Nat := 31

/-! ### Beginning an exchange (R137) -/

/-- A GRANT as it is sent: with the granted rate its lease has when the exchange begins (R93). -/
def State.refreshed (s : State) (c : LinkCmd) : LinkCmd :=
  match c with
  | .grant h k r ceiling budget => .grant h k (((s.leaseOf? h).map (·.granted)).getD r) ceiling budget
  | _ => c

/-- A GRANT counts as sent once an exchange that carries it has begun (R70). -/
def markSent (c : LinkCmd) (s : State) : State :=
  match c with
  | .grant h _ _ _ _ => if (s.leaseOf? h).isSome then s.modLease h.slot fun l => { l with grantSent := true } else s
  | _ => s

/-- An exchange begun: its frame stands on the wire (R136, R137). -/
def beginExchange (addr : Nat) (c : LinkCmd) (source : Source) (bore : Bool) (s : State) : State :=
  let c1 := s.refreshed c
  markSent c1 <|
    s.modLink fun k =>
      { k with
        exchange := some { addr := addr, cmd := c1, source := source, bore := bore, overtaken := false }
        frame := commandFrame s.moment addr c1 }

/-- The command at a place of the queue of entry `i` is sent; while its exchange is in flight it holds no place
(R142). -/
def sendQueued (i place : Nat) (s : State) : State :=
  match (s.station i).queue[place]? with
  | none => s
  | some x =>
    beginExchange (s.entry i).address x.cmd (.queue place x.age) (s.bears i x.cmd) <|
      s.modStation i fun t => { t with queue := t.queue.eraseIdx place }

/-- A command of the arbiter's own to entry `i`. -/
def sendOwn (i : Nat) (c : LinkCmd) (source : Source) (s : State) : State :=
  beginExchange (s.entry i).address c source false s

/-! ### Step 1: broadcasts (R145, R150, R151) -/

/-- The pending broadcast that goes out, the ALL STOP first; a LINK CLEAR ends a roll call without counting (R147). -/
def sendBroadcast (s : State) : Option State :=
  if s.link.allStop then
    some (beginExchange allStations .allStop .broadcast false (s.modLink fun k => { k with allStop := false }))
  else if s.link.linkClear then
    some (beginExchange allStations .linkClear .broadcast false
      (s.modLink fun k => { k with linkClear := false, roll := none }))
  else none

/-! ### Step 2: urgent commands (R145) -/

/-- An urgent command that waits: its age, its entry and its place. -/
structure Urgent where
  age : Nat
  entry : Nat
  place : Nat
deriving DecidableEq, Repr

/-- The urgent commands of one queue, from its head. -/
def State.urgentOf (s : State) (i : Nat) : List Urgent :=
  ((s.station i).queue.zipIdx.filter fun p => p.1.cmd.isUrgent).map fun p =>
    { age := p.1.age, entry := i, place := p.2 }

/-- The urgent command taken: the lowest age, then the lowest index, then the one nearer the head. -/
def State.nextUrgent (s : State) : Option Urgent :=
  (sortBy (·.age) (stationIndexes.flatMap s.urgentOf)).head?

/-! ### Step 3: the roll call (R147) -/

/-- The next entry of a roll call after its cursor. -/
def State.nextInRoll (s : State) (cursor : Nat) : Option Nat :=
  stationIndexes.find? fun i => decide (cursor < i) && (s.entry i).state.isHeard

/-- A roll call ends as stuck: counted, and the line is ignored for 10 s. -/
def endStuck (s : State) : State :=
  s.modLink fun k => { k with roll := none, stuckCalls := satInc k.stuckCalls, ignoring := some Config.ignoreTime }

/-- A roll call ends because the line was released; a ghost call is counted where the heard mark is clear. -/
def endReleased (r : RollCall) (s : State) : State :=
  s.modLink fun k =>
    { k with roll := none, ghostCalls := if r.heard then k.ghostCalls else satInc k.ghostCalls }

/-- The line is examined at a decision while a roll call is in progress (R147). -/
def examineLine (s : State) : State :=
  match s.link.roll with
  | none => s
  | some r =>
    if s.link.callLow = false then endReleased r s
    else if (s.nextInRoll r.cursor).isNone then endStuck s
    else s

/-- A roll call begins at a decision where the line is low, none is in progress and it is not ignored. -/
def beginRoll (s : State) : State :=
  if s.link.callLow = true ∧ s.link.roll = none ∧ s.link.ignoring = none then
    if (s.nextInRoll 0).isNone then endStuck s
    else s.modLink fun k => { k with roll := some { cursor := 0, heard := false } }
  else s

/-- The next POLL of the roll call in progress. -/
def pollNext (s : State) : Option State :=
  match s.link.roll with
  | none => none
  | some r =>
    (s.nextInRoll r.cursor).map fun i =>
      sendOwn i .poll .rollCall (s.modLink fun k => { k with roll := some { r with cursor := i } })

/-! ### Step 4: enumeration and discovery (R148, R149) -/

/-- The addresses from a cursor, wrapping from 30 to 1. -/
def addressesFrom (cursor : Nat) : List Nat := (List.range 30).map fun k => (cursor - 1 + k) % 30 + 1

/-- The first address at or after the cursor that no entry holds (R148). -/
def State.probeAddress (s : State) : Option Nat :=
  (addressesFrom s.link.discoveryCursor).find? fun a => (s.indexAt a).isNone

/-- A discovery probe sent to an address: the cursor moves behind it and the timer restarts (R148). -/
def sendProbe (addr : Nat) (s : State) : State :=
  beginExchange addr .identify .discovery false <|
    s.modLink fun k => { k with discoveryCursor := addr % 30 + 1, discoveryTimer := some Config.discoveryTime }

/-- A second probe for a base's partner, while no entry holds its address (R148; log entry 38). -/
def State.pairAddress (s : State) : Option Nat := s.link.pairProbe.filter fun a => (s.indexAt a).isNone

/-- The IDENTIFY of step 4, if there is one (R145). -/
def sendIdentify (s : State) : Option State :=
  match s.link.enumeration with
  | .running addr =>
    some (beginExchange addr .identify .enumeration false
      (s.modLink fun k => { k with enumeration := .running (addr + 1) }))
  | .idle | .due =>
    match s.pairAddress with
    | some a => some (sendProbe a (s.modLink fun k => { k with pairProbe := none }))
    | none =>
      if s.link.probeDue then
        s.probeAddress.map fun a => sendProbe a (s.modLink fun k => { k with probeDue := false })
      else none

/-! ### Step 5: the schedule (R146) -/

/-- The slots from a cursor, wrapping from 32 to 1. -/
def slotsFrom (cursor : Nat) : List Nat := (List.range 32).map fun k => (cursor - 1 + k) % 32 + 1

/-- The index in slot `k` of the schedule; 0 is empty. -/
def State.slotIndex (s : State) (k : Nat) : Nat := tget s.link.schedule (k - 1) 0

/-- An entry that a slot may serve. -/
def State.isPresent (s : State) (i : Nat) : Bool := decide (1 ≤ i) && (s.entry i).state != .absent

/-- The first slot from the cursor that holds an index whose entry is not ABSENT. -/
def State.nextSlot (s : State) : Option Nat :=
  (slotsFrom s.link.cursor).find? fun k => s.isPresent (s.slotIndex k)

/-- The lowest-indexed entry that is not ABSENT, that no slot names and that has a command waiting. -/
def State.unscheduled (s : State) : Option Nat :=
  stationIndexes.find? fun i =>
    s.isPresent i && !(s.link.schedule.toList.contains i) && !(s.station i).queue.isEmpty

/-- An entry served at its slot: the head of its queue, else a POLL, or an IDENTIFY to a LOST one. -/
def serveEntry (i : Nat) (s : State) : State :=
  if (s.station i).queue.isEmpty then
    if (s.entry i).state = .lost then sendOwn i .identify .schedule s else sendOwn i .poll .schedule s
  else sendQueued i 0 s

/-- A slot visited: the cursor moves to the slot after it (R146). -/
def serveSlot (k : Nat) (s : State) : State :=
  serveEntry (s.slotIndex k) (s.modLink fun l => { l with cursor := k % 32 + 1 })

/-- Step 5 of a decision (R146). -/
def serveSchedule (s : State) : State :=
  match s.nextSlot, s.unscheduled with
  | none, some i => sendQueued i 0 s
  | none, none => s
  | some k, some i => if s.link.cursor = 1 then sendQueued i 0 s else serveSlot k s
  | some k, none => serveSlot k s

/-! ### The decision (R145) -/

/-- Steps 3 to 5, the line having been examined. -/
def decideOrdinary (s : State) : State :=
  match pollNext s with
  | some t => t
  | none =>
    match sendIdentify s with
    | some t => t
    | none => serveSchedule s

/-- The first of the five steps that finds something to send (R145). -/
def decide5 (s : State) : State :=
  match sendBroadcast s with
  | some t => t
  | none =>
    match s.nextUrgent with
    | some u => sendQueued u.entry u.place s
    | none => decideOrdinary s

/-- A decision of the arbiter; none is made while an exchange is in flight (R145). -/
def arbitrate (released : Bool) (s : State) : State :=
  if s.link.exchange.isSome then s
  else decide5 (beginRoll (examineLine (s.modLink fun k => { k with callLow := k.callLow && !released })))

/-- ARBITER_DECISION (R145). -/
def execArbiterDecision (released : Bool) (s : State) : Host.Outcome State Fault Refusal :=
  .next (arbitrate released s)

/-! ### The requests and line events of the arbiter -/

/-- DISCOVER judged and taken (R149). -/
def takeDiscover (s : State) : Reply :=
  if s.link.enumeration = .idle then .ok (s.modLink fun k => { k with linkClear := true, enumeration := .due })
  else .no .inProgress s

/-- DISCOVER (R149). -/
def execDiscover (s : State) : Host.Outcome State Fault Refusal := .next (request 0x25#8 takeDiscover s)

/-- An enumeration is in progress (R146). -/
def Enumeration.isRunning : Enumeration → Bool
  | .running _ => true
  | .idle | .due => false

/-- SET SCHEDULE judged and taken (R146). -/
def takeSetSchedule (slots : List Nat) (s : State) : Reply :=
  if slots.length ≠ 32 ∨ slots.any (fun x => decide (7 < x)) = true then .no .badField s
  else if s.link.enumeration.isRunning then .no .inProgress s
  else .ok (s.modLink fun k => { k with schedule := Vector.ofFn fun i : Fin 32 => slots.getD i.val 0, cursor := 1 })

/-- SET_SCHEDULE (R146). -/
def execSetSchedule (slots : List Nat) (s : State) : Host.Outcome State Fault Refusal :=
  .next (request 0x26#8 (takeSetSchedule slots) s)

/-- DISCOVERY_TIMER_EXPIRY (R148): a probe is due. -/
def execDiscoveryTimerExpiry (s : State) : Host.Outcome State Fault Refusal :=
  .next (if s.link.discoveryTimer.isSome then s.modLink fun k => { k with discoveryTimer := none, probeDue := true } else s)

/-- CALL_LINE_LOW (R147). -/
def execCallLineLow (s : State) : Host.Outcome State Fault Refusal :=
  .next (s.modLink fun k => { k with callLow := true })

/-- CALL_IGNORE_EXPIRY (R147). -/
def execCallIgnoreExpiry (s : State) : Host.Outcome State Fault Refusal :=
  .next (s.modLink fun k => { k with ignoring := none })

end Sys2Proof.Machine
end

