-- ==== Sys2Proof/Machine/Walk.lean ====
section
/-! DEFINITION. The arithmetic of a coverage pass: the two walks, the six figures and the claims table (§3.2, §3.3). -/

namespace Sys2Proof.Machine

/-- Litres taken from one stratum for one reservation. -/
structure Taken where
  no : Nat
  temp : Temp
  litres : Nat
deriving DecidableEq, Repr

/-- The litres of a stratum not yet claimed (R43). -/
def Layer.available (l : Layer) : Nat := l.volume - l.claimed

/-- A stratum with more litres claimed (R43). -/
def Layer.claim (l : Layer) (litres : Nat) : Layer := { l with claimed := l.claimed + litres }

/-- The litres a walk takes from a stratum. -/
def Layer.takes (l : Layer) (need : Nat) : Nat := min l.available need

/-- What is used of a stratum, in front of what is used below it; nothing where no litre was taken (R47). -/
def Layer.used (l : Layer) (litres : Nat) (below : List Taken) : List Taken :=
  if litres = 0 then below else { no := l.no, temp := l.temp, litres := litres } :: below

/-- Where a walk ended: the strata it visited with their new claims, what it took, the need left, and the strata it did
not visit, of which a coverage walk's first is the one it stopped at. -/
structure Walk where
  visited : List Layer
  taken : List Taken
  need : Nat
  rest : List Layer
deriving DecidableEq, Repr

/-- The coverage walk of a reservation of minimum temperature `thetaMin`, from the first of the layers down (R44). -/
def coverageWalk (thetaMin : Temp) : Nat → List Layer → Walk
  | need, [] => { visited := [], taken := [], need := need, rest := [] }
  | need, l :: below =>
    if need = 0 ∨ l.temp < thetaMin then { visited := [], taken := [], need := need, rest := l :: below }
    else
      let w := coverageWalk thetaMin (need - l.takes need) below
      { w with visited := l.claim (l.takes need) :: w.visited, taken := l.used (l.takes need) w.taken }

/-- The accounting walk, whatever the temperature (R46). -/
def accountingWalk : Nat → List Layer → Walk
  | need, [] => { visited := [], taken := [], need := need, rest := [] }
  | need, l :: below =>
    let w := accountingWalk (need - l.takes need) below
    { w with visited := l.claim (l.takes need) :: w.visited, taken := l.used (l.takes need) w.taken }

/-- A verdict with its figures (R45 to R48). -/
structure Verdict where
  atRisk : Bool
  covered : Nat
  depth : Nat
  shortfall : Nat
  deficit : Nat
  beyond : Bool
  marginMet : Bool
deriving DecidableEq, Repr

/-- The product of one stratum used, in litres times 0.1 K; 0 below the reserve line or where it does not fall short
(R47). -/
def Taken.product (reserveLine : Nat) (target : Temp) (t : Taken) : Nat :=
  if t.no < reserveLine then 0 else t.litres * (target - t.temp).toNat

/-- The deficit in Wh, rounded up once (R47). -/
def deficitOf (reserveLine : Nat) (target : Temp) (taken : List Taken) : Nat :=
  ceilDiv ((taken.map (Taken.product reserveLine target)).sum * Config.waterHeat) 10000

/-- The lowest stratum used; S1 where none is (R45, R46). -/
def depthOf (taken : List Taken) : Nat := (taken.getLast?.map (·.no)).getD 1

/-- One reservation judged over the layers as the earlier ones left them, and the layers it leaves (R44 to R48). -/
def judge (reserveLine : Nat) (margin : Temp) (t : BookTerms) (layers : List Layer) : Verdict × List Layer :=
  let target := t.thetaMin + margin
  let c := coverageWalk t.thetaMin t.volume layers
  if c.need = 0 then
    ({ atRisk := false, covered := t.volume, depth := depthOf c.taken, shortfall := 0
       deficit := deficitOf reserveLine target c.taken, beyond := false
       marginMet := c.taken.all fun x => decide (target ≤ x.temp) },
     c.visited ++ c.rest)
  else
    let a := accountingWalk c.need c.rest
    let taken := c.taken ++ a.taken
    ({ atRisk := true, covered := t.volume - c.need, depth := depthOf taken, shortfall := c.need
       deficit := deficitOf reserveLine target taken
       beyond := taken.isEmpty || a.taken.any fun x => decide (x.no < reserveLine)
       marginMet := false },
     c.visited ++ a.visited)

/-- The records judged one after the other, each seeing what the earlier ones claimed (R43). -/
def judgeAll (reserveLine : Nat) (margin : Temp) : List Layer → List PassRecord → List (PassRecord × Verdict) × List Layer
  | layers, [] => ([], layers)
  | layers, r :: rs =>
    let v := judge reserveLine margin r.terms layers
    let w := judgeAll reserveLine margin v.2 rs
    ((r, v.1) :: w.1, w.2)

/-- The verdicts and the claims of a pass (R43). -/
def Pass.results (p : Pass) : List (PassRecord × Verdict) × List Layer :=
  judgeAll p.reserveLine p.margin p.layers p.records

/-- A verdict's six figures as a record holds them (R49). -/
def Verdict.figures (v : Verdict) : Figures :=
  { covered := some v.covered, depth := some v.depth, shortfall := some v.shortfall, deficit := some v.deficit
    beyond := some v.beyond, marginMet := some v.marginMet }

/-- A verdict as a record's state. -/
def Verdict.state (v : Verdict) : ResState := if v.atRisk then .atRisk else .covered

end Sys2Proof.Machine
end

