-- ==== Sys2Proof/Machine/Coverage.lean ====
section
/-! DEFINITION. The end of a coverage pass: verdicts and claims written, top-up decisions made, the rerun (§3.3, §3.4,
R41). -/

namespace Sys2Proof.Machine

/-- The record of a pass that R31 does not except: still open under the handle it had, and not changed since. -/
def State.passRecord? (s : State) (p : Pass) (r : PassRecord) : Option Reservation :=
  if p.excepted.contains r.handle.slot then none else (s.recordOf? r.handle).filter fun x => x.state.isOpen

/-- A verdict written into its record (R31, R49). -/
def writeVerdict (p : Pass) (s : State) (r : PassRecord × Verdict) : State :=
  match s.passRecord? p r.1 with
  | none => s
  | some x =>
    (s.modRecord r.1.handle.slot fun x => { x with state := r.2.state, figures := r.2.figures }).raiseIf
      (r.2.atRisk && x.state != .atRisk) .atRisk

/-- The claims table written into the map (R16). -/
def writeClaims (s : State) (l : Layer) : State :=
  s.modMap fun m => { m with strata := tset m.strata (l.no - 1) { s.stratum l.no with claimed := l.claimed } }

/-- A deficit multiplied by 1.1 and rounded up (R54, R56). -/
def budgetFor (deficit : Nat) : Nat := ceilDiv (11 * deficit) 10

/-- A reservation is in window, with its due later than now (R50). -/
def inWindow (now : Nat) (t : BookTerms) : Bool := decide (dueOf t ≤ now + t.lead) && decide (now < dueOf t)

/-- A candidate for a top-up (R51). -/
def State.isCandidate (s : State) (p : Pass) (r : PassRecord × Verdict) : Bool :=
  (s.passRecord? p r.1).any (fun x => x.topUp.isNone) && r.2.atRisk && inWindow p.now r.1.terms
    && decide (0 < r.2.deficit)

/-- A lease that a candidate may join (R53). -/
def Lease.joinable (l : Lease) (reserveLine depth : Nat) : Bool :=
  l.kind == .topUp && l.state != .revoking && decide (l.inlet ≤ max depth reserveLine) && decide (l.serve.length < 8)

/-- The lease a candidate joins: of those joinable, the one whose inlet is highest, ties to the lower slot (R53). The
reserve line is the one the pass took (R42; log entry 32). -/
def State.joinTarget (s : State) (reserveLine depth : Nat) : Option Nat :=
  (sortBy (fun n => 8 - ((s.lease? n).map (·.inlet)).getD 0)
    (upTo8.filter fun n => (s.lease? n).any fun l => l.joinable reserveLine depth)).head?

/-- The lease with a candidate added to it (R54). -/
def Lease.joined (l : Lease) (h : Handle) (target : Temp) (deficit : Nat) : Lease :=
  { l with
    serve := l.serve ++ [h], budget := l.budget.map (· + budgetFor deficit), ceiling := max l.ceiling target }

/-- The top-up lease field of a record set (R32). -/
def setTopUp (h lease : Handle) (s : State) : State := s.modRecord h.slot fun x => { x with topUp := some lease }

/-- A join taken: the lease enlarged, the record linked, an AMEND queued, and the finishing and overlap tests made
(R54, R76, R106). -/
def join (n : Nat) (h : Handle) (target : Temp) (deficit : Nat) (s : State) : State :=
  let s1 := setTopUp h (s.leaseHandle n) (s.modLease n fun l => l.joined h target deficit)
  match s1.lease? n with
  | none => s1
  | some l => testOverlap (testFinishing n (place l.holder (s1.amendOf n l) s1))

/-- The TOPUP lease that an opening request asks for (R56, R65). -/
def State.topUpLease (s : State) (holder : Nat) (h : Handle) (target : Temp) (deficit : Nat) : Lease :=
  { Lease.withLimit (60 * s.admission.topUpLimit) (Lease.fresh .topUp .part holder (s.entryInlet holder) target) with
    budget := some (budgetFor deficit), serve := [h], handovers := some 0 }

/-- An opening request taken or refused (R65). -/
def openTopUp (holder : Nat) (h : Handle) (target : Temp) (deficit : Nat) (s : State) : State :=
  if s.mayOpenBought holder then
    match openOffered (s.topUpLease holder h target deficit) s with
    | none => s
    | some (lease, s1) => setTopUp h lease s1
  else s

/-- The decision for one record, with the mark that the pass has made its one opening request (R51, R53, R55, R56). The line
and the margin are those the pass took (R42; log entry 32). -/
def decideTopUp (p : Pass) (acc : State × Bool) (r : PassRecord × Verdict) : State × Bool :=
  let s := acc.1
  if s.isCandidate p r then
    let target := r.1.terms.thetaMin + p.margin
    match s.joinTarget p.reserveLine r.2.depth with
    | some n => (join n r.1.handle target r.2.deficit s, acc.2)
    | none =>
      if acc.2 then acc
      else
        match s.selectStation r.1.terms.preferred r.2.depth with
        | none => acc
        | some holder => (openTopUp holder r.1.handle target r.2.deficit s, true)
  else acc

/-- The pass ends: a rerun that is pending begins, or is discarded under an INVALID map (R41). -/
def endPass (s : State) : State :=
  let again := s.coverage.rerun
  let s1 := s.modCoverage fun _ => { pass := none, rerun := false }
  if again then passStart s1 else s1

/-- Everything the end of a pass brings about, the finishing tests of the TOPUP and BOOST leases last (R49, R76). -/
def completePass (p : Pass) (s : State) : State :=
  let out := p.results
  let s1 := out.1.foldl (writeVerdict p) s
  let s2 := out.2.foldl writeClaims s1
  let s3 := (out.1.foldl (decideTopUp p) (s2, false)).1
  upTo8.foldl (fun t n => testFinishingUnlessSanitise n t) (endPass s3)

/-- A pass that is in flight ends. -/
def finishPass (s : State) : State :=
  match s.coverage.pass with
  | none => s
  | some p => closing (completePass p s)

/-- PASS_COMPLETE (R49); nothing where no pass is in flight. -/
def execPassComplete (s : State) : Host.Outcome State Fault Refusal := .next (finishPass s)

end Sys2Proof.Machine
end

