-- ==== Sys2Proof/Machine/Book.lean ====
section
/-! DEFINITION. The book's requests BOOK, AMEND, WITHDRAW and RELEASE, and the due processing (chapter 2). -/

namespace Sys2Proof.Machine

/-- No pass figures (R20). -/
def Figures.absent : Figures :=
  { covered := none, depth := none, shortfall := none, deficit := none, beyond := none, marginMet := none }

/-! ### The ranges of the record's table (§2.1) -/

def dueOk (day minute : Nat) : Bool := decide (day ≤ Config.lastDay) && decide (minute < Config.dayMinutes)

def volumeOk (v : Nat) : Bool := decide (10 ≤ v)

def thetaMinOk (t : Temp) : Bool := decide (350 ≤ t) && decide (t ≤ 700)

def leadOk (m : Nat) : Bool := decide (10 ≤ m) && decide (m ≤ 360)

/-- A repeat interval or a preferred station: 1 to 7, or none. -/
def oneToSeven : Option Nat → Bool
  | none => true
  | some n => decide (1 ≤ n) && decide (n ≤ 7)

/-- The fields of a BOOK request lie in their ranges; the volume's upper end is the next check (R21). -/
def bookFieldsOk (t : BookTerms) : Bool :=
  dueOk t.dueDay t.dueMinute && volumeOk t.volume && thetaMinOk t.thetaMin && leadOk t.lead && oneToSeven t.repeatDays
    && oneToSeven t.preferred

/-! ### BOOK (R21 to R23) -/

/-- The checks of R21 before the search for a slot; the first that fails gives the answer. -/
def State.bookFault (s : State) (t : BookTerms) : Option Status :=
  if s.clock.set = false then some .clockUnset
  else if bookFieldsOk t = false then some .badField
  else if s.map.cylinderVolume < t.volume then some .badField
  else if dueOf t ≤ s.clock.now then some .badField
  else none

/-- A record as a booking places it (R23). -/
def Reservation.booked (t : BookTerms) : Reservation :=
  { terms := t, state := .booked, figures := .absent, topUp := none, last := none }

/-- A BOOK against a full book (R22). -/
def starve (s : State) : State := (s.modBook fun k => { k with starved := satInc k.starved }).raise .bookStarved

/-- BOOK judged and taken (R21, R22, R23). -/
def takeBook (t : BookTerms) (s : State) : Reply :=
  match s.bookFault t with
  | some st => .no st s
  | none =>
    match s.freeBookSlot with
    | none => .no .bookFull (starve s)
    | some n =>
      .okWith (reservationBytes (s.bookHandle n))
        (passStart (s.setBookSlot n { s.bookSlot n with record := some (.booked t) }))

/-- BOOK (R21). -/
def execBook (terms : BookTerms) (s : State) : Host.Outcome State Fault Refusal :=
  .next (request 0x10#8 (takeBook terms) s)

/-! ### AMEND (R24 to R26) -/

/-- The given fields of an AMEND lie in their ranges (R24). -/
def amendFieldsOk (t : AmendTerms) : Bool :=
  t.due.all (fun d => dueOk d.1 d.2) && t.volume.all volumeOk && t.thetaMin.all thetaMinOk && t.lead.all leadOk
    && t.repeatDays.all oneToSeven && t.preferred.all oneToSeven

/-- The resulting fields of an AMEND: each the given value, or the present one where it is left out (R24). -/
def amendedTerms (t : AmendTerms) (b : BookTerms) : BookTerms :=
  { dueDay := (t.due.map (·.1)).getD b.dueDay
    dueMinute := (t.due.map (·.2)).getD b.dueMinute
    volume := t.volume.getD b.volume
    thetaMin := t.thetaMin.getD b.thetaMin
    lead := t.lead.getD b.lead
    repeatDays := t.repeatDays.getD b.repeatDays
    preferred := t.preferred.getD b.preferred }

/-- The checks of R24 on a live record. -/
def State.amendFault (s : State) (r : Reservation) (t : AmendTerms) : Option Status :=
  if r.state.isOpen = false then some .wrongState
  else if amendFieldsOk t = false then some .badField
  else if s.map.cylinderVolume < (amendedTerms t r.terms).volume then some .badField
  else if dueOf (amendedTerms t r.terms) ≤ s.clock.now then some .badField
  else none

/-- A record with new terms: BOOKED, its figures cleared, its last outcome kept only while it repeats (R26). -/
def Reservation.amended (r : Reservation) (b : BookTerms) : Reservation :=
  { r with
    terms := b, state := .booked, figures := .absent, last := if b.repeatDays.isNone then none else r.last }

/-- A request on a reservation named by handle: the handle is resolved before anything else is judged (R19). -/
def withReservation (h : Handle) (work : Reservation → State → Reply) (s : State) : Reply :=
  match (s.resolveReservation h).status with
  | some st => .no st s
  | none =>
    match s.record? h.slot with
    | none => .no .noSuch s
    | some r => work r s

/-- AMEND judged and taken on a live record (R24, R25, R26). -/
def amendRecord (h : Handle) (t : AmendTerms) (r : Reservation) (s : State) : Reply :=
  match s.amendFault r t with
  | some st => .no st s
  | none =>
    if amendedTerms t r.terms = r.terms then .ok s
    else
      .ok (passStart (exceptRecord h.slot (s.modRecord h.slot fun r => r.amended (amendedTerms t r.terms))))

/-- AMEND (R24). -/
def execAmend (h : Handle) (terms : AmendTerms) (s : State) : Host.Outcome State Fault Refusal :=
  .next (request 0x11#8 (withReservation h (amendRecord h terms)) s)

/-! ### WITHDRAW and RELEASE (R27, R28) -/

/-- WITHDRAW on a live record (R27, R32). -/
def withdrawRecord (h : Handle) (r : Reservation) (s : State) : Reply :=
  if r.state.isOpen then
    .ok <| passStart <| leaveTopUp h.slot <|
      exceptRecord h.slot (s.modRecord h.slot fun r => { r with state := .withdrawn })
  else .no .wrongState s

/-- WITHDRAW (R27). -/
def execWithdraw (h : Handle) (s : State) : Host.Outcome State Fault Refusal :=
  .next (request 0x12#8 (withReservation h (withdrawRecord h)) s)

/-- A slot of the book freed, its issue advanced (R18). -/
def freeBookSlotNo (n : Nat) (s : State) : State :=
  s.setBookSlot n { issue := ((s.bookSlot n).issue + 1) % 16, record := none }

/-- RELEASE on a live record (R28). -/
def releaseRecord (h : Handle) (r : Reservation) (s : State) : Reply :=
  if r.state.isOpen then .no .wrongState s else .ok (passStart (freeBookSlotNo h.slot s))

/-- RELEASE (R28). -/
def execRelease (h : Handle) (s : State) : Host.Outcome State Fault Refusal :=
  .next (request 0x13#8 (withReservation h (releaseRecord h)) s)

/-! ### The due minute (§2.6) -/

/-- The figures a record ends with: as the last pass wrote them, or for a record with no verdict nothing covered
(R20, R34). -/
def Reservation.endFigures (r : Reservation) : Figures :=
  if r.state = .booked then { Figures.absent with covered := some 0, shortfall := some r.terms.volume } else r.figures

/-- The outcome of a due (R34, R35). -/
def Reservation.outcome (r : Reservation) : DueOutcome :=
  { served := r.state == .covered, shortfall := r.endFigures.shortfall.getD 0, day := r.terms.dueDay }

/-- The due day to which a record re-arms: advanced by the interval until the due is later than now (R35). -/
def rearmedDay (now : Nat) (t : BookTerms) (interval : Nat) : Nat :=
  t.dueDay + interval * ((now - dueOf t) / (interval * Config.dayMinutes) + 1)

/-- A record left terminal at its due (R34). -/
def Reservation.ended (r : Reservation) : Reservation :=
  { r with state := if r.outcome.served then .served else .missed, figures := r.endFigures }

/-- A repeating record re-armed for a later day (R35). -/
def Reservation.rearmed (r : Reservation) (day : Nat) : Reservation :=
  { r with
    terms := { r.terms with dueDay := day }, state := .booked, figures := .absent, last := some r.outcome }

/-- A record as its due leaves it (R34, R35, R36). -/
def Reservation.afterDue (now : Nat) (r : Reservation) : Reservation :=
  match r.terms.repeatDays with
  | none => r.ended
  | some interval =>
    let day := rearmedDay now r.terms interval
    if Config.lastDay < day then { r.ended with last := some r.outcome } else r.rearmed day

/-- The due of one record (R33 to R36), before the arbiter acts. -/
def processDue (s : State) (n : Nat) : State :=
  match s.record? n with
  | none => s
  | some r =>
    let s1 := exceptRecord n (s.modRecord n fun r => r.afterDue s.clock.now)
    let s2 := s1.raise (if r.outcome.served then .served else .missed)
    passStart (removeTopUp n s2)

/-- The slots of the open records whose due is not later than now, in due order (R33). -/
def State.slotsDue (s : State) : List Nat :=
  (s.openByDue.filter fun p => decide (dueOf p.2.terms ≤ s.clock.now)).map (·.1)

/-- Due processing (R33): the records one by one, and then what their leaving their leases brings (R76, R79, R105). -/
def processDues (s : State) : State :=
  if s.slotsDue.isEmpty then s else afterRemovals s (s.slotsDue.foldl processDue s)

end Sys2Proof.Machine
end

