-- ==== Sys2Proof/Machine/Loop.lean ====
section
/-! DEFINITION. The solar loop's shared operations: differentials, target, starting, ending, the valve, the stop point
and what a sweep and a guard change bring about (chapter 9). -/

namespace Sys2Proof.Machine

/-! ### Differentials (R154) -/

/-- The reference stratum: the one at the valve's present inlet. -/
def State.reference (s : State) : Nat := s.solar.inlet

/-- The loop differential. -/
def State.loopDiff (s : State) : Temp := s.map.collector.temp - s.temp s.reference

/-- The return differential. -/
def State.returnDiff (s : State) : Temp := s.map.loopReturn.temp - s.temp s.reference

/-- The collector, the return or the S1 probe is FAULTED (R160). -/
def State.loopFault (s : State) : Bool :=
  s.map.collector.probe.state == .faulted || s.map.loopReturn.probe.state == .faulted
    || (s.stratum 1).probe.state == .faulted

/-- The collector stands at or above the stagnation threshold. -/
def State.stagnates (s : State) : Bool := decide (s.solar.params.stagnation ≤ s.map.collector.temp)

/-- The cylinder is full: S8 at or above θmax (R159). -/
def State.isFull (s : State) : Bool := decide (s.map.thetaMax ≤ s.temp 8)

/-- The automatic target (R156). -/
def State.autoTarget (s : State) : Temp := max (s.solar.params.stopDiff + 20) (s.loopDiff / 2)

/-- The regulation target as R156 sets it: the fixed figure, or the automatic one. -/
def State.targetNow (s : State) : Temp := s.solar.params.fixedTarget.getD s.autoTarget

/-- The states in which the SOLAR lease exists (R154). -/
def LoopState.hasLease : LoopState → Bool
  | .priming | .charging | .regulating => true
  | .off | .stagnant | .recooling | .faulted => false

/-! ### The valve (R162) -/

/-- The SOLAR lease's inlet follows the valve (R62, R162). -/
def followInlet (s : State) : State :=
  match s.slotOfKind .solar with
  | none => s
  | some n => s.modLease n fun l => { l with inlet := s.solar.inlet }

/-- The valve moved, with its spacing started. -/
def moveValve (v : Valve) (s : State) : State :=
  followInlet (s.modSolar fun x => { x with valve := v, spacing := some Config.valveSpacing })

/-- The valve's evaluation at a sweep-complete in PRIMING, CHARGING and REGULATING (R162). -/
def evaluateValve (s : State) : State :=
  if s.solar.spacing.isSome then s
  else
    match s.solar.valve with
    | .lower =>
      if s.temp s.solar.params.upperInlet + 20 ≤ s.map.loopReturn.temp then moveValve .upper s else s
    | .upper => if s.map.loopReturn.temp < s.temp s.solar.params.upperInlet then moveValve .lower s else s

/-- The valve driven UPPER in RECOOLING, as soon as the spacing allows (R164). -/
def driveUpper (s : State) : State :=
  if s.solar.valve = .lower ∧ s.solar.spacing = none then moveValve .upper s else s

/-- A spacing some seconds later; none is left once it has run out (R162). -/
def spacingAfter (seconds : Nat) : Option Nat → Option Nat
  | none => none
  | some n => if n ≤ seconds then none else some (n - seconds)

/-- The spacing at a sweep-complete: of the 10 s since the one before (R1), those that the timebase has not counted pass
here (log entry 17). -/
def Solar.atSweep (v : Solar) : Solar :=
  { v with spacing := spacingAfter (Config.sweepInterval - v.counted) v.spacing, counted := 0 }

/-! ### Starting and ending -/

/-- The loop leaves its state for one that holds no lease; the SOLAR lease, if there is one, is retired CEASED (R154,
R159, R160). -/
def endLoop (st : LoopState) (s : State) : State :=
  let s1 := stopLoop st s
  match s1.slotOfKind .solar with
  | none => s1
  | some n => retire n .ceased s1

/-- The loop enters PRIMING: the SOLAR lease is opened, the pump runs and the prime timer starts (R154). -/
def startPriming (s : State) : State :=
  ((openSolar s).modSolar fun v =>
    { v with state := .priming, pump := 100, prime := some v.params.primeTime, remainder := 0 }).raise .solarState

/-- The start test (R154 step 3). -/
def State.mayPrime (s : State) : Bool :=
  !s.admission.halted && s.map.valid && decide (s.solar.params.startDiff ≤ s.map.collector.temp - s.temp 1)
    && decide (s.temp 8 < s.map.thetaMax - 30) && !s.stagnates

/-- A minute inside the recool window; a window whose start is later than its end wraps (§9.1). -/
def LoopParams.windowHolds (p : LoopParams) (minute : Nat) : Bool :=
  if p.windowStart < p.windowEnd then decide (p.windowStart ≤ minute) && decide (minute < p.windowEnd)
  else decide (p.windowStart ≤ minute) || decide (minute < p.windowEnd)

/-- The clock is set and its minute lies in the recool window. -/
def State.inRecoolWindow (s : State) : Bool := s.clock.set && s.solar.params.windowHolds s.clock.minute

/-- The dues that the stop point looks at: later than now, and within 720 min (R164). -/
def State.duesAhead (s : State) : List Reservation :=
  (s.openByDue.map (·.2)).filter fun r =>
    decide (s.clock.now < dueOf r.terms) && decide (dueOf r.terms ≤ s.clock.now + Config.recoolSpan)

/-- The recool stop point (R164). -/
def State.recoolStop (s : State) : Temp :=
  s.duesAhead.foldl (fun m r => max m (r.terms.thetaMin + s.map.margin)) (s.map.thetaMax - 100)

/-- The entry conditions of recooling (R164). -/
def State.mayRecool (s : State) : Bool :=
  s.solar.params.recooling && s.inRecoolWindow && !s.admission.halted && decide (s.map.thetaMax - 50 < s.temp 8)
    && s.solar.stopPoint.any (fun p => decide (p < s.temp 8))
    && decide (s.map.collector.temp < s.temp 8 - s.solar.params.startDiff)

/-- The loop enters RECOOLING (R164). -/
def startRecooling (s : State) : State :=
  driveUpper ((s.modSolar fun v => { v with state := .recooling, pump := 100 }).raise .solarState)

/-- The tests of a loop in OFF, in their order (R154). -/
def testOff (s : State) : State :=
  if s.loopFault then stopLoop .faulted s
  else if s.stagnates then stopLoop .stagnant s
  else if s.mayPrime then startPriming s
  else if s.mayRecool then startRecooling s
  else s

/-- REGULATING returns to CHARGING (R157). -/
def toCharging (s : State) : State :=
  (settling (fun t => t.modSolar fun v => { v with state := .charging, step := some Config.solarStepTime }) s).raise
    .solarState

/-- The stop timer starts at the first sweep that finds the sun gone, and clears at the first that does not (R159). -/
def tendStopTimer (s : State) : State :=
  s.modSolar fun v =>
    { v with
      stop := if s.returnDiff < v.params.stopDiff then some (v.stop.getD Config.solarStopTime) else none }

/-- A regulating loop whose differential has reached the target plus 1.0 K (R157). -/
def State.regulationLifts (s : State) : Bool :=
  s.solar.state == .regulating && s.solar.target.any fun t => decide (t + 10 ≤ s.loopDiff)

/-- A sweep in CHARGING or REGULATING that ends neither (R157, R159, R162). -/
def sweepRunning (s : State) : State :=
  let s1 := tendStopTimer s
  evaluateValve (if s1.regulationLifts then toCharging s1 else s1)

/-- The tests common to PRIMING, CHARGING and REGULATING, and what follows where none holds (R155, R159, R160). -/
def sweepWithLease (go : State → State) (s : State) : State :=
  if s.loopFault then endLoop .faulted s
  else if s.stagnates then endLoop .stagnant s
  else if s.isFull then endLoop .off s
  else go s

/-- A sweep in STAGNANT (R159). -/
def sweepStagnant (s : State) : State :=
  if s.loopFault then stopLoop .faulted s
  else if s.map.collector.temp ≤ s.solar.params.releaseTemp then stopLoop .off s
  else s

/-- A sweep in RECOOLING (R164, R165). -/
def sweepRecooling (s : State) : State :=
  if s.loopFault then stopLoop .faulted s
  else if s.solar.stopPoint.any fun p => decide (s.temp 8 ≤ p) then stopLoop .off s
  else driveUpper s

/-- What a sweep-complete brings to the loop (chapter 9). -/
def solarSweep (s : State) : State :=
  let s1 := s.modSolar fun v => { v.atSweep with stopPoint := some s.recoolStop }
  match s1.solar.state with
  | .off => testOff s1
  | .priming => sweepWithLease evaluateValve s1
  | .charging | .regulating => sweepWithLease sweepRunning s1
  | .stagnant => sweepStagnant s1
  | .recooling => sweepRecooling s1
  | .faulted => if s1.loopFault then s1 else stopLoop .off s1

/-- The guard states in ascending strictness. -/
def GuardState.strictness : GuardState → Nat
  | .clear => 0
  | .half => 1
  | .shut => 2

/-- What a guard-change event brings to the loop (R154, R159): it may stop a loop or keep one from starting; a guard
that lifts is acted on at the next sweep. -/
def solarGuardChange (old : GuardState) (s : State) : State :=
  if s.solar.state = .off then
    if old.strictness < s.map.guard.strictness then testOff s else s
  else if s.solar.state.hasLease = true ∧ s.map.guard = .shut then endLoop .off s
  else s

/-- Recooling ends where it is off or the present minute lies outside its window (R165). -/
def checkRecoolWindow (s : State) : State :=
  if s.solar.state = .recooling ∧ (s.solar.params.recooling && s.inRecoolWindow) = false then stopLoop .off s else s

end Sys2Proof.Machine
end

