-- ==== Sys2Proof/Machine/Roster.lean ====
section
/-! DEFINITION. The roster's commands: SET STATION, CLEAR BAR, RELEARN, FORGET, auto-cap, and the expiry of a
cooldown, a retry timer, a trial window and a step timer (chapter 7, R100, R101). -/

namespace Sys2Proof.Machine

/-- The check of a roster index named for a change (R119): outside 1 to 7, or ABSENT. -/
def State.stationFault (s : State) (i : Nat) : Option Status :=
  if i < 1 ∨ 7 < i then some .badField
  else if (s.entry i).state = .absent then some .noSuch
  else none

/-- The fields of SET STATION lie in their ranges (R121, §11.2). -/
def stationFieldsOk (capAction cap rankAction rank : Nat) : Bool :=
  decide (capAction ≤ 2) && decide (rankAction ≤ 1)
    && (capAction != 1 || (decide (500 ≤ cap) && decide (cap ≤ Config.maxRate) && cap % 100 == 0))
    && (rankAction != 1 || (decide (1 ≤ rank) && decide (rank ≤ 7)))

/-- The host cap that a cap action leaves. -/
def hostCapAfter (capAction cap : Nat) (old : Option Nat) : Option Nat :=
  if capAction = 1 then some cap else if capAction = 2 then none else old

/-- SET STATION judged and taken (R121). -/
def takeSetStation (i capAction cap rankAction rank : Nat) (s : State) : Reply :=
  if i < 1 ∨ 7 < i ∨ stationFieldsOk capAction cap rankAction rank = false then .no .badField s
  else if (s.entry i).state = .absent then .no .noSuch s
  else if rankAction = 1 ∧ (s.entry i).cls.isBought = false then .no .wrongState s
  else
    .ok <| settling (fun t => t.modEntry i fun e =>
      { e with
        hostCap := hostCapAfter capAction cap e.hostCap
        rank := if rankAction = 1 then some rank else e.rank }) s

/-- SET_STATION (R121). -/
def execSetStation (index capAction cap rankAction rank : Nat) (s : State) : Host.Outcome State Fault Refusal :=
  .next (request 0x21#8 (takeSetStation index capAction cap rankAction rank) s)

/-- CLEAR BAR judged and taken (R127). -/
def takeClearBar (i : Nat) (s : State) : Reply :=
  match s.stationFault i with
  | some st => .no st s
  | none =>
    if (s.entry i).state = .barred then
      .ok (tryTrial (s.modEntry i fun e => { e with state := .qualifying, failures := 0, retry := none }))
    else .no .wrongState s

/-- CLEAR_BAR (R127). -/
def execClearBar (index : Nat) (s : State) : Host.Outcome State Fault Refusal :=
  .next (request 0x22#8 (takeClearBar index) s)

/-- The limit mark of the lease that entry `i` holds is cleared and its step timer stopped (R101). -/
def clearLimitOf (i : Nat) (s : State) : State :=
  match s.slotHeldBy i with
  | none => s
  | some n => s.modLease n fun l => { l with limitMark := false, stepTimer := none }

/-- RELEARN judged and taken (R101). -/
def takeRelearn (i : Nat) (s : State) : Reply :=
  match s.stationFault i with
  | some st => .no st s
  | none =>
    if (s.entry i).learned.isNone then .no .wrongState s
    else
      .ok <| settling (fun t => clearLimitOf i (t.modEntry i fun e => { e with learned := some e.declared })) s

/-- RELEARN (R101). -/
def execRelearn (index : Nat) (s : State) : Host.Outcome State Fault Refusal :=
  .next (request 0x23#8 (takeRelearn index) s)

/-- FORGET judged and taken (R132). -/
def takeForget (i : Nat) (s : State) : Reply :=
  match s.stationFault i with
  | some st => .no st s
  | none =>
    if (s.forgottenWith i).any fun j => (s.slotHeldBy j).isSome then .no .wrongState s
    else .ok (forgetEntries (s.forgottenWith i) s)

/-- FORGET (R132). -/
def execForget (index : Nat) (s : State) : Host.Outcome State Fault Refusal :=
  .next (request 0x24#8 (takeForget index) s)

/-- The value of a parameter that is on or off (§11.2). -/
def onOff (v : Int) : Option Bool := if v = 0 then some false else if v = 1 then some true else none

/-- Auto-cap set (R120): 0 or 1; an equal value changes nothing. -/
def takeAutoCap (v : Int) (s : State) : Reply :=
  match onOff v with
  | none => .no .badField s
  | some b =>
    if s.roster.autoCap = b then .ok s
    else .ok (settling (fun t => t.modRoster fun r => { r with autoCap := b }) s)

/-- SET_AUTO_CAP (R120). -/
def execSetAutoCap (value : Int) (s : State) : Host.Outcome State Fault Refusal :=
  .next (request 0x08#8 (takeAutoCap value) s)

/-- A running cooldown reaches 0 and is removed (R133). -/
def endCooldown (i : Nat) (s : State) : State :=
  if (s.entry i).cooldown.isSome then
    closing (noteEligible s (s.modEntry i fun e => { e with cooldown := none }))
  else s

/-- DECLINE_COOLDOWN_EXPIRY (R133). -/
def execDeclineCooldownExpiry (index : Nat) (s : State) : Host.Outcome State Fault Refusal :=
  .next (endCooldown index s)

/-- A running retry timer expires, and a trial is tried (R124, R125). -/
def endRetry (i : Nat) (s : State) : State :=
  if (s.entry i).retry.isSome then closing (tryTrial (s.modEntry i fun e => { e with retry := none })) else s

/-- RETRY_TIMER_EXPIRY (R124). -/
def execRetryTimerExpiry (index : Nat) (s : State) : Host.Outcome State Fault Refusal :=
  .next (endRetry index s)

/-- The window of the running trial ends (R125). -/
def endTrialWindow (s : State) : State :=
  match s.roster.trial with
  | none => s
  | some t => if t.window.isSome then closing (failTrial t s) else s

/-- TRIAL_WINDOW_END (R125). -/
def execTrialWindowEnd (s : State) : Host.Outcome State Fault Refusal := .next (endTrialWindow s)

/-- The step timer of a live lease expires with its limit mark set while it is ADMITTED or THROTTLED: another step, and
the timer restarts (R100). -/
def endStepTimer (h : Handle) (s : State) : State :=
  match s.leaseOf? h with
  | none => s
  | some l =>
    if l.stepTimer.isSome && l.limitMark && l.state.isRunning then
      closing <| takeLearnedStep l.holder <|
        s.modLease h.slot fun l => { l with stepTimer := some Config.learnStepTime }
    else s

/-- LEARNED_CAP_STEP_TIMER_EXPIRY (R100). -/
def execLearnedCapStepTimerExpiry (h : Handle) (s : State) : Host.Outcome State Fault Refusal :=
  .next (endStepTimer h s)

end Sys2Proof.Machine
end

