-- ==== Sys2Proof/Machine/Solar.lean ====
section
/-! DEFINITION. The solar loop's commands: its parameters, REMEASURE, flow pulses and the expiry of its timers
(chapter 9). -/

namespace Sys2Proof.Machine

/-- A signed value in a range. -/
def within (lo hi v : Int) : Bool := decide (lo ≤ v) && decide (v ≤ hi)

/-- The loop parameters with number 32 to 43 set to a value; absent where the value is out of its range, in breach of
another parameter's bound, or the number is none of these (R153, §9.1, §11.2). -/
def LoopParams.set (p : LoopParams) (number : Nat) (v : Int) : Option LoopParams :=
  match number with
  | 32 => if within 40 200 v && decide (p.stopDiff ≤ v - 20) then some { p with startDiff := v } else none
  | 33 => if within 20 (p.startDiff - 20) v then some { p with stopDiff := v } else none
  | 34 => if within 30 300 v then some { p with primeTime := v.toNat } else none
  | 35 => if within 20 100 v then some { p with minSpeed := v.toNat } else none
  | 36 =>
    if v = 0 then some { p with fixedTarget := none }
    else if within 30 400 v then some { p with fixedTarget := some v } else none
  | 37 => if within 1100 1600 v && decide (p.releaseTemp ≤ v - 100) then some { p with stagnation := v } else none
  | 38 => if within 900 (p.stagnation - 100) v then some { p with releaseTemp := v } else none
  | 39 => if within 2 8 v then some { p with upperInlet := v.toNat } else none
  | 40 => if within 1 100 v then some { p with litresPerPulse := v.toNat } else none
  | 41 => (onOff v).map fun b => { p with recooling := b }
  | 42 => if within 0 1439 v && v.toNat != p.windowEnd then some { p with windowStart := v.toNat } else none
  | 43 => if within 0 1439 v && v.toNat != p.windowStart then some { p with windowEnd := v.toNat } else none
  | _ => none

/-- The loop is CHARGING or REGULATING. -/
def LoopState.isRunning : LoopState → Bool
  | .charging | .regulating => true
  | .off | .priming | .stagnant | .recooling | .faulted => false

/-- The pump after a change of the parameters: a raised minimum lifts a CHARGING pump to it, and a REGULATING pump
holds it (R153). -/
def pumpAfter (st : LoopState) (pump minSpeed : Nat) : Nat :=
  if st = .charging then max pump minSpeed else if st = .regulating then minSpeed else pump

/-- New loop parameters written, with the consequences of R153. -/
def writeLoopParams (p : LoopParams) (s : State) : State :=
  let fixedChanged := s.solar.params.fixedTarget ≠ p.fixedTarget
  let s1 := s.modSolar fun v => { v with params := p, pump := pumpAfter v.state v.pump p.minSpeed }
  let s2 :=
    if s.solar.state.isRunning = true ∧ fixedChanged then s1.modSolar fun v => { v with target := some s1.targetNow }
    else s1
  checkRecoolWindow (resettle s (followInlet s2))

/-- A loop parameter judged and set (R153). -/
def takeLoopParameter (number : Nat) (v : Int) (s : State) : Reply :=
  match s.solar.params.set number v with
  | none => .no .badField s
  | some p => if p = s.solar.params then .ok s else .ok (writeLoopParams p s)

/-- SET_LOOP_PARAMETER (R153). -/
def execSetLoopParameter (number : Nat) (value : Int) (s : State) : Host.Outcome State Fault Refusal :=
  .next (request 0x08#8 (takeLoopParameter number value) s)

/-- A remeasurement begins (R158). -/
def beginRemeasure (s : State) : State :=
  let s1 := settling (fun t => t.modSolar fun v =>
    { v with state := .charging, pump := 100, step := none, remeasure := some Config.solarStepTime }) s
  s1.raiseIf (s.solar.state == .regulating) .solarState

/-- REMEASURE judged and taken (R158); that a fixed target is looked at first is log entry 53. -/
def takeRemeasure (s : State) : Reply :=
  if s.solar.state.isRunning = false ∨ s.solar.params.fixedTarget.isSome then .no .wrongState s
  else if s.solar.remeasure.isSome then .no .inProgress s
  else .ok (beginRemeasure s)

/-- REMEASURE (R158). -/
def execRemeasure (s : State) : Host.Outcome State Fault Refusal := .next (request 0x29#8 takeRemeasure s)

/-- The energy of a pulse in 0.00001 Wh (R163). -/
def State.pulseEnergy (s : State) : Nat :=
  s.solar.params.litresPerPulse * (s.map.loopReturn.temp - s.temp 1).toNat * Config.waterHeat

/-- A pulse while the SOLAR lease exists: whole watt-hours are credited and the fraction carried (R163). -/
def meterPulse (n : Nat) (s : State) : State :=
  let sum := s.solar.remainder + s.pulseEnergy
  let s1 := s.modSolar fun v => { v with remainder := sum % 100000 }
  if sum / 100000 = 0 then s1 else credit n (sum / 100000) s1

/-- A pulse of the flow meter (R163). -/
def takePulse (s : State) : State :=
  match s.slotOfKind .solar with
  | none => s
  | some n => meterPulse n s

/-- FLOW_PULSE (R163). -/
def execFlowPulse (s : State) : Host.Outcome State Fault Refusal := .next (takePulse s)

/-- Priming ends: the loop stops, or sets its target and charges (R155, R156). -/
def endPriming (s : State) : State :=
  if s.map.loopReturn.temp - s.temp 1 < s.solar.params.stopDiff then endLoop .off s
  else
    (s.modSolar fun v =>
      { v with
        state := .charging, prime := none, step := some Config.solarStepTime, target := some s.targetNow }).raise
      .solarState

/-- PRIME_TIMER_EXPIRY (R155). -/
def execPrimeTimerExpiry (s : State) : Host.Outcome State Fault Refusal :=
  .next (if s.solar.state = .priming ∧ s.solar.prime.isSome then closing (endPriming s) else s)

/-- The pump speed after a step (R157). -/
def steppedPump (pump minSpeed : Nat) (diff target : Temp) : Nat :=
  if target + 10 < diff then min 100 (pump + 10) else if diff < target - 10 then max minSpeed (pump - 10) else pump

/-- The pump is stepped, and a loop at its minimum below the target regulates (R157). -/
def stepPump (target : Temp) (s : State) : State :=
  let pump := steppedPump s.solar.pump s.solar.params.minSpeed s.loopDiff target
  if pump = s.solar.params.minSpeed ∧ s.loopDiff < target then
    (settling (fun t => t.modSolar fun v => { v with pump := pump, state := .regulating, step := none }) s).raise
      .solarState
  else s.modSolar fun v => { v with pump := pump, step := some Config.solarStepTime }

/-- The step timer expires (R157). -/
def endStep (s : State) : State :=
  match s.solar.target with
  | none => s
  | some target =>
    if s.solar.state = .charging ∧ s.solar.step.isSome then closing (stepPump target s) else s

/-- SOLAR_STEP_TIMER_EXPIRY (R157). -/
def execSolarStepTimerExpiry (s : State) : Host.Outcome State Fault Refusal := .next (endStep s)

/-- STOP_TIMER_EXPIRY (R159). -/
def execStopTimerExpiry (s : State) : Host.Outcome State Fault Refusal :=
  .next (if s.solar.state.isRunning = true ∧ s.solar.stop.isSome then closing (endLoop .off s) else s)

/-- A remeasurement ends: the target is set again and stepping goes on (R156, R158). -/
def endRemeasure (s : State) : State :=
  s.modSolar fun v =>
    { v with remeasure := none, target := some s.targetNow, step := some Config.solarStepTime }

/-- REMEASURE_TIMER_EXPIRY (R158). -/
def execRemeasureTimerExpiry (s : State) : Host.Outcome State Fault Refusal :=
  .next (if s.solar.state = .charging ∧ s.solar.remeasure.isSome then endRemeasure s else s)

end Sys2Proof.Machine
end

