-- ==== Sys2Proof/Machine/Sanitise.lean ====
section
/-! DEFINITION. The sanitise monitor: its settings, the hold at a sweep and the daily attempt (chapter 10). -/

namespace Sys2Proof.Machine

/-- The settings with number 48 to 53 set to a value; absent where the value is out of its range or the number is none
of these (R169, §11.2). -/
def Sanitise.setting (m : Sanitise) (reserveLine : Nat) (number : Nat) (v : Int) : Option Sanitise :=
  match number with
  | 48 =>
    if v = 0 then some { m with interval := none }
    else if within 1 14 v then some { m with interval := some v.toNat } else none
  | 49 => if within 600 750 v then some { m with temp := v } else none
  | 50 => if within 10 90 v then some { m with hold := v.toNat } else none
  | 51 => if within reserveLine 8 v then some { m with floor := v.toNat } else none
  | 52 => if within 0 1439 v then some { m with startMinute := v.toNat } else none
  | 53 => if within 30 480 v then some { m with limit := v.toNat } else none
  | _ => none

/-- The SANITISE lease, if there is one, goes to REVOKING; one already there keeps its reason (R80). -/
def revokeSanitise (reason : LeaseOutcome) (s : State) : State :=
  match s.slotOfKind .sanitise with
  | none => s
  | some n => sendRevoking n reason s

/-- A change that returns the accumulator to 0: the temperature, the floor, or the interval set to off (R169). -/
def Sanitise.accumulatorAfter (old new : Sanitise) : Nat :=
  if old.temp ≠ new.temp ∨ old.floor ≠ new.floor ∨ (old.interval ≠ none ∧ new.interval = none) then 0
  else old.accumulator

/-- New settings written, with the consequences of R169. -/
def writeSanitise (m : Sanitise) (s : State) : State :=
  let s1 := s.modSanitise fun old => { m with accumulator := old.accumulatorAfter m }
  if s.sanitise.interval ≠ none ∧ m.interval = none then revokeSanitise .revoked s1 else s1

/-- A sanitise setting judged and set (R169). -/
def takeSanitiseSetting (number : Nat) (v : Int) (s : State) : Reply :=
  match s.sanitise.setting s.map.reserveLine number v with
  | none => .no .badField s
  | some m => if m = s.sanitise then .ok s else .ok (writeSanitise m s)

/-- SET_SANITISE_SETTING (R169). -/
def execSetSanitiseSetting (number : Nat) (value : Int) (s : State) : Host.Outcome State Fault Refusal :=
  .next (request 0x08#8 (takeSanitiseSetting number value) s)

/-- The hold has not been achieved today and the interval is on (R170). -/
def State.holdCounts (s : State) : Bool :=
  s.sanitise.interval.isSome && s.sanitise.lastDay != some s.clock.day

/-- The accumulator after a sweep (R170). -/
def State.accumulated (s : State) : Nat :=
  if s.holdCounts && s.map.valid && s.hotFromFloor then s.sanitise.accumulator + Config.sweepInterval else 0

/-- The hold is satisfied (R170). -/
def satisfyHold (s : State) : State :=
  revokeSanitise .completed <|
    (s.modSanitise fun m => { m with lastDay := some s.clock.day, accumulator := 0 }).raise .sanitiseDone

/-- The hold is reached at this sweep: by its 10 s (R170), or because the accumulator stood at or above a lowered hold
already (R169; log entry 27). -/
def State.holdReached (s : State) : Bool :=
  s.holdCounts && decide (60 * s.sanitise.hold ≤ max s.sanitise.accumulator s.accumulated)

/-- What a sweep-complete brings to the monitor (R9, R169, R170). -/
def sanitiseSweep (s : State) : State :=
  if s.holdReached then satisfyHold s else s.modSanitise fun m => { m with accumulator := s.accumulated }

/-- The day is due (R171). -/
def State.sanitiseDue (s : State) : Bool :=
  match s.sanitise.interval, s.sanitise.lastDay with
  | none, _ => false
  | some _, none => true
  | some k, some d => decide ((k : Int) ≤ (s.clock.day : Int) - d)

/-- The SANITISE lease the monitor asks for (R66). -/
def State.sanitiseLease (s : State) (holder : Nat) : Lease :=
  { Lease.withLimit (60 * s.sanitise.limit)
      (Lease.fresh .sanitise .part holder (s.entryInlet holder) s.sanitise.temp) with handovers := some 0 }

/-- A SANITISE opening on the selected station; one that is refused raises SANITISE_FAILED (R66, R171). -/
def openSanitise (holder : Nat) (s : State) : State :=
  if s.mayOpenBought holder then
    match openOffered (s.sanitiseLease holder) s with
    | none => s.raise .sanitiseFailed
    | some (_, s1) => s1
  else s.raise .sanitiseFailed

/-- An attempt, after its mark is set: the first of the four cases that holds (R171). -/
def attempt (s : State) : State :=
  if (s.slotOfKind .sanitise).isSome then s
  else if s.map.valid = false then s.raise .sanitiseFailed
  else
    match s.selectStation none s.sanitise.floor with
    | none => s.raise .sanitiseFailed
    | some holder => openSanitise holder s

/-- The daily attempt at a clock event (R171). -/
def tryAttempt (s : State) : State :=
  if s.clock.minute = s.sanitise.startMinute ∧ (s.sanitiseDue && !s.sanitise.attempted) = true then
    attempt (s.modSanitise fun m => { m with attempted := true })
  else s

end Sys2Proof.Machine
end

