-- ==== Sys2Proof/Machine/Clock.lean ====
section
/-! DEFINITION. The day clock: SET CLOCK and the advance to a new minute (§10.1). -/

namespace Sys2Proof.Machine

/-- A day change clears the attempt-today mark (R168), and a change to the last-satisfied day finds the accumulator at 0
(R170; log entry 39). -/
def takeDayChange (before : State) (s : State) : State :=
  if s.clock.day = before.clock.day then s
  else s.modSanitise fun m =>
    { m with attempted := false, accumulator := if m.lastDay = some s.clock.day then 0 else m.accumulator }

/-- A clock event, the clock standing at its new value: day change, due processing where the clock went forward,
near-due status, the recool window, the daily attempt (R167, R168, R33, R37, R106, R165, R171; log entry 22). No request
comes between the clock's new minute and its due processing (R24, R38; log entry 55). -/
def clockEvent (before : State) (s : State) : State :=
  let s1 := takeDayChange before s
  let s2 := if before.clock.now < s.clock.now then processDues s1 else s1
  tryAttempt (checkRecoolWindow (testOverlap s2))

/-- SET CLOCK judged and taken (R167). -/
def takeSetClock (day minute : Nat) (s : State) : Reply :=
  if Config.lastDay < day ∨ Config.dayMinutes ≤ minute then .no .badField s
  else .ok (clockEvent s { s with clock := { set := true, day := day, minute := minute, second := 0 } })

/-- SET_CLOCK (R167). -/
def execSetClock (day minute : Nat) (s : State) : Host.Outcome State Fault Refusal :=
  .next (request 0x02#8 (takeSetClock day minute) s)

/-- The clock stands at its last minute and does not advance (R168). -/
def Clock.atEnd (c : Clock) : Bool := c.day == Config.lastDay && c.minute == Config.dayMinutes - 1

/-- The clock one minute later (R168). -/
def Clock.nextMinute (c : Clock) : Clock :=
  if c.minute + 1 < Config.dayMinutes then { c with minute := c.minute + 1, second := 0 }
  else { c with day := c.day + 1, minute := 0, second := 0 }

/-- A set clock that is not at its end advances, which is a clock event (R168). -/
def advanceMinute (s : State) : State :=
  if s.clock.set = true ∧ s.clock.atEnd = false then closing (clockEvent s { s with clock := s.clock.nextMinute })
  else s

/-- CLOCK_MINUTE_ADVANCE (R168). -/
def execClockMinuteAdvance (s : State) : Host.Outcome State Fault Refusal := .next (advanceMinute s)

end Sys2Proof.Machine
end

