-- ==== Sys2Proof/Machine/Items.lean ====
section
/-! DEFINITION. What a station's answer brings to the part: ACCEPT, DECLINE, ACK, the parts of a STATUS and its items
(§4.4, §4.5, §4.9, §8.3). -/

namespace Sys2Proof.Machine

/-- The slot of the live lease that a handle carried by entry `i` names, when that entry holds it (R61). -/
def State.ownSlot (s : State) (i : Nat) (h : Handle) : Option Nat :=
  if (s.leaseOf? h).any fun l => l.holder == i then some h.slot else none

/-- The decline cooldown of a bought holder is set (R133). -/
def setCooldown (i : Nat) (s : State) : State :=
  if (s.entry i).cls.isBought then s.modEntry i fun e => { e with cooldown := some Config.cooldownTime } else s

/-! ### ACCEPT and DECLINE (R70 to R72) -/

/-- The acknowledged rate and the run view recorded for a lease (R139). -/
def noteRunning (n rate : Nat) (s : State) : State :=
  s.modLease n fun l => { l with ackRate := some rate, runView := some .running }

/-- An accepted lease in FINISHING where it meets its condition, and else with its rate still to place it (R70). -/
def State.acceptedAs (s : State) (l : Lease) : Lease :=
  if s.finishingMet l then { l with state := .finishing, hold := s.startHold l } else { l with state := .admitted }

/-- An OFFERED lease admitted: nothing of its offer waits any longer, it joins the admission order, enters the state that its condition and its rate give it,
the overlap is tested as it does, the arbiter acts, and a SET RATE corrects a GRANT that carried another rate (R63, R70,
R92, R105). A hold of 0 is looked at after the overlap (log entry 43). -/
def admitLease (i n grantRate : Nat) (s : State) : State :=
  let h := s.leaseHandle n
  let s1 := noteRunning n grantRate ((dropOffer i h s).modLease n s.acceptedAs)
  let s2 := resettle s (enterRate s (s1.modAdmission fun a => { a with order := a.order ++ [h] }) n)
  let s3 :=
    match s2.lease? n with
    | none => s2
    | some l =>
      if l.state.isHeating = false ∨ l.granted = grantRate then s2 else place i (.setRate h l.granted) s2
  endZeroHold n s3

/-- An ACCEPT taken from entry `i`, for a GRANT that carried a rate (R70, R72). -/
def takeAccept (i : Nat) (h : Handle) (grantRate : Nat) (s : State) : State :=
  match s.ownSlot i h with
  | none => place i (.revoke h) s.countStale
  | some n =>
    match s.leaseState? n with
    | some .offered => admitLease i n grantRate s
    | some .revoking => noteRunning n grantRate s
    | _ => s

/-- A lease of entry `i` retired as the station declines it (R71). -/
def declineLease (i n : Nat) (s : State) : State := retire n .declined (setCooldown i s)

/-- A lease in REVOKING confirmed with its final energy (R82). -/
def confirmLease (n energy : Nat) (s : State) : State :=
  let s1 := credit n energy s
  retire n (((s.lease? n).bind (·.reason)).getD .revoked) s1

/-- A DECLINE taken from entry `i` (R71, R72). -/
def takeDecline (i : Nat) (h : Handle) (s : State) : State :=
  match s.ownSlot i h with
  | none => s.countStale
  | some n =>
    match s.leaseState? n with
    | some .offered => declineLease i n s
    | some .revoking => confirmLease n 0 s
    | _ => s

/-! ### ACK (R139) -/

/-- A change of the lease that a handle names, where entry `i` holds it. -/
def modOwn (i : Nat) (h : Handle) (f : Lease → Lease) (s : State) : State :=
  match s.ownSlot i h with
  | none => s
  | some n => s.modLease n f

/-- The window of entry `i`'s trial begins, where it has not begun (R124, R139). -/
def beginWindow (i : Nat) (s : State) : State :=
  s.modRoster fun r =>
    { r with
      trial := r.trial.map fun t =>
        if t.entry = i ∧ t.window = none then { t with window := some Config.trialWindow } else t }

/-- What the acknowledged command told the station (R139). -/
def takeAck (i : Nat) (c : LinkCmd) (s : State) : State :=
  match c with
  | .setRate h rate => modOwn i h (fun l => { l with ackRate := some rate }) s
  | .suspend h => modOwn i h (fun l => { l with runView := some .suspended }) s
  | .resume h rate => modOwn i h (fun l => { l with ackRate := some rate, runView := some .running }) s
  | .qualify rate => if rate = 0 then s else beginWindow i s
  | .grant _ _ _ _ _ | .amend _ _ _ | .revoke _ | .refuse _ | .identify | .poll | .linkClear | .allStop => s

/-! ### A station's own ending of its lease (R82, R83) -/

/-- The outcome with which a lease ends at its station's own instance (R83). -/
def ownEnding (kind : LeaseKind) : LeaseOutcome := if kind.isBought then .sourceEnded else .ceased

/-- A RETIRE, a CONFIRM, or a STATUS that names no handle: the final energy is credited and the lease retires (R82, R83,
R140). -/
def endByStation (i n energy : Nat) (s : State) : State :=
  match s.lease? n with
  | none => s
  | some l =>
    if l.state = .revoking then confirmLease n energy s
    else retire n (ownEnding l.kind) (setCooldown i (credit n energy s))

/-- A RETIRE or CONFIRM item of entry `i` (R61, R82, R83). -/
def takeEnding (i : Nat) (h : Handle) (energy : Nat) (s : State) : State :=
  match s.ownSlot i h with
  | none => s.countStale
  | some n => endByStation i n energy s

/-! ### REQUEST, CHANGE and REPORT (R68, R88, R73) -/

/-- The reason for which a REQUEST is refused (R68). -/
def State.requestFault (s : State) (i : Nat) : Option RefuseReason :=
  if s.admission.halted then some .halted
  else if s.map.valid = false then some .mapInvalid
  else if (s.entry i).state ≠ .ready then some .notReady
  else if (s.entry i).cls.isBought then some .boughtSource
  else if (s.slotHeldBy i).isSome then some .holdsLease
  else none

/-- The FREE lease that a REQUEST asks for (R68). -/
def State.freeLease (s : State) (i offer : Nat) : Lease :=
  { Lease.fresh .free .station i (s.entryInlet i) s.map.thetaMax with offer := offer }

/-- A REQUEST item (R68). -/
def takeRequest (i offer : Nat) (s : State) : State :=
  match s.requestFault i with
  | some reason => place i (.refuse reason) s
  | none =>
    match openOffered (s.freeLease i offer) s with
    | none => s
    | some (_, s1) => s1

/-- A CHANGE item (R88). -/
def takeChange (i offer : Nat) (s : State) : State :=
  match s.slotHeldBy i with
  | none => s.countStale
  | some n =>
    if (s.lease? n).any fun l => l.kind == .free then
      resettle s (s.modLease n fun l => { l with offer := offer })
    else s.countStale

/-- A SUSPENDED lease whose station has gone on heating is told again (R108). -/
def suspendAgain (i n : Nat) (s : State) : State :=
  match s.lease? n with
  | none => s
  | some l =>
    match l.saved with
    | none => s
    | some ctx =>
      if l.state = .suspended ∧ ctx.deliveredMark + 100 < l.delivered then
        place i (.suspend (s.leaseHandle n)) <|
          s.modLease n fun l => { l with saved := some { ctx with deliveredMark := l.delivered } }
      else s

/-- A REPORT credited to the lease in slot `n` (R73, R100, R108). -/
def creditReport (i n energy : Nat) (limited : Bool) (s : State) : State :=
  testFinishingUnlessSanitise n (noteLimited n limited (suspendAgain i n (credit n energy s)))

/-- The supply temperature of the latest REPORT is kept (R73). -/
def keepSupply (i : Nat) (supply : Temp) (s : State) : State :=
  s.modStation i fun t => { t with supply := some supply }

/-- A REPORT item: to the running trial of the entry, else to the lease it holds (R73, R125, R141). -/
def takeReport (i energy : Nat) (supply : Temp) (limited : Bool) (s : State) : State :=
  let s1 := keepSupply i supply s
  match s1.roster.trial.filter fun t => t.entry == i with
  | some t => reportToTrial t energy s1
  | none =>
    match s1.slotHeldBy i with
    | none => s1.countStale
    | some n => creditReport i n energy limited s1

/-- An item routed by its kind (R141). -/
def routeItem (i : Nat) (x : Item) (s : State) : State :=
  match x with
  | .request rate => takeRequest i rate s
  | .change rate => takeChange i rate s
  | .report energy supply limited => takeReport i energy supply limited s
  | .retire h energy => takeEnding i h energy s
  | .confirm h energy => takeEnding i h energy s

/-! ### STATUS (R139, R140) -/

/-- A STATUS naming a handle that is not the entry's own (R140). -/
def revokeBelieved (i : Nat) (h : Handle) (s : State) : State :=
  if anyWaiting (·.isRevoke h) (s.station i).queue then s else place i (.revoke h) s.countStale

/-- The handle of a STATUS checked (R140). -/
def checkHandle (i : Nat) (believed : Option Handle) (s : State) : State :=
  match believed, s.slotHeldBy i with
  | some h, none => revokeBelieved i h s
  | some h, some n => if s.leaseHandle n = h then s else revokeBelieved i h s
  | none, none => s
  | none, some n =>
    if (s.lease? n).any fun l => l.state == .offered then s else endByStation i n 0 s

/-- The flags of the latest STATUS kept with the time of the answer, and the heard mark of a roll call (R139, R147). -/
def recordFlags (i : Nat) (flags : Byte) (s : State) : State :=
  let s1 := s.modStation i fun t =>
    { t with
      status := some { flags := flags, day := s.clock.day, minute := s.clock.minute, second := s.clock.second } }
  s1.modLink fun k => { k with roll := k.roll.map fun r => { r with heard := r.heard || flags.getLsbD 0 } }

/-- An entry leaves IDENTIFYING at its first STATUS (R123). -/
def leaveIdentifying (i : Nat) (s : State) : State :=
  if (s.entry i).state = .identifying then
    if (s.entry i).cls.isBought then tryTrial (s.modEntry i fun e => { e with state := .qualifying, failures := 0 })
    else s.modEntry i fun e => { e with state := .ready }
  else s

/-- An item from a LOST entry's address is set aside; a REPORT among them is a stale item (R128). -/
def setAside (item : Option Item) (s : State) : State :=
  match item with
  | some (.report _ _ _) => s.countStale
  | _ => s

/-- A STATUS taken in the order of its parts (R139). -/
def takeStatus (i : Nat) (flags : Byte) (believed : Option Handle) (item : Option Item) (s : State) : State :=
  if (s.entry i).state = .lost then setAside item s
  else
    let s1 := recordFlags i flags (checkHandle i believed s)
    leaveIdentifying i (match item with
      | none => s1
      | some x => routeItem i x s1)

end Sys2Proof.Machine
end

