-- ==== Sys2Proof/Machine/Exchange.lean ====
section
/-! DEFINITION. The end of an exchange: good, failed or broadcast, and the answers' commands (§8.1, §8.3, §8.4). -/

namespace Sys2Proof.Machine

/-! ### Enumeration and discovery at an exchange's end (R146, R148, R149) -/

/-- The roster indexes that are not ABSENT, ascending. -/
def State.presentEntries (s : State) : List Nat := stationIndexes.filter s.isPresent

/-- The schedule that an enumeration leaves: slots 1 to 4n hold the entries round-robin (R149). -/
def roundRobin (l : List Nat) : Vector Nat 32 :=
  Vector.ofFn fun k : Fin 32 => if k.val < 4 * l.length then l.getD (k.val % l.length) 0 else 0

/-- An enumeration ends: the schedule is rebuilt and the discovery timer restarts (R148, R149). -/
def endEnumeration (s : State) : State :=
  s.modLink fun k =>
    { k with
      enumeration := .idle, schedule := roundRobin s.presentEntries, cursor := 1
      discoveryTimer := some Config.discoveryTime, probeDue := false, pairProbe := none }

/-- The exchange with address 30 ends an enumeration (R149). -/
def afterEnumerated (x : Exchange) (s : State) : State :=
  if x.source = .enumeration ∧ x.addr = 30 then endEnumeration s else s

/-- The four lowest-numbered empty slots take an index, or as many as are empty (R146). -/
def fillSlots (i : Nat) : Nat → List Nat → List Nat
  | _, [] => []
  | 0, slots => slots
  | left + 1, x :: rest => if x = 0 then i :: fillSlots i left rest else x :: fillSlots i (left + 1) rest

/-- Slots for an entry that a discovery probe created and no slot names (R146). -/
def giveSlots (i : Nat) (s : State) : State :=
  if s.link.schedule.toList.contains i then s
  else
    s.modLink fun k =>
      { k with schedule := Vector.ofFn fun j : Fin 32 => (fillSlots i 4 k.schedule.toList).getD j.val 0 }

/-- A base that a probe created calls for a probe of the address above it (R148), in the place of one that an earlier base
still waits for (log entry 52). -/
def probePartner (i addr : Nat) (s : State) : State :=
  if (s.entry i).baseMark then s.modLink fun k => { k with pairProbe := some (addr + 1) } else s

/-- What follows when a discovery probe has created an entry (R146, R148). -/
def afterProbed (x : Exchange) (before : State) (s : State) : State :=
  if x.source = .discovery ∧ before.indexAt x.addr = none then
    match s.indexAt x.addr with
    | none => s
    | some i => probePartner i x.addr (giveSlots i s)
  else s

/-! ### Failure (R137, R144) -/

/-- A command in a list of waiting ones at a place. -/
def insertAt (place : Nat) (x : Queued) (q : List Queued) : List Queued := q.take place ++ x :: q.drop place

/-- A command that waits for entry `i` would have removed or replaced the one that returns, or is another of its kind for
its lease (R142, R144). -/
def State.replacedIn (s : State) (i : Nat) (c : LinkCmd) : Bool :=
  anyWaiting (fun d => overtakes d c || (d.handle? == c.handle? && d.code == c.code)) (s.station i).queue

/-- The lease that a returning command names is its entry's, in a state in which the command may wait; a REVOKE that bore
no lease when it was sent names none (R142, R143, R144; log entry 49). -/
def State.takesBack (s : State) (i : Nat) (x : Exchange) : Bool :=
  match x.cmd.handle? with
  | none => true
  | some h =>
    if s.bears i x.cmd then (s.leaseOf? h).any fun l => l.state.mayWait x.cmd else x.cmd.isRevoke h && !x.bore

/-- A returning command is dropped: one placed meanwhile, or one that waits, overtakes it, its lease has retired or is no
longer its entry's, or it is a GRANT for one that has left OFFERED (R144). -/
def State.isOvertaken (s : State) (i : Nat) (x : Exchange) : Bool :=
  x.overtaken || s.replacedIn i x.cmd || !s.takesBack i x

/-- The queue to which a command returns: a REVOKE finds no other command for its lease waiting (R143; log entry 13). -/
def clearedFor (c : LinkCmd) (q : List Queued) : List Queued :=
  match c with
  | .revoke h => removeAll (fun x => x.handle? == some h) q
  | .grant _ _ _ _ _ | .amend _ _ _ | .setRate _ _ | .suspend _ | .resume _ _ | .qualify _ | .refuse _ | .identify | .poll
  | .linkClear | .allStop => q

/-- A command of a failed exchange returns to the place it held, counted from the head, room being made for it, or is
dropped (R142, R144; log entry 47). -/
def returnCommand (i : Nat) (x : Exchange) (s : State) : State :=
  match x.source with
  | .queue place age =>
    if s.isOvertaken i x then s
    else
      s.modStation i fun t =>
        { t with queue := insertAt place { cmd := x.cmd, age := age } (makeRoom (s.bears i) (clearedFor x.cmd t.queue)) }
  | .broadcast | .rollCall | .enumeration | .discovery | .schedule => s

/-- An exchange with one station fails: its command returns and a missed exchange is counted; with an address no entry
holds it is silence (R137, R144). -/
def failExchange (x : Exchange) (s : State) : State :=
  let s1 := s.modLink fun k => { k with exchange := none }
  let s2 :=
    match s1.indexAt x.addr with
    | none => s1
    | some i => countMiss i (returnCommand i x s1)
  closing (afterEnumerated x s2)

/-! ### A good exchange (R137, R139) -/

/-- The rate that a GRANT carried. -/
def grantRate : LinkCmd → Nat
  | .grant _ _ rate _ _ => rate
  | _ => 0

/-- The STATUS has its fault bit set: taken in every other respect, but counted as missed (R137). -/
def LinkAnswer.hasFault : LinkAnswer → Bool
  | .status flags _ _ => flags.getLsbD 3
  | .identity _ | .accept _ | .decline _ | .ack _ => false

/-- An answer of entry `i` handed to the block that owns what it concerns (R139). -/
def handAnswer (i : Nat) (x : Exchange) (a : LinkAnswer) (s : State) : State :=
  match a with
  | .identity d => takeIdentity x.addr d s
  | .status flags believed item => takeStatus i flags believed item s
  | .accept h => takeAccept i h (grantRate x.cmd) s
  | .decline h => takeDecline i h s
  | .ack _ => takeAck i x.cmd s

/-- A good answer of entry `i` counted (R137). -/
def countAnswer (i : Nat) (a : LinkAnswer) (s : State) : State := if a.hasFault then countMiss i s else s

/-- A good exchange ends (R137, R139). From an address whose entry has been forgotten meanwhile, an IDENTITY alone is taken
(log entry 51). -/
def goodExchange (x : Exchange) (a : LinkAnswer) (s : State) : State :=
  let s1 := s.modLink fun k => { k with exchange := none }
  let s2 :=
    match s1.indexAt x.addr, a with
    | some i, _ => countAnswer i a (handAnswer i x a (if a.hasFault then s1 else countGood i s1))
    | none, .identity d => takeIdentity x.addr d s1
    | none, _ => s1
  closing (afterEnumerated x (afterProbed x s s2))

/-! ### Answers -/

/-- The exchange with one station that is in flight. -/
def State.stationExchange? (s : State) : Option Exchange := s.link.exchange.filter fun x => x.addr != allStations

/-- An answer from an address: it makes the exchange in flight good, or fails it where it comes from another address or
is of a kind the command does not allow; with no exchange awaiting an answer it is not taken (R137, R152). -/
def takeAnswer (addr : Nat) (a : LinkAnswer) (s : State) : State :=
  match s.stationExchange? with
  | none => s
  | some x => if addr = x.addr ∧ x.cmd.allows a = true then goodExchange x a s else failExchange x s

/-- IDENTITY (R122, R129, R130, R131). -/
def execIdentity (addr : Nat) (fields : Identity) (s : State) : Host.Outcome State Fault Refusal :=
  .next (takeAnswer addr (.identity fields) s)

/-- STATUS (R139, R140, R141). -/
def execStatus (addr : Nat) (flags : Byte) (handle : Option Handle) (item : Option Item) (s : State) :
    Host.Outcome State Fault Refusal :=
  .next (takeAnswer addr (.status flags handle item) s)

/-- ACCEPT (R70, R72). -/
def execAccept (addr : Nat) (h : Handle) (s : State) : Host.Outcome State Fault Refusal :=
  .next (takeAnswer addr (.accept h) s)

/-- DECLINE (R71, R72). -/
def execDecline (addr : Nat) (h : Handle) (s : State) : Host.Outcome State Fault Refusal :=
  .next (takeAnswer addr (.decline h) s)

/-- ACK (R139). -/
def execAck (addr : Nat) (kind : Byte) (s : State) : Host.Outcome State Fault Refusal :=
  .next (takeAnswer addr (.ack kind) s)

/-- The bytes of an answer: taken as the answer they spell, or, where they are partial or not well formed, the exchange
fails (R136, R137). -/
def takeAnswerBytes (bytes : List Byte) (s : State) : State :=
  match answerOfBytes bytes with
  | some (addr, a) => takeAnswer addr a s
  | none =>
    match s.stationExchange? with
    | none => s
    | some x => failExchange x s

/-- ANSWER_REJECTED (R137). -/
def execAnswerRejected (bytes : List Byte) (s : State) : Host.Outcome State Fault Refusal :=
  .next (takeAnswerBytes bytes s)

/-- No answer begins within the window (R137). -/
def expireWindow (s : State) : State :=
  match s.stationExchange? with
  | none => s
  | some x => failExchange x s

/-- ANSWER_WINDOW_EXPIRY (R137). -/
def execAnswerWindowExpiry (s : State) : Host.Outcome State Fault Refusal := .next (expireWindow s)

/-- A broadcast's exchange ends; the LINK CLEAR that an enumeration waited for begins it (R137, R149). -/
def endBroadcast (s : State) : State :=
  match s.link.exchange with
  | none => s
  | some x =>
    if x.addr = allStations then
      s.modLink fun k =>
        if x.cmd = .linkClear ∧ k.enumeration = .due ∧ k.linkClear = false then
          { k with exchange := none, enumeration := .running 1, discoveryTimer := none }
        else { k with exchange := none }
    else s

/-- BROADCAST_EXCHANGE_END (R137). -/
def execBroadcastExchangeEnd (s : State) : Host.Outcome State Fault Refusal := .next (endBroadcast s)

end Sys2Proof.Machine
end

