-- ==== Sys2Proof/Machine/Leases.lean ====
section
/-! DEFINITION. The lease table's commands: OPEN BOOST, REVOKE LEASE, the timers of a lease, the lease and rate
parameters, HALT and RESUME ALL (chapters 4 to 6). -/

namespace Sys2Proof.Machine

/-! ### OPEN BOOST (R67) -/

/-- The fields of OPEN BOOST lie in their ranges (R67 check 1). -/
def State.boostFieldsOk (s : State) (index : Nat) (ceiling : Temp) (minutes : Nat) (budget : Option Nat) : Bool :=
  decide (1 ≤ index) && decide (index ≤ 7) && decide (10 ≤ minutes) && decide (minutes ≤ 480)
    && budget.all (fun b => decide (100 ≤ b) && decide (b ≤ 60000)) && decide (350 ≤ ceiling)
    && decide (ceiling ≤ s.map.thetaMax)

/-- The BOOST lease that the host asks for. -/
def State.boostLease (s : State) (index : Nat) (ceiling : Temp) (minutes : Nat) (budget : Option Nat) : Lease :=
  { Lease.withLimit (60 * minutes) (Lease.fresh .boost .host index (s.entryInlet index) ceiling) with budget := budget }

/-- OPEN BOOST judged and taken (R67). -/
def takeOpenBoost (index : Nat) (ceiling : Temp) (minutes : Nat) (budget : Option Nat) (s : State) : Reply :=
  if s.boostFieldsOk index ceiling minutes budget = false then .no .badField s
  else if (s.admission.halted || !s.map.valid) = true then .no .wrongState s
  else if (s.eligible index && s.budgetAllows index) = false then .no .notEligible s
  else
    match openOffered (s.boostLease index ceiling minutes budget) s with
    | none => .no .notEligible s
    | some (h, s1) => .okWith [leaseByte h] s1

/-- OPEN_BOOST (R67). -/
def execOpenBoost (index : Nat) (ceiling : Temp) (minutes : Nat) (budget : Option Nat) (s : State) :
    Host.Outcome State Fault Refusal :=
  .next (request 0x18#8 (takeOpenBoost index ceiling minutes budget) s)

/-! ### REVOKE LEASE (R81) -/

/-- A request on a lease named by handle: the handle is resolved first (R61). -/
def withLease (h : Handle) (work : Lease → State → Reply) (s : State) : Reply :=
  match (s.resolveLease h).status with
  | some st => .no st s
  | none =>
    match s.lease? h.slot with
    | none => .no .noSuch s
    | some l => work l s

/-- REVOKE LEASE on a live lease (R81). -/
def revokeNamed (h : Handle) (l : Lease) (s : State) : Reply :=
  if l.kind = .solar ∨ l.state = .revoking then .no .wrongState s else .ok (sendRevoking h.slot .revoked s)

/-- REVOKE_LEASE (R81). -/
def execRevokeLease (h : Handle) (s : State) : Host.Outcome State Fault Refusal :=
  .next (request 0x19#8 (withLease h (revokeNamed h)) s)

/-! ### Timers (R74, R77, R82) -/

/-- The states in which the duration timer runs (R74). -/
def LeaseState.counts : LeaseState → Bool
  | .admitted | .throttled | .finishing => true
  | .offered | .suspended | .revoking => false

/-- The duration of the lease in slot `n` expires (R74). -/
def expireDuration (n : Nat) (l : Lease) (s : State) : State :=
  sendRevoking n .expired <|
    (s.modLease n fun l => { l with timer := some 0 }).raiseIf (l.kind == .sanitise) .sanitiseFailed

/-- A running duration timer reaches 0. -/
def endDuration (h : Handle) (s : State) : State :=
  match s.leaseOf? h with
  | none => s
  | some l => if l.timer.isSome && l.state.counts then closing (expireDuration h.slot l s) else s

/-- DURATION_EXPIRY (R74). -/
def execDurationExpiry (h : Handle) (s : State) : Host.Outcome State Fault Refusal := .next (endDuration h s)

/-- A running finishing hold reaches 0 (R77). -/
def endHold (h : Handle) (s : State) : State :=
  match s.leaseOf? h with
  | none => s
  | some l =>
    if l.hold.isSome && l.state == .finishing then closing (sendRevoking h.slot .completed s) else s

/-- FINISHING_HOLD_EXPIRY (R77). -/
def execFinishingHoldExpiry (h : Handle) (s : State) : Host.Outcome State Fault Refusal := .next (endHold h s)

/-- The revoke time of a lease in REVOKING reaches 0 (R82). -/
def endRevokeTime (h : Handle) (s : State) : State :=
  match s.leaseOf? h with
  | none => s
  | some l =>
    if l.state = .revoking then
      closing <| retire h.slot (l.reason.getD .revoked) <|
        s.modAdmission fun a => { a with revokeTimeouts := satInc a.revokeTimeouts }
    else s

/-- REVOKE_TIMEOUT (R82). -/
def execRevokeTimeout (h : Handle) (s : State) : Host.Outcome State Fault Refusal := .next (endRevokeTime h s)

/-! ### Parameters (R75, R89, R94) -/

/-- The lease parameters with number 16 to 18 set to a value (R75). -/
def Admission.setLease (a : Admission) (number : Nat) (v : Int) : Option Admission :=
  match number with
  | 16 => if within 30 480 v then some { a with topUpLimit := v.toNat } else none
  | 17 => if within 0 30 v then some { a with finishHold := v.toNat } else none
  | 18 => (onOff v).map fun b => { a with halfRate := b }
  | _ => none

/-- A lease parameter judged and set (R75). -/
def takeLeaseParameter (number : Nat) (v : Int) (s : State) : Reply :=
  match s.admission.setLease number v with
  | none => .no .badField s
  | some a => .ok (s.modAdmission fun _ => a)

/-- SET_LEASE_PARAMETER (R75). -/
def execSetLeaseParameter (number : Nat) (value : Int) (s : State) : Host.Outcome State Fault Refusal :=
  .next (request 0x08#8 (takeLeaseParameter number value) s)

/-- The site power budget judged and set, in units of 100 W; the arbiter acts (R94, R96, R97). -/
def takeSiteBudget (v : Int) (s : State) : Reply :=
  if within 0 200 v = false then .no .badField s
  else if s.admission.siteBudget = 100 * v.toNat then .ok s
  else .ok (settling (fun t => t.modAdmission fun a => { a with siteBudget := 100 * v.toNat }) s)

/-- SET_SITE_POWER_BUDGET (R94). -/
def execSetSitePowerBudget (value : Int) (s : State) : Host.Outcome State Fault Refusal :=
  .next (request 0x08#8 (takeSiteBudget value) s)

/-- The solar rating judged and set, in units of 100 W; the SOLAR lease's entitlement and rate follow (R89). -/
def takeSolarRating (v : Int) (s : State) : Reply :=
  if within 5 150 v = false then .no .badField s
  else if s.admission.rating = 100 * v.toNat then .ok s
  else .ok (resettle s (s.modAdmission fun a => { a with rating := 100 * v.toNat }))

/-- SET_SOLAR_RATING (R89). -/
def execSetSolarRating (value : Int) (s : State) : Host.Outcome State Fault Refusal :=
  .next (request 0x08#8 (takeSolarRating value) s)

/-! ### HALT and RESUME ALL (R116, R117) -/

/-- The lease in slot `n` retired by a halt, whatever its state (R116). -/
def haltLease (s : State) (n : Nat) : State := dismiss n .revoked s

/-- A loop in RECOOLING stops at a halt (R161). -/
def haltRecooling (s : State) : State := if s.solar.state = .recooling then stopLoop .off s else s

/-- A part that was not halted is halted: every lease retires, the trial stops, the loop stops (R116, R126, R161). No
lease is left for the arbiter to act on. -/
def enterHalt (s : State) : State :=
  let s1 := s.modAdmission fun a => { a with halted := true }
  noteEligible s (haltRecooling (stopTrial (upTo8.foldl haltLease s1)))

/-- HALT taken (R116): an ALL STOP is made pending in either case. -/
def takeHalt (s : State) : Reply :=
  .ok ((if s.admission.halted then s else enterHalt s).modLink fun k => { k with allStop := true })

/-- HALT (R116). -/
def execHalt (s : State) : Host.Outcome State Fault Refusal := .next (request 0x38#8 takeHalt s)

/-- RESUME ALL judged and taken (R117, R124). -/
def takeResumeAll (s : State) : Reply :=
  if s.admission.halted then
    .ok (tryTrial (passStart (s.modAdmission fun a => { a with halted := false })))
  else .no .wrongState s

/-- RESUME_ALL (R117). -/
def execResumeAll (s : State) : Host.Outcome State Fault Refusal := .next (request 0x39#8 takeResumeAll s)

end Sys2Proof.Machine
end

