-- ==== Sys2Proof/Machine/Service.lean ====
section
/-! DEFINITION. The service port's own commands: placing and reading answers, events, mask, counters, and the two resets
(chapter 11). -/

namespace Sys2Proof.Machine

/-! ### Answers placed and read (R173, R175) -/

/-- The answer of the work in hand is placed: HELD, and answer-ready asserted (R173). -/
def Port.placeAnswer (p : Port) : Port :=
  match p.state with
  | .working a => { p with state := .held a, ready := true }
  | .empty | .held _ => p

/-- ANSWER_PLACED (R173). -/
def execAnswerPlaced (s : State) : Host.Outcome State Fault Refusal := .next (s.modPort Port.placeAnswer)

/-- The answer that a read returns: the one held, BUSY naming the request in work, or BAD_FRAME with a field of 0x00
(R173, R175). -/
def PortState.toRead : PortState → Answer
  | .held a => a
  | .working a => { status := .busy, code := a.code, fields := [] }
  | .empty => { status := .badFrame, code := 0#8, fields := [] }

/-- The bytes that `clocked` clocks shift out of a frame: the frame, then 0xFF (R173). -/
def shiftOut (frame : List Byte) (clocked : Nat) : List Byte :=
  frame.take clocked ++ List.replicate (clocked - frame.length) 0xFF#8

/-- The port holds an answer. -/
def PortState.isHeld : PortState → Bool
  | .held _ => true
  | .empty | .working _ => false

/-- An answer read of a number of bytes: answer-ready is deasserted once a held answer's CRC byte has been shifted out
(R173). -/
def Port.read (clocked : Nat) (p : Port) : Port :=
  let frame := p.state.toRead.frame
  { p with
    dataOut := shiftOut frame clocked
    ready := p.ready && !(p.state.isHeld && decide (frame.length ≤ clocked)) }

/-- ANSWER_READ (R173, R175). -/
def execAnswerRead (clocked : Nat) (s : State) : Host.Outcome State Fault Refusal :=
  .next (s.modPort (Port.read clocked))

/-! ### Events, mask and counters (R177 to R179) -/

/-- A request of the port's own: it is answered OK with fields read before it is taken, and its change is made. -/
def portRequest (code : Byte) (read : State → List Byte) (change : State → State) (s : State) : State :=
  if s.isWorking then s else (change s).answering code .ok (read s)

/-- A 16-bit register's bytes. -/
def bitsBytes (v : BitVec 16) : List Byte := be16 v.toNat

/-- READ EVENTS' fields: the flags, the mask and the five current status bytes (R178). -/
def eventBytes (s : State) : List Byte :=
  bitsBytes s.port.flags ++ bitsBytes s.port.mask ++ mark s.map.valid ++ mark s.clock.set ++ [s.solar.state.pos]
    ++ mark (s.link.enumeration != .idle) ++ mark s.admission.halted

/-- Every flag cleared (R178). -/
def clearFlags (s : State) : State := s.modPort fun p => { p with flags := 0#16 }

/-- READ_EVENTS (R178). -/
def execReadEvents (s : State) : Host.Outcome State Fault Refusal :=
  .next (portRequest 0x30#8 eventBytes clearFlags s)

/-- The mask replaced (R177). -/
def writeMask (m : BitVec 16) (s : State) : State := s.modPort fun p => { p with mask := m }

/-- SET_MASK (R177). -/
def execSetMask (m : BitVec 16) (s : State) : Host.Outcome State Fault Refusal :=
  .next (portRequest 0x31#8 (fun _ => []) (writeMask m) s)

/-- READ COUNTERS' fields (R179). -/
def counterBytes (s : State) : List Byte :=
  be16 s.link.ghostCalls ++ be16 s.link.stuckCalls ++ be16 s.link.badIdentities ++ be16 s.link.staleItems
    ++ be16 s.book.starved ++ be16 s.admission.revokeTimeouts ++ be32 s.admission.freeHeat

/-- The six saturating counters cleared (R179). -/
def clearCounters (s : State) : State :=
  ((s.modLink fun k => { k with ghostCalls := 0, stuckCalls := 0, badIdentities := 0, staleItems := 0 }).modBook
    fun k => { k with starved := 0 }).modAdmission fun a => { a with revokeTimeouts := 0 }

/-- READ_COUNTERS (R179). -/
def execReadCounters (s : State) : Host.Outcome State Fault Refusal :=
  .next (portRequest 0x32#8 counterBytes clearCounters s)

/-! ### The resets (R180) -/

/-- POWER_ON: every block takes its power-on state; the commands that wait are the environment's and stay. -/
def execPowerOn (s : State) : Host.Outcome State Fault Refusal := .next { State.reset with pending := s.pending }

/-- The flags after a RESET request: CLOCK_UNSET alone, and only while the clock is UNSET (R180). -/
def resetFlags (c : Clock) : BitVec 16 := if c.set then 0#16 else EventFlag.one .clockUnset

/-- The port while a RESET request is in work (R180). -/
def resetPort (c : Clock) : Port :=
  { Port.initial with
    state := .working { status := .ok, code := 0x3F#8, fields := [] }, flags := resetFlags c }

/-- The link after a RESET request: as after power-on, with an ALL STOP before the LINK CLEAR; the call line is a pin
and keeps its level (R152). -/
def resetLink (callLow : Bool) : Link := { Link.initial with allStop := true, callLow := callLow }

/-- A RESET request taken: every block but the day clock takes its reset state (R180). -/
def takeReset (s : State) : State :=
  { State.reset with
    clock := s.clock, link := resetLink s.link.callLow, port := resetPort s.clock, pending := s.pending }

/-- RESET (R180). -/
def execReset (s : State) : Host.Outcome State Fault Refusal := .next (if s.isWorking then s else takeReset s)

end Sys2Proof.Machine
end

