-- ==== Sys2Proof/Machine/Probes.lean ====
section
/-! DEFINITION. Readings judged and filed, the median, the filling of faulted strata and the cylinder guard (R2 to R7,
R15). -/

namespace Sys2Proof.Machine

/-- A probe's valid range (chapter 1). -/
structure ProbeRange where
  lo : Temp
  hi : Temp
deriving DecidableEq, Repr

def stratumRange : ProbeRange := { lo := -100, hi := 1100 }
def collectorRange : ProbeRange := { lo := -400, hi := 2200 }
def returnRange : ProbeRange := { lo := -200, hi := 1600 }

/-- A reading inside its probe's range, both ends included. -/
def ProbeRange.accepts (r : ProbeRange) (x : Temp) : Bool := decide (r.lo ≤ x) && decide (x ≤ r.hi)

/-- A history with a reading added as its newest and no more than three kept (R2). -/
def addReading (h : List Temp) (x : Temp) : List Temp := (h ++ [x]).drop (h.length - 2)

/-- A probe after a reading (R2, R4). -/
def Probe.file (r : ProbeRange) (x : Temp) (p : Probe) : Probe :=
  if r.accepts x then
    let h := addReading p.history x
    { state := if p.state = .valid ∨ h.length = 3 then .valid else .faulted, history := h }
  else { state := .faulted, history := [] }

/-- The median of three. -/
def median3 (a b c : Temp) : Temp := max (min a b) (min (max a b) c)

/-- The filtered temperature of a history (R3). -/
def filtered : List Temp → Temp
  | [] => 0
  | [a] => a
  | [a, b] => min a b
  | a :: b :: c :: _ => median3 a b c

/-- The probe is VALID. -/
def Probe.isValid (p : Probe) : Bool := p.state == .valid

/-- The stratum that gives stratum `n` its temperature: itself, else the nearest VALID one below, else the nearest VALID
one above (R5). -/
def fillSource (valid : Nat → Bool) (n : Nat) : Option Nat :=
  match (upTo8.reverse.filter fun k => decide (k ≤ n)).find? valid with
  | some k => some k
  | none => (upTo8.filter fun k => decide (n < k)).find? valid

/-- The guard state (R15). -/
def guardOf (valid : Bool) (s8 thetaMax : Temp) : GuardState :=
  if valid = false then .shut
  else if s8 < thetaMax - 30 then .clear
  else if s8 < thetaMax then .half
  else .shut

/-- The readings of the strata, S1 to S8. -/
def stratumReadings (r : Readings) : List Temp := [r.s1, r.s2, r.s3, r.s4, r.s5, r.s6, r.s7, r.s8]

/-- The reading of stratum `n`. -/
def readingOf (r : Readings) (n : Nat) : Temp := (stratumReadings r).getD (n - 1) 0

/-- Stratum `n` of a map. -/
def StratumMap.stratum (m : StratumMap) (n : Nat) : Stratum := tget m.strata (n - 1) .initial

/-- The probe of stratum `n` after its reading. -/
def StratumMap.filedProbe (m : StratumMap) (r : Readings) (n : Nat) : Probe :=
  (m.stratum n).probe.file stratumRange (readingOf r n)

/-- The map is VALID after these readings: at least one stratum probe is VALID (R7). -/
def StratumMap.validAfter (m : StratumMap) (r : Readings) : Bool := upTo8.any fun n => (m.filedProbe r n).isValid

/-- The temperature of stratum `n` after these readings; frozen where no stratum probe is VALID (R3, R5, R7). -/
def StratumMap.tempAfter (m : StratumMap) (r : Readings) (n : Nat) : Temp :=
  match fillSource (fun k => (m.filedProbe r k).isValid) n with
  | some k => filtered (m.filedProbe r k).history
  | none => (m.stratum n).temp

/-- Stratum `n` after these readings. -/
def StratumMap.stratumAfter (m : StratumMap) (r : Readings) (n : Nat) : Stratum :=
  { m.stratum n with probe := m.filedProbe r n, temp := m.tempAfter r n }

/-- The collector or return probe after a reading: its filtered temperature while VALID, else held (R6). -/
def LoopProbe.file (range : ProbeRange) (x : Temp) (p : LoopProbe) : LoopProbe :=
  let q := p.probe.file range x
  { probe := q, temp := if q.isValid then filtered q.history else p.temp }

/-- The map that a sweep-complete publishes (R1 to R7, R15). -/
def StratumMap.afterSweep (m : StratumMap) (r : Readings) : StratumMap :=
  let valid := m.validAfter r
  { m with
    strata := Vector.ofFn fun i : Fin 8 => m.stratumAfter r (i.val + 1)
    collector := m.collector.file collectorRange r.collector
    loopReturn := m.loopReturn.file returnRange r.loopReturn
    valid := valid
    guard := guardOf valid (m.tempAfter r 8) m.thetaMax
    sweeping := false
    swept := true }

/-- The ten probes of a map. -/
def StratumMap.probes (m : StratumMap) : List Probe :=
  m.strata.toList.map (·.probe) ++ [m.collector.probe, m.loopReturn.probe]

/-- Some probe went from VALID to FAULTED between two maps (R2). -/
def someProbeFell (old new : StratumMap) : Bool :=
  (old.probes.zip new.probes).any fun p => p.1.isValid && !p.2.isValid

/-- MAP_INVALID is raised: the map turned INVALID, or the first sweep after a reset left it so (R7). -/
def invalidRaised (old new : StratumMap) : Bool := !new.valid && (old.valid || !old.swept)

end Sys2Proof.Machine
end

