-- ==== Sys2Proof/Machine/Sweep.lean ====
section
/-! DEFINITION. The measurement sequencer's commands: SWEEP_START, SWEEP_COMPLETE with all that follows from it, and the
cylinder parameters (chapter 1, R118). -/

namespace Sys2Proof.Machine

/-- SWEEP_START (R1): a sweep begins, and the next follows 10 s later. -/
def execSweepStart (s : State) : Host.Outcome State Fault Refusal :=
  .next (s.modMap fun m => { m with sweeping := true, sweepIn := Config.sweepInterval })

/-- The new map published, with the flags of its probes and its validity (R2, R7, R8). -/
def publishMap (r : Readings) (s : State) : State :=
  let new := s.map.afterSweep r
  ((s.modMap fun _ => new).raiseIf (someProbeFell s.map new) .probeFault).raiseIf (invalidRaised s.map new) .mapInvalid

/-- The admission controller takes the published guard state (R91). -/
def State.withGuard (s : State) : State := s.modAdmission fun a => { a with guard := s.map.guard }

/-- The admission controller takes the guard state that a change of θmax gives, and every rate follows (R91). -/
def takeGuard (before : State) (s : State) : State := resettle before s.withGuard

/-- A lease that the loss of the map ends (R118): every bought lease, and a FREE lease in OFFERED. -/
def Lease.endsWithMap (l : Lease) : Bool := l.kind.isBought || (l.kind == .free && l.state == .offered)

/-- The lease in slot `n` at the map-invalid event, before the arbiter acts (R118). -/
def loseMapFor (s : State) (n : Nat) : State :=
  if (s.lease? n).any Lease.endsWithMap then beginEnding n .revoked s else s

/-- The map-invalid event, before the arbiter acts: the leases, and the trial called off (R118, R126). -/
def loseMap (s : State) : State := stopTrial (upTo8.foldl loseMapFor s)

/-- The FREE lease in slot `n` is told its rate at the map-valid event, whether or not it changed (R118). -/
def tellFree (s : State) (n : Nat) : State :=
  match s.lease? n with
  | none => s
  | some l =>
    if l.kind = .free ∧ l.state.isRunning = true then place l.holder (.setRate (s.leaseHandle n) l.granted) s else s

/-- What the admission controller does with a published map: it takes the guard and the loss of the map, every rate
follows, and a map that returns has every FREE lease told its rate (R91, R118). -/
def admitMap (before : State) (s : State) : State :=
  let s1 := s.withGuard
  let s2 := resettle before (if before.map.valid && !s.map.valid then loseMap s1 else s1)
  if !before.map.valid && s.map.valid then upTo8.foldl tellFree s2 else s2

/-- The finishing tests of a sweep-complete, in ascending slot (R76, R78; log entry 33). -/
def testAllFinishing (s : State) : State := upTo8.foldl (fun t n => testFinishing n t) s

/-- What the published map brings to the blocks (R8, R9; log entry 10). -/
def announceMap (before : State) (s : State) : State :=
  let s1 := testOverlap (solarSweep (admitMap before s))
  passStart (tryTrial (callOffHotTrial (testAllFinishing (sanitiseSweep s1))))

/-- A sweep in flight completes (R1). -/
def completeSweep (r : Readings) (s : State) : State :=
  if s.map.sweeping then closing (announceMap s (publishMap r s)) else s

/-- SWEEP_COMPLETE (R1). -/
def execSweepComplete (readings : Readings) (s : State) : Host.Outcome State Fault Refusal :=
  .next (completeSweep readings s)

/-! ### Cylinder parameters (R11 to R15) -/

/-- The map with the volume of stratum `n` changed. -/
def StratumMap.withVolume (m : StratumMap) (n v : Nat) : StratumMap :=
  { m with strata := tset m.strata (n - 1) { m.stratum n with volume := v } }

/-- Every open reservation still fits in the cylinder (R12). -/
def State.openVolumesFit (s : State) (volume : Nat) : Bool :=
  s.records.all fun p => !p.2.state.isOpen || decide (p.2.terms.volume ≤ volume)

/-- A stratum volume judged and set (R11, R12). -/
def takeStratumVolume (number : Nat) (v : Int) (s : State) : Reply :=
  if number < 1 ∨ 8 < number ∨ within 5 125 v = false then .no .badField s
  else if (s.stratum number).volume = v.toNat then .ok s
  else if s.openVolumesFit (s.map.withVolume number v.toNat).cylinderVolume then
    .ok (s.modMap fun m => m.withVolume number v.toNat)
  else .no .badField s

/-- SET_STRATUM_VOLUME (R12). -/
def execSetStratumVolume (number : Nat) (value : Int) (s : State) : Host.Outcome State Fault Refusal :=
  .next (request 0x08#8 (takeStratumVolume number value) s)

/-- The lease in slot `n` is in REVOKING and its REVOKE still waits, beside which no other command for it stands
(R143). -/
def State.revokeWaits (s : State) (n : Nat) (l : Lease) : Bool :=
  l.state == .revoking && anyWaiting (·.isRevoke (s.leaseHandle n)) (s.station l.holder).queue

/-- The ceiling of a FREE or SOLAR lease follows θmax, and a FREE lease's holder is told (R62; log entry 13). -/
def followCeiling (s : State) (n : Nat) : State :=
  match s.lease? n with
  | none => s
  | some l =>
    if l.kind.isBought then s
    else
      let s1 := s.modLease n fun l => { l with ceiling := s.map.thetaMax }
      if l.kind = .free ∧ s.revokeWaits n l = false then
        place l.holder (.amend (s.leaseHandle n) s.map.thetaMax l.budget) s1
      else s1

/-- A guard state changed by θmax is taken by the admission controller and the solar loop (R15, R91, R154, R159). -/
def announceGuard (before : State) (s : State) : State :=
  if s.map.guard = before.map.guard then s else solarGuardChange before.map.guard (takeGuard before s)

/-- θmax written and the guard recomputed: the ceilings change first, and then the rates (R15, R62; log entry 44). -/
def writeThetaMax (v : Temp) (s : State) : State :=
  let s1 := s.modMap fun m => { m with thetaMax := v, guard := guardOf m.valid (s.temp 8) v }
  announceGuard s (upTo8.foldl followCeiling s1)

/-- θmax judged and set (R11, R15). -/
def takeThetaMax (v : Int) (s : State) : Reply :=
  if within 600 950 v = false then .no .badField s
  else if s.map.thetaMax = v then .ok s
  else .ok (writeThetaMax v s)

/-- SET_THETA_MAX (R15). -/
def execSetThetaMax (value : Int) (s : State) : Host.Outcome State Fault Refusal :=
  .next (request 0x08#8 (takeThetaMax value) s)

/-- A bought lease whose holder's inlet lies below the reserve line (R115). -/
def State.belowLine (s : State) (l : Lease) : Bool :=
  l.kind.isBought && decide (s.entryInlet l.holder < s.map.reserveLine)

/-- The lease in slot `n` ends where it lies below the raised line, before the arbiter acts (R115). -/
def endBelowLine (s : State) (n : Nat) : State :=
  if (s.lease? n).any s.belowLine then beginEnding n .revoked s else s

/-- The sanitise floor follows a raised line, and its accumulator returns to 0 (R13, R169). -/
def liftFloor (s : State) : State :=
  if s.sanitise.floor < s.map.reserveLine then
    s.modSanitise fun m => { m with floor := s.map.reserveLine, accumulator := 0 }
  else s

/-- The reserve line written: leases below a raised line end, the floor follows, and a pass starts (R13, R115). -/
def writeReserveLine (v : Nat) (s : State) : State :=
  let s1 := s.modMap fun m => { m with reserveLine := v }
  let s2 := if s.map.reserveLine < v then liftFloor (resettle s (upTo8.foldl endBelowLine s1)) else s1
  noteEligible s (passStart s2)

/-- The reserve line judged and set (R11, R13). -/
def takeReserveLine (v : Int) (s : State) : Reply :=
  if within 2 8 v = false then .no .badField s
  else if s.map.reserveLine = v.toNat then .ok s
  else .ok (writeReserveLine v.toNat s)

/-- SET_RESERVE_LINE (R13). -/
def execSetReserveLine (value : Int) (s : State) : Host.Outcome State Fault Refusal :=
  .next (request 0x08#8 (takeReserveLine value) s)

/-- The margin judged and set (R11, R14). -/
def takeMargin (v : Int) (s : State) : Reply :=
  if within 20 100 v = false then .no .badField s
  else if s.map.margin = v then .ok s
  else .ok (passStart (s.modMap fun m => { m with margin := v }))

/-- SET_MARGIN (R14). -/
def execSetMargin (value : Int) (s : State) : Host.Outcome State Fault Refusal :=
  .next (request 0x08#8 (takeMargin value) s)

end Sys2Proof.Machine
end

