-- ==== Sys2Proof/Machine/Requests.lean ====
section
/-! DEFINITION. Request writes as bytes: the port's checks, the catalogue's lengths and fields, and the request that a
frame carries (R174, R175, §11.2). -/

namespace Sys2Proof.Machine

/-- The length that the catalogue allows for a request code; absent where the code is not in it (§11.2). -/
def requestLength (code : Nat) : Option Nat :=
  match code with
  | 0x01 | 0x03 | 0x0A | 0x15 | 0x1B | 0x25 | 0x27 | 0x28 | 0x29 | 0x30 | 0x32 | 0x38 | 0x39 | 0x3F => some 0
  | 0x09 | 0x19 | 0x1A | 0x20 | 0x22 | 0x23 | 0x24 => some 1
  | 0x12 | 0x13 | 0x14 | 0x31 => some 2
  | 0x08 => some 3
  | 0x02 => some 4
  | 0x21 => some 6
  | 0x18 => some 10
  | 0x10 => some 14
  | 0x11 => some 17
  | 0x26 => some 32
  | _ => none

/-- An optional field of one byte (§11.1). -/
def optionalByte (present b : Byte) : Option Nat := if present = 0#8 then none else some b.toNat

/-- A given field of an AMEND: present where its bit of the mask is set (§11.2). -/
def given {α : Type} (mask : Byte) (k : Nat) (x : α) : Option α := if mask.getLsbD k then some x else none

/-- A reservation handle's two bytes. -/
def reservationOf (slot issue : Byte) : Handle := { slot := slot.toNat, issue := issue.toNat }

/-- The SET PARAMETER request of a parameter number and value (§11.2). -/
def parameterRequest (number : Nat) (v : Int) : Instr :=
  if number ≤ 8 then .setStratumVolume number v
  else if number = 9 then .setThetaMax v
  else if number = 10 then .setReserveLine v
  else if number = 11 then .setMargin v
  else if number = 19 then .setSitePowerBudget v
  else if number = 20 then .setSolarRating v
  else if number = 21 then .setAutoCap v
  else if 32 ≤ number ∧ number ≤ 43 then .setLoopParameter number v
  else if 48 ≤ number ∧ number ≤ 53 then .setSanitiseSetting number v
  else .setLeaseParameter number v

/-- The requests with no field. -/
def bareRequest (code : Nat) : Option Instr :=
  match code with
  | 0x01 => some .identifyPart
  | 0x03 => some .readClock
  | 0x0A => some .readStrata
  | 0x15 => some .listReservations
  | 0x1B => some .listLeases
  | 0x25 => some .discover
  | 0x27 => some .readSchedule
  | 0x28 => some .readSolar
  | 0x29 => some .remeasure
  | 0x30 => some .readEvents
  | 0x32 => some .readCounters
  | 0x38 => some .halt
  | 0x39 => some .resumeAll
  | 0x3F => some .reset
  | _ => none

/-- The requests with one field byte. -/
def byteRequest (code : Nat) (b : Byte) : Option Instr :=
  match code with
  | 0x09 => some (.readParameter b.toNat)
  | 0x19 => some (.revokeLease (leaseOfByte b))
  | 0x1A => some (.lookupLease (leaseOfByte b))
  | 0x20 => some (.readStation b.toNat)
  | 0x22 => some (.clearBar b.toNat)
  | 0x23 => some (.relearn b.toNat)
  | 0x24 => some (.forget b.toNat)
  | _ => none

/-- The requests with two field bytes. -/
def pairRequest (code : Nat) (a b : Byte) : Option Instr :=
  match code with
  | 0x12 => some (.withdraw (reservationOf a b))
  | 0x13 => some (.release (reservationOf a b))
  | 0x14 => some (.lookupReservation (reservationOf a b))
  | 0x31 => some (.setMask (BitVec.ofNat 16 (word16 a b)))
  | _ => none

/-- The fourteen field bytes of BOOK (§11.2). -/
def termsOfBytes : List Byte → Option BookTerms
  | [d1, d2, m1, m2, v1, v2, t1, t2, l1, l2, rp, r, sp, st] =>
    some
      { dueDay := word16 d1 d2, dueMinute := word16 m1 m2, volume := word16 v1 v2, thetaMin := signed16 t1 t2
        lead := word16 l1 l2, repeatDays := optionalByte rp r, preferred := optionalByte sp st }
  | _ => none

/-- The fields that a given mask takes from BOOK's (§11.2); its bits 6 and 7 are not read (log entry 40). -/
def amendOfTerms (mask : Byte) (t : BookTerms) : AmendTerms :=
  { due := given mask 0 (t.dueDay, t.dueMinute), volume := given mask 1 t.volume, thetaMin := given mask 2 t.thetaMin
    lead := given mask 3 t.lead, repeatDays := given mask 4 t.repeatDays, preferred := given mask 5 t.preferred }

/-- The requests with more than two field bytes. -/
def longRequest (code : Nat) (fields : List Byte) : Option Instr :=
  match code, fields with
  | 0x02, [d1, d2, m1, m2] => some (.setClock (word16 d1 d2) (word16 m1 m2))
  | 0x08, [n, a, b] => some (parameterRequest n.toNat (signed16 a b))
  | 0x10, f => (termsOfBytes f).map Instr.book
  | 0x11, slot :: issue :: mask :: f =>
    (termsOfBytes f).map fun t => .amend (reservationOf slot issue) (amendOfTerms mask t)
  | 0x18, [i, c1, c2, m1, m2, p, b1, b2, b3, b4] =>
    some <| .openBoost i.toNat (signed16 c1 c2) (word16 m1 m2) (if p = 0#8 then none else some (word32 b1 b2 b3 b4))
  | 0x21, [i, ca, c1, c2, ra, r] => some (.setStation i.toNat ca.toNat (word16 c1 c2) ra.toNat r.toNat)
  | 0x26, f => some (.setSchedule (f.map (·.toNat)))
  | _, _ => none

/-- The request that a code and its field bytes carry. -/
def requestOf (code : Nat) (fields : List Byte) : Option Instr :=
  match fields with
  | [] => bareRequest code
  | [b] => byteRequest code b
  | [a, b] => pairRequest code a b
  | _ => longRequest code fields

/-! ### A request's own bytes (§11.2) -/

/-- The code of a request of the host (§11.2); absent for a command that is none. -/
def requestCode : Instr → Option Byte
  | .identifyPart => some 0x01#8
  | .setClock _ _ => some 0x02#8
  | .readClock => some 0x03#8
  | .setStratumVolume _ _ | .setThetaMax _ | .setReserveLine _ | .setMargin _ | .setLeaseParameter _ _
  | .setSitePowerBudget _ | .setSolarRating _ | .setAutoCap _ | .setLoopParameter _ _ | .setSanitiseSetting _ _ =>
    some 0x08#8
  | .readParameter _ => some 0x09#8
  | .readStrata => some 0x0A#8
  | .book _ => some 0x10#8
  | .amend _ _ => some 0x11#8
  | .withdraw _ => some 0x12#8
  | .release _ => some 0x13#8
  | .lookupReservation _ => some 0x14#8
  | .listReservations => some 0x15#8
  | .openBoost _ _ _ _ => some 0x18#8
  | .revokeLease _ => some 0x19#8
  | .lookupLease _ => some 0x1A#8
  | .listLeases => some 0x1B#8
  | .readStation _ => some 0x20#8
  | .setStation _ _ _ _ _ => some 0x21#8
  | .clearBar _ => some 0x22#8
  | .relearn _ => some 0x23#8
  | .forget _ => some 0x24#8
  | .discover => some 0x25#8
  | .setSchedule _ => some 0x26#8
  | .readSchedule => some 0x27#8
  | .readSolar => some 0x28#8
  | .remeasure => some 0x29#8
  | .readEvents => some 0x30#8
  | .setMask _ => some 0x31#8
  | .readCounters => some 0x32#8
  | .halt => some 0x38#8
  | .resumeAll => some 0x39#8
  | .reset => some 0x3F#8
  | .powerOn | .requestWriteRejected _ | .requestWriteWhileWorking _ | .answerRead _ | .answerPlaced
  | .sweepStart | .sweepComplete _ | .passComplete | .clockMinuteAdvance | .durationExpiry _ | .finishingHoldExpiry _
  | .revokeTimeout _ | .learnedCapStepTimerExpiry _ | .declineCooldownExpiry _ | .retryTimerExpiry _ | .trialWindowEnd
  | .arbiterDecision _ | .identity _ _ | .status _ _ _ _ | .accept _ _ | .decline _ _ | .ack _ _ | .answerRejected _
  | .answerWindowExpiry | .broadcastExchangeEnd | .discoveryTimerExpiry | .callLineLow | .callIgnoreExpiry | .flowPulse
  | .primeTimerExpiry | .solarStepTimerExpiry | .stopTimerExpiry | .remeasureTimerExpiry => none

/-- The presence byte and the byte of an optional field (§11.1). -/
def optionalBytes (x : Option Nat) : List Byte := optField 1 oneByte x

/-- A given field of an AMEND, zero bytes where it is left out (§11.2). -/
def givenBytes {α : Type} (width : Nat) (f : α → List Byte) : Option α → List Byte
  | none => List.replicate width 0#8
  | some x => f x

/-- The fourteen field bytes of BOOK (§11.2). -/
def termsBytes (t : BookTerms) : List Byte :=
  be16 t.dueDay ++ be16 t.dueMinute ++ be16 t.volume ++ beSigned t.thetaMin ++ be16 t.lead
    ++ optionalBytes t.repeatDays ++ optionalBytes t.preferred

/-- The mask bit of a field, where it is given. -/
def maskBit {α : Type} (k : Nat) (x : Option α) : Nat := if x.isSome then 2 ^ k else 0

/-- The mask of an AMEND (§11.2). -/
def amendMask (t : AmendTerms) : Byte :=
  byte (maskBit 0 t.due + maskBit 1 t.volume + maskBit 2 t.thetaMin + maskBit 3 t.lead + maskBit 4 t.repeatDays
    + maskBit 5 t.preferred)

/-- The given mask of an AMEND and BOOK's fields behind it, zero bytes in those left out (§11.2). -/
def amendBytes (t : AmendTerms) : List Byte :=
  amendMask t :: (givenBytes 4 (fun d => be16 d.1 ++ be16 d.2) t.due ++ givenBytes 2 be16 t.volume
    ++ givenBytes 2 beSigned t.thetaMin ++ givenBytes 2 be16 t.lead ++ givenBytes 2 optionalBytes t.repeatDays
    ++ givenBytes 2 optionalBytes t.preferred)

/-- A parameter's number and value (§11.2). -/
def parameterBytes (number : Nat) (v : Int) : List Byte := byte number :: beSigned v

/-- The field bytes of a request (§11.2); none for a command that is none. -/
def requestFields : Instr → List Byte
  | .setClock day minute => be16 day ++ be16 minute
  | .setStratumVolume number v => parameterBytes number v
  | .setThetaMax v => parameterBytes 9 v
  | .setReserveLine v => parameterBytes 10 v
  | .setMargin v => parameterBytes 11 v
  | .setLeaseParameter number v => parameterBytes number v
  | .setSitePowerBudget v => parameterBytes 19 v
  | .setSolarRating v => parameterBytes 20 v
  | .setAutoCap v => parameterBytes 21 v
  | .setLoopParameter number v => parameterBytes number v
  | .setSanitiseSetting number v => parameterBytes number v
  | .readParameter number => [byte number]
  | .book t => termsBytes t
  | .amend h t => reservationBytes h ++ amendBytes t
  | .withdraw h => reservationBytes h
  | .release h => reservationBytes h
  | .lookupReservation h => reservationBytes h
  | .openBoost i c m b => byte i :: (beSigned c ++ be16 m ++ optField 4 be32 b)
  | .revokeLease h => [leaseByte h]
  | .lookupLease h => [leaseByte h]
  | .readStation i => [byte i]
  | .setStation i ca c ra r => [byte i, byte ca] ++ be16 c ++ [byte ra, byte r]
  | .clearBar i => [byte i]
  | .relearn i => [byte i]
  | .forget i => [byte i]
  | .setSchedule slots => slots.map byte
  | .setMask m => be16 m.toNat
  | _ => []

/-- The frame of a request as the host writes it (§11.1): code, length, fields, CRC-8. -/
def requestFrame (c : Instr) : List Byte :=
  let fields := requestFields c
  sealed ([(requestCode c).getD 0#8, byte fields.length] ++ fields)

/-- A request handed to its owning block. -/
def runRequest (c : Instr) (s : State) : Host.Outcome State Fault Refusal :=
  match c with
  | .identifyPart => execIdentifyPart s
  | .setClock d m => execSetClock d m s
  | .readClock => execReadClock s
  | .setStratumVolume n v => execSetStratumVolume n v s
  | .setThetaMax v => execSetThetaMax v s
  | .setReserveLine v => execSetReserveLine v s
  | .setMargin v => execSetMargin v s
  | .setLeaseParameter n v => execSetLeaseParameter n v s
  | .setSitePowerBudget v => execSetSitePowerBudget v s
  | .setSolarRating v => execSetSolarRating v s
  | .setAutoCap v => execSetAutoCap v s
  | .setLoopParameter n v => execSetLoopParameter n v s
  | .setSanitiseSetting n v => execSetSanitiseSetting n v s
  | .readParameter n => execReadParameter n s
  | .readStrata => execReadStrata s
  | .book t => execBook t s
  | .amend h t => execAmend h t s
  | .withdraw h => execWithdraw h s
  | .release h => execRelease h s
  | .lookupReservation h => execLookupReservation h s
  | .listReservations => execListReservations s
  | .openBoost i c m b => execOpenBoost i c m b s
  | .revokeLease h => execRevokeLease h s
  | .lookupLease h => execLookupLease h s
  | .listLeases => execListLeases s
  | .readStation i => execReadStation i s
  | .setStation i ca c ra r => execSetStation i ca c ra r s
  | .clearBar i => execClearBar i s
  | .relearn i => execRelearn i s
  | .forget i => execForget i s
  | .discover => execDiscover s
  | .setSchedule l => execSetSchedule l s
  | .readSchedule => execReadSchedule s
  | .readSolar => execReadSolar s
  | .remeasure => execRemeasure s
  | .readEvents => execReadEvents s
  | .setMask m => execSetMask m s
  | .readCounters => execReadCounters s
  | .halt => execHalt s
  | .resumeAll => execResumeAll s
  | .reset => execReset s
  | _ => .next s

/-- The outcome of the port's checks on a request write (R174). -/
inductive Examined where
  | rejected (st : Status)
  | taken (c : Instr)
deriving DecidableEq, Repr

/-- The frame's length, CRC and length byte are sound (R174 check 1). -/
def frameOk (bytes : List Byte) : Bool :=
  match bytes with
  | _ :: len :: _ => bytes.length == len.toNat + 3 && decide (len.toNat ≤ 60) && sealOk bytes
  | _ => false

/-- The checks of R174, in their order. -/
def examine (bytes : List Byte) : Examined :=
  let code := (bytes.headD 0#8).toNat
  let fields := (bytes.drop 2).dropLast
  if frameOk bytes = false then .rejected .badFrame
  else
    match requestLength code with
    | none => .rejected .unknownRequest
    | some n =>
      if fields.length ≠ n then .rejected .badField
      else
        match requestOf code fields with
        | none => .rejected .badField
        | some c => .taken c

/-- An answer placed at once, the port entering HELD (R174). -/
def holdAnswer (a : Answer) (s : State) : State := s.modPort fun p => { p with state := .held a, ready := true }

/-- A transaction that the host wrote: with no byte it is ignored, from 0x00 on it is an answer read, and else a request
write, discarded while the port is WORKING and otherwise examined (R173, R174, R175). -/
def writeRequest (bytes : List Byte) (s : State) : Host.Outcome State Fault Refusal :=
  match bytes with
  | [] => .next s
  | first :: rest =>
    if first = 0#8 then execAnswerRead rest.length s
    else if s.isWorking then .next s
    else
      match examine bytes with
      | .rejected st => .next (holdAnswer { status := st, code := first, fields := [] } s)
      | .taken c => runRequest c s

/-- REQUEST_WRITE_REJECTED (R174). -/
def execRequestWriteRejected (bytes : List Byte) (s : State) : Host.Outcome State Fault Refusal :=
  writeRequest bytes s

/-- REQUEST_WRITE_WHILE_WORKING (R175). -/
def execRequestWriteWhileWorking (bytes : List Byte) (s : State) : Host.Outcome State Fault Refusal :=
  writeRequest bytes s

end Sys2Proof.Machine
end

