-- ==== Sys2Proof/Machine/Dispatch.lean ====
section
/-! DEFINITION. The dispatch: one arm for every command, one meaning for every arm. -/

namespace Sys2Proof.Machine

/-- The effect of a command on everything but the queue. -/
def exec (i : Instr) (s : State) : Host.Outcome State Fault Refusal :=
  match i with
  | .powerOn => Sys2Proof.Machine.execPowerOn s
  | .requestWriteRejected bytes => Sys2Proof.Machine.execRequestWriteRejected bytes s
  | .requestWriteWhileWorking bytes => Sys2Proof.Machine.execRequestWriteWhileWorking bytes s
  | .answerRead clocked => Sys2Proof.Machine.execAnswerRead clocked s
  | .answerPlaced => Sys2Proof.Machine.execAnswerPlaced s
  | .identifyPart => Sys2Proof.Machine.execIdentifyPart s
  | .setClock day minute => Sys2Proof.Machine.execSetClock day minute s
  | .readClock => Sys2Proof.Machine.execReadClock s
  | .setStratumVolume number value => Sys2Proof.Machine.execSetStratumVolume number value s
  | .setThetaMax value => Sys2Proof.Machine.execSetThetaMax value s
  | .setReserveLine value => Sys2Proof.Machine.execSetReserveLine value s
  | .setMargin value => Sys2Proof.Machine.execSetMargin value s
  | .setLeaseParameter number value => Sys2Proof.Machine.execSetLeaseParameter number value s
  | .setSitePowerBudget value => Sys2Proof.Machine.execSetSitePowerBudget value s
  | .setSolarRating value => Sys2Proof.Machine.execSetSolarRating value s
  | .setAutoCap value => Sys2Proof.Machine.execSetAutoCap value s
  | .setLoopParameter number value => Sys2Proof.Machine.execSetLoopParameter number value s
  | .setSanitiseSetting number value => Sys2Proof.Machine.execSetSanitiseSetting number value s
  | .readParameter number => Sys2Proof.Machine.execReadParameter number s
  | .readStrata => Sys2Proof.Machine.execReadStrata s
  | .book terms => Sys2Proof.Machine.execBook terms s
  | .amend h terms => Sys2Proof.Machine.execAmend h terms s
  | .withdraw h => Sys2Proof.Machine.execWithdraw h s
  | .release h => Sys2Proof.Machine.execRelease h s
  | .lookupReservation h => Sys2Proof.Machine.execLookupReservation h s
  | .listReservations => Sys2Proof.Machine.execListReservations s
  | .openBoost index ceiling minutes budget => Sys2Proof.Machine.execOpenBoost index ceiling minutes budget s
  | .revokeLease h => Sys2Proof.Machine.execRevokeLease h s
  | .lookupLease h => Sys2Proof.Machine.execLookupLease h s
  | .listLeases => Sys2Proof.Machine.execListLeases s
  | .readStation index => Sys2Proof.Machine.execReadStation index s
  | .setStation index capAction cap rankAction rank => Sys2Proof.Machine.execSetStation index capAction cap rankAction rank s
  | .clearBar index => Sys2Proof.Machine.execClearBar index s
  | .relearn index => Sys2Proof.Machine.execRelearn index s
  | .forget index => Sys2Proof.Machine.execForget index s
  | .discover => Sys2Proof.Machine.execDiscover s
  | .setSchedule slots => Sys2Proof.Machine.execSetSchedule slots s
  | .readSchedule => Sys2Proof.Machine.execReadSchedule s
  | .readSolar => Sys2Proof.Machine.execReadSolar s
  | .remeasure => Sys2Proof.Machine.execRemeasure s
  | .readEvents => Sys2Proof.Machine.execReadEvents s
  | .setMask mask => Sys2Proof.Machine.execSetMask mask s
  | .readCounters => Sys2Proof.Machine.execReadCounters s
  | .halt => Sys2Proof.Machine.execHalt s
  | .resumeAll => Sys2Proof.Machine.execResumeAll s
  | .reset => Sys2Proof.Machine.execReset s
  | .sweepStart => Sys2Proof.Machine.execSweepStart s
  | .sweepComplete readings => Sys2Proof.Machine.execSweepComplete readings s
  | .passComplete => Sys2Proof.Machine.execPassComplete s
  | .clockMinuteAdvance => Sys2Proof.Machine.execClockMinuteAdvance s
  | .durationExpiry h => Sys2Proof.Machine.execDurationExpiry h s
  | .finishingHoldExpiry h => Sys2Proof.Machine.execFinishingHoldExpiry h s
  | .revokeTimeout h => Sys2Proof.Machine.execRevokeTimeout h s
  | .learnedCapStepTimerExpiry h => Sys2Proof.Machine.execLearnedCapStepTimerExpiry h s
  | .declineCooldownExpiry index => Sys2Proof.Machine.execDeclineCooldownExpiry index s
  | .retryTimerExpiry index => Sys2Proof.Machine.execRetryTimerExpiry index s
  | .trialWindowEnd => Sys2Proof.Machine.execTrialWindowEnd s
  | .arbiterDecision released => Sys2Proof.Machine.execArbiterDecision released s
  | .identity addr fields => Sys2Proof.Machine.execIdentity addr fields s
  | .status addr flags handle item => Sys2Proof.Machine.execStatus addr flags handle item s
  | .accept addr h => Sys2Proof.Machine.execAccept addr h s
  | .decline addr h => Sys2Proof.Machine.execDecline addr h s
  | .ack addr kind => Sys2Proof.Machine.execAck addr kind s
  | .answerRejected bytes => Sys2Proof.Machine.execAnswerRejected bytes s
  | .answerWindowExpiry => Sys2Proof.Machine.execAnswerWindowExpiry s
  | .broadcastExchangeEnd => Sys2Proof.Machine.execBroadcastExchangeEnd s
  | .discoveryTimerExpiry => Sys2Proof.Machine.execDiscoveryTimerExpiry s
  | .callLineLow => Sys2Proof.Machine.execCallLineLow s
  | .callIgnoreExpiry => Sys2Proof.Machine.execCallIgnoreExpiry s
  | .flowPulse => Sys2Proof.Machine.execFlowPulse s
  | .primeTimerExpiry => Sys2Proof.Machine.execPrimeTimerExpiry s
  | .solarStepTimerExpiry => Sys2Proof.Machine.execSolarStepTimerExpiry s
  | .stopTimerExpiry => Sys2Proof.Machine.execStopTimerExpiry s
  | .remeasureTimerExpiry => Sys2Proof.Machine.execRemeasureTimerExpiry s

end Sys2Proof.Machine
end

