-- ==== Sys2Proof/Machine/Tick.lean ====
section
/-! DEFINITION. One second of the timebase, which a step on an empty queue is (log entry 1): every running timer counts
down, and the events that fall due are put in the queue. -/

namespace Sys2Proof.Machine

/-- A running count one lower. -/
def count : Option Nat → Option Nat := Option.map (· - 1)

/-- A running count reaches 0 in this second. -/
def runsOut (x : Option Nat) : Bool := x.any fun n => decide (n ≤ 1)

/-- An event, where its time has come. -/
def due (c : Bool) (e : Instr) : List Instr := if c then [e] else []

/-! ### Clock and sweeps -/

/-- The clock one second later: the minute itself advances by its event; at the clock's end the seconds begin again
(R167, R168). -/
def Clock.tick (c : Clock) : Clock :=
  if c.set then
    if c.second < 59 then { c with second := c.second + 1 }
    else if c.atEnd then { c with second := 0 } else c
  else c

/-- The minute has run out (R168). -/
def Clock.minuteDue (c : Clock) : Bool := c.set && decide (59 ≤ c.second) && !c.atEnd

/-! ### Leases -/

/-- Half seconds that a second takes from a duration timer (R74). -/
def halfSeconds (halfRate : Bool) (st : LeaseState) : Nat :=
  match st with
  | .admitted | .finishing => 2
  | .throttled => if halfRate then 1 else 2
  | .offered | .suspended | .revoking => 0

/-- A lease one second later (R74, R77, R80, R100). -/
def Lease.tick (halfRate : Bool) (l : Lease) : Lease :=
  { l with
    timer := l.timer.map (· - halfSeconds halfRate l.state)
    hold := if l.state = .finishing then count l.hold else l.hold
    revokeTime := if l.state = .revoking then count l.revokeTime else l.revokeTime
    stepTimer := count l.stepTimer }

/-- The duration timer reaches 0 in this second. -/
def Lease.durationDue (halfRate : Bool) (l : Lease) : Bool :=
  l.state.counts && l.timer.any fun t => decide (t ≤ halfSeconds halfRate l.state)

/-- The events of one lease in this second. -/
def Lease.events (halfRate : Bool) (h : Handle) (l : Lease) : List Instr :=
  due (l.state == .finishing && runsOut l.hold) (.finishingHoldExpiry h)
    ++ due (l.durationDue halfRate) (.durationExpiry h)
    ++ due (l.state == .revoking && runsOut l.revokeTime) (.revokeTimeout h)
    ++ due (runsOut l.stepTimer) (.learnedCapStepTimerExpiry h)

/-- The events of the lease in slot `n`. -/
def State.leaseEvents (s : State) (n : Nat) : List Instr :=
  ((s.lease? n).map (Lease.events s.admission.halfRate (s.leaseHandle n))).getD []

/-- The leases one second later. -/
def Admission.tick (a : Admission) : Admission :=
  { a with leases := a.leases.map fun x => { x with lease := x.lease.map (Lease.tick a.halfRate) } }

/-! ### Roster, link and loop -/

/-- An entry one second later (R125, R133). -/
def Entry.tick (e : Entry) : Entry := { e with retry := count e.retry, cooldown := count e.cooldown }

/-- The events of roster entry `i`. -/
def State.entryEvents (s : State) (i : Nat) : List Instr :=
  due (runsOut (s.entry i).cooldown) (.declineCooldownExpiry i) ++ due (runsOut (s.entry i).retry) (.retryTimerExpiry i)

/-- The roster one second later (R124). -/
def Roster.tick (r : Roster) : Roster :=
  { r with
    entries := r.entries.map Entry.tick, trial := r.trial.map fun t => { t with window := count t.window } }

/-- The link one second later (R147, R148). -/
def Link.tick (k : Link) : Link :=
  { k with ignoring := count k.ignoring, discoveryTimer := count k.discoveryTimer }

/-- The loop one second later (R155, R157, R158, R159, R162). -/
def Solar.tick (v : Solar) : Solar :=
  { v with
    prime := count v.prime, step := count v.step, stop := count v.stop, remeasure := count v.remeasure
    spacing := spacingAfter 1 v.spacing, counted := min Config.sweepInterval (v.counted + 1) }

/-- The events of the loop. -/
def Solar.events (v : Solar) : List Instr :=
  due (runsOut v.prime) .primeTimerExpiry ++ due (runsOut v.step) .solarStepTimerExpiry
    ++ due (runsOut v.stop) .stopTimerExpiry ++ due (runsOut v.remeasure) .remeasureTimerExpiry

/-- The events of the link. -/
def Link.events (k : Link) : List Instr :=
  due (runsOut k.ignoring) .callIgnoreExpiry ++ due (runsOut k.discoveryTimer) .discoveryTimerExpiry

/-! ### The tick -/

/-- The events that fall due in this second, in the order in which they are taken. -/
def State.events (s : State) : List Instr :=
  due (decide (s.map.sweepIn ≤ 1)) .sweepStart
    ++ due s.clock.minuteDue .clockMinuteAdvance
    ++ upTo8.flatMap s.leaseEvents
    ++ stationIndexes.flatMap s.entryEvents
    ++ due (s.roster.trial.any fun t => runsOut t.window) .trialWindowEnd
    ++ s.link.events
    ++ s.solar.events

/-- One second passes. -/
def tick (s : State) : State :=
  { s with
    map := { s.map with sweepIn := s.map.sweepIn - 1 }
    clock := s.clock.tick
    admission := s.admission.tick
    roster := s.roster.tick
    link := s.link.tick
    solar := s.solar.tick
    pending := s.pending ++ s.events }

end Sys2Proof.Machine
end

