-- ==== Sys2Proof/Safety.lean ====
section
/-! DEFINITION. What the statements about the part speak of: the blocks a command may touch, the host's requests, an
answer in work, and the invariants that every step keeps. -/

namespace Sys2Proof.Machine

/-! ### Frames -/

/-- The blocks of the part (§1.3). -/
inductive Block where
  | map | book | coverage | admission | roster | link | solar | sanitise | clock | port
deriving DecidableEq, Repr

/-- One block stands as it stood. -/
def State.sameIn (s t : State) : Block → Prop
  | .map => t.map = s.map
  | .book => t.book = s.book
  | .coverage => t.coverage = s.coverage
  | .admission => t.admission = s.admission
  | .roster => t.roster = s.roster
  | .link => t.link = s.link
  | .solar => t.solar = s.solar
  | .sanitise => t.sanitise = s.sanitise
  | .clock => t.clock = s.clock
  | .port => t.port = s.port

/-- Every block but those listed stands as it stood, and so does the queue of commands. -/
def State.sameOutside (s t : State) (touched : List Block) : Prop :=
  (∀ b, b ∉ touched → s.sameIn t b) ∧ t.pending = s.pending

/-! ### Requests -/

/-- The part works on a request and will place this answer (R173). -/
def State.answersWith (t : State) (st : Status) (code : Byte) (fields : List Byte) : Prop :=
  t.port.state = .working { status := st, code := code, fields := fields } ∧ t.port.ready = false

/-- The port with a request taken and its answer in work, its flags, mask and data output as they were. -/
def Port.takes (p : Port) (st : Status) (code : Byte) (fields : List Byte) : Port :=
  { p with state := .working { status := st, code := code, fields := fields }, ready := false }

/-- The part with a request taken and its answer in work, and nothing else changed. -/
def State.replies (s : State) (st : Status) (code : Byte) (fields : List Byte) : State :=
  { s with port := s.port.takes st code fields }

/-- The requests that only read (§11.2). -/
def isReading : Instr → Bool
  | .identifyPart | .readClock | .readParameter _ | .readStrata | .lookupReservation _ | .listReservations
  | .lookupLease _ | .listLeases | .readStation _ | .readSchedule | .readSolar => true
  | _ => false

/-- Answered OK with fields, every flag, the mask and the wire as they were. -/
def State.answersOk (s t : State) (code : Byte) (fields : List Byte) : Prop := t.port = s.port.takes .ok code fields

/-! ### Passes -/

/-- A pass start was given and the state `t` stands as the pass takes it (R40, R41, R42): it began a pass, or set
rerun-pending, or was discarded under an INVALID map. -/
def State.passStarted (s t : State) : Prop :=
  t.coverage =
    if t.map.valid then
      match s.coverage.pass with
      | none => { s.coverage with pass := some t.snapshot }
      | some _ => { s.coverage with rerun := true }
    else s.coverage

/-- A pass start was given where the set of eligible stations changed (R52). -/
def State.passStartedIfEligibleChanged (s t : State) : Prop :=
  if t.eligibleSet = s.eligibleSet then t.coverage = s.coverage else s.passStarted t

/-! ### Records and leases -/

/-- A reservation's terms, state, figures and last outcome: all of its record but the top-up link. -/
def sameBooking (r r' : Reservation) : Prop :=
  r'.terms = r.terms ∧ r'.state = r.state ∧ r'.figures = r.figures ∧ r'.last = r.last

/-- A lease in REVOKING for a reason (R80). -/
def Lease.isRevokingFor (l : Lease) (reason : LeaseOutcome) : Prop :=
  l.state = .revoking ∧ l.reason = some reason ∧ l.revokeTime = some 60 ∧ l.granted = 0 ∧ l.hold = none ∧ l.saved = none

/-! ### The lease table where a step only closes -/

/-- The admission controller without its leases and their order: its parameters, its counters and its marks. -/
def Admission.desk (a : Admission) : Admission := { a with leases := Vector.replicate 8 .initial, order := [] }

/-- The link controller without its stations' queues, its roll call and its count of stale items, and with the exchange
in flight as it began. -/
def Link.wires (k : Link) : Link :=
  { k with
    stations := Vector.replicate 8 .initial, roll := none, staleItems := 0
    exchange := k.exchange.map fun x => { x with overtaken := false } }

/-- A lease without what the arbiter, the finishing tests, a suspension or a resumption may change. -/
def Lease.root (l : Lease) : Lease :=
  { l with
    state := .offered, entitlement := 0, granted := 0, budget := none, timer := none, hold := none, saved := none
    reason := none, revokeTime := none, limitMark := false, stepTimer := none, waiting := false }

/-- No lease is to be suspended or resumed (R105, R106), and the trial that runs was not called off for want of its QUALIFY
(R126): closing a step has nothing to do. -/
def State.isSettled (s : State) : Prop :=
  s.toSuspend = [] ∧ s.toResume = [] ∧
    ∀ t, s.roster.trial = some t → t.window = none → s.qualifyOutstanding t.entry = true

/-- Every lease slot has its issue and the root of its lease, and the admission order stands. -/
def State.sameRoots (s t : State) : Prop :=
  t.admission.order = s.admission.order ∧
    ∀ n, 1 ≤ n → n ≤ 8 →
      (t.leaseSlot n).issue = (s.leaseSlot n).issue ∧ (t.lease? n).map Lease.root = (s.lease? n).map Lease.root

/-- No more was done to the lease table, the roster and the link than the overlap test and a trial's calling off do at the
end of a step (log entry 9); nothing at all where neither had anything to do in the state the step leaves. -/
def State.sameTable (s t : State) : Prop :=
  s.sameRoots t ∧ t.admission.desk = s.admission.desk ∧ t.roster.entries = s.roster.entries ∧
    t.roster.autoCap = s.roster.autoCap ∧
    (({ t with admission := s.admission, roster := s.roster, link := s.link } : State).isSettled →
      t.admission = s.admission ∧ t.roster = s.roster ∧ t.link = s.link)

/-! ### What every step keeps -/

/-- The day clock stands at a day and minute that exist, and at 0 while it is UNSET (§10.1, R167). -/
def Clock.legal (c : Clock) : Prop :=
  c.day ≤ 65535 ∧ c.minute < 1440 ∧ c.second < 60 ∧ (c.set = false → c.day = 0 ∧ c.minute = 0 ∧ c.second = 0)

/-- The cylinder parameters lie in their ranges and no history holds more than three readings (R2, R11). -/
def StratumMap.legal (m : StratumMap) : Prop :=
  (∀ n, 1 ≤ n → n ≤ 8 → 5 ≤ (m.stratum n).volume ∧ (m.stratum n).volume ≤ 125) ∧
    600 ≤ m.thetaMax ∧ m.thetaMax ≤ 950 ∧ 2 ≤ m.reserveLine ∧ m.reserveLine ≤ 8 ∧ 20 ≤ m.margin ∧ m.margin ≤ 100 ∧
    ∀ p ∈ m.probes, p.history.length ≤ 3

/-- The loop parameters lie in their ranges and in the bounds they set each other (§9.1). -/
def LoopParams.legal (p : LoopParams) : Prop :=
  40 ≤ p.startDiff ∧ p.startDiff ≤ 200 ∧ 20 ≤ p.stopDiff ∧ p.stopDiff ≤ p.startDiff - 20 ∧
    30 ≤ p.primeTime ∧ p.primeTime ≤ 300 ∧ 20 ≤ p.minSpeed ∧ p.minSpeed ≤ 100 ∧
    (∀ t, p.fixedTarget = some t → 30 ≤ t ∧ t ≤ 400) ∧ 1100 ≤ p.stagnation ∧ p.stagnation ≤ 1600 ∧
    900 ≤ p.releaseTemp ∧ p.releaseTemp ≤ p.stagnation - 100 ∧ 2 ≤ p.upperInlet ∧ p.upperInlet ≤ 8 ∧
    1 ≤ p.litresPerPulse ∧ p.litresPerPulse ≤ 100 ∧ p.windowStart ≤ 1439 ∧ p.windowEnd ≤ 1439 ∧
    p.windowStart ≠ p.windowEnd

/-- The sanitise settings lie in their ranges, the floor never below the reserve line (§10.2, R13). -/
def Sanitise.legal (m : Sanitise) (reserveLine : Nat) : Prop :=
  (∀ k, m.interval = some k → 1 ≤ k ∧ k ≤ 14) ∧ 600 ≤ m.temp ∧ m.temp ≤ 750 ∧ 10 ≤ m.hold ∧ m.hold ≤ 90 ∧
    reserveLine ≤ m.floor ∧ m.floor ≤ 8 ∧ m.startMinute ≤ 1439 ∧ 30 ≤ m.limit ∧ m.limit ≤ 480

/-- The book: every issue is one of 16, every record's terms lie in the ranges of its table, every open reservation fits
in the cylinder, and the starvation counter has not passed its top (§2.1, R12, R18, R22). -/
def State.bookLegal (s : State) : Prop :=
  s.book.starved ≤ 65535 ∧
    ∀ n, 1 ≤ n → n ≤ 24 →
      (s.bookSlot n).issue < 16 ∧
        ∀ r, s.record? n = some r →
          bookFieldsOk r.terms = true ∧ (r.state.isOpen = true → r.terms.volume ≤ s.map.cylinderVolume)

/-- The pass in flight took each record and each stratum once (R42, R43). -/
def Coverage.legal (c : Coverage) : Prop :=
  ∀ p, c.pass = some p →
    (p.records.map (·.handle.slot)).Nodup ∧ (∀ r ∈ p.records, 1 ≤ r.handle.slot ∧ r.handle.slot ≤ 24) ∧
      p.layers.map (·.no) = [8, 7, 6, 5, 4, 3, 2, 1]

/-- The admission controller's parameters lie in their ranges (R75, R89, R94). -/
def Admission.legal (a : Admission) : Prop :=
  30 ≤ a.topUpLimit ∧ a.topUpLimit ≤ 480 ∧ a.finishHold ≤ 30 ∧ 500 ≤ a.rating ∧ a.rating ≤ 15000 ∧ a.rating % 100 = 0 ∧
    a.siteBudget ≤ 20000 ∧ a.siteBudget % 100 = 0

/-- No station's queue holds more than four commands (R142). -/
def State.queuesInBounds (s : State) : Prop := ∀ i, 1 ≤ i → i ≤ 7 → (s.station i).queue.length ≤ 4

/-- The part is in order. -/
def State.legal (s : State) : Prop :=
  s.clock.legal ∧ s.map.legal ∧ s.solar.params.legal ∧ s.sanitise.legal s.map.reserveLine ∧ s.bookLegal ∧
    s.coverage.legal ∧ s.admission.legal ∧ s.queuesInBounds

/-- The commands that wait for roster entry `i` are in order: one that names a handle bears the lease the entry holds,
but for a REVOKE of another handle (R140, R142); no two of one kind name one handle, nor wait without one (R142); no
SUSPEND waits beside a RESUME for its lease; and fewer than four bear the lease the entry holds (R142, R143). -/
def State.queueInOrder (s : State) (i : Nat) : Prop :=
  let q := (s.station i).queue
  (∀ x ∈ q, ∀ h, x.cmd.handle? = some h → x.cmd = .revoke h ∨ s.bears i x.cmd = true) ∧
    (q.map fun x => (x.cmd.handle?, x.cmd.code)).Nodup ∧
    (∀ x ∈ q, ∀ y ∈ q, ∀ h rate, x.cmd = .suspend h → y.cmd ≠ .resume h rate) ∧
    (q.filter fun x => s.bears i x.cmd).length < 4

/-- A lease stands in order in slot `n`: the SOLAR lease is the loop's, any other that of a READY station, and no two
have one holder; its holder is of the group that its kind asks for, the free one for a SOLAR or FREE lease and the
bought one for any other, and a TOPUP or BOOST lease alone has a budget (R62, R64, R68); a finishing hold stands exactly
while a TOPUP or BOOST lease is in FINISHING, in its saved context too, and no free lease is FINISHING or SUSPENDED
(§4.3, R76, R78, R105); a revoke reason stands exactly while the lease is in REVOKING; a saved context stands exactly
while it is SUSPENDED and holds a heating state; a lease that has been admitted and is not in REVOKING is in the admission order; of the commands for it, those alone wait that
may wait in its state (R143); a TOPUP lease alone serves, no more than eight records, each once and each naming the
lease as its own (R52, R63, R79, R80, R107, R112). -/
def State.leaseInOrder (s : State) (n : Nat) (l : Lease) : Prop :=
  (l.kind = .solar ↔ l.holder = 0) ∧ l.holder ≤ 7 ∧ (l.holder ≠ 0 → (s.entry l.holder).state = .ready) ∧
    (∀ k l', 1 ≤ k → k ≤ 8 → s.lease? k = some l' → l'.holder = l.holder → k = n) ∧
    (s.entry l.holder).cls.isBought = l.kind.isBought ∧ (l.budget ≠ none → l.kind = .topUp ∨ l.kind = .boost) ∧
    (l.reason ≠ none ↔ l.state = .revoking) ∧ (l.saved ≠ none ↔ l.state = .suspended) ∧
    (∀ ctx, l.saved = some ctx →
      ctx.state.isHeating = true ∧ (ctx.hold ≠ none ↔ ctx.state = .finishing ∧ l.kind ≠ .sanitise)) ∧
    (l.hold ≠ none ↔ l.state = .finishing ∧ l.kind ≠ .sanitise) ∧
    (l.state = .finishing ∨ l.state = .suspended → l.kind.isBought = true) ∧
    (l.state.isHeating = true ∨ l.state = .suspended → s.leaseHandle n ∈ s.admission.order) ∧
    (l.holder ≠ 0 → ∀ x ∈ (s.station l.holder).queue, x.cmd.handle? = some (s.leaseHandle n) →
      l.state.mayWait x.cmd = true) ∧
    (l.kind ≠ .topUp → l.serve = []) ∧ l.serve.length ≤ 8 ∧ l.serve.Nodup ∧
    ∀ h ∈ l.serve, 1 ≤ h.slot ∧ h.slot ≤ 24 ∧ ∃ x, s.recordOf? h = some x ∧ x.topUp = some (s.leaseHandle n)

/-- The lease table is in order: its leases; the admission order without duplicates, each of its handles that of a live
lease past OFFERED (R63); each record with a top-up lease open, and on the serve list of the live lease it names (R32,
R79); a SOLAR lease exactly while the loop is in PRIMING, CHARGING or REGULATING (R154); entry 0 of class SOLAR_THERMAL
(R119); the running trial that of an entry in QUALIFYING (R124, R126); and the commands that wait for each station
(R142, R143). -/
def State.tableInOrder (s : State) : Prop :=
  (∀ n l, 1 ≤ n → n ≤ 8 → s.lease? n = some l → s.leaseInOrder n l) ∧
    s.admission.order.Nodup ∧
    (∀ h ∈ s.admission.order, ∃ l, s.leaseOf? h = some l ∧ l.state ≠ .offered) ∧
    (∀ n x h, 1 ≤ n → n ≤ 24 → s.record? n = some x → x.topUp = some h →
      x.state.isOpen = true ∧ ∃ l, s.leaseOf? h = some l ∧ s.bookHandle n ∈ l.serve) ∧
    ((∃ n l, 1 ≤ n ∧ n ≤ 8 ∧ s.lease? n = some l ∧ l.kind = .solar) ↔ s.solar.state.hasLease = true) ∧
    (s.entry 0).cls = .solarThermal ∧
    (∀ y, s.roster.trial = some y → 1 ≤ y.entry ∧ y.entry ≤ 7 ∧ (s.entry y.entry).state = .qualifying) ∧
    ∀ i, 1 ≤ i → i ≤ 7 → s.queueInOrder i

end Sys2Proof.Machine
end

