-- ==== Sys2Proof/WellFormed.lean ====
section
/-! DEFINITION. Which operands a command can carry: what the fields of the frames of §8.2 and §11.2 hold, and what the
probes can give (§1.5). Nothing in the machine depends on it: a value a frame can carry and a rule refuses is well formed. -/

namespace Sys2Proof

/-- A number that a one-byte field carries. -/
def isByte (n : Nat) : Bool := n < 256

/-- A number that a two-byte field carries. -/
def isWord (n : Nat) : Bool := n < 65536

/-- A number that a four-byte field carries. -/
def isLong (n : Nat) : Bool := n < 4294967296

/-- A number that a signed two-byte field carries. -/
def isSigned (t : Int) : Bool := -32768 ≤ t && t ≤ 32767

/-- An optional number whose value a check accepts. -/
def isOpt {α : Type} (ok : α → Bool) : Option α → Bool
  | none => true
  | some x => ok x

/-- A reservation handle as two bytes carry it (§11.1). -/
def Handle.isPair (h : Handle) : Bool := isByte h.slot && isByte h.issue

/-- A lease handle as one byte carries it (§8.2). -/
def Handle.isNibbles (h : Handle) : Bool := h.slot < 16 && h.issue < 16

/-- A lease handle of a station, which 0x00 does not name (§8.2). -/
def Handle.isNamed (h : Handle) : Bool := h.isNibbles && !(h.slot == 0 && h.issue == 0)

/-- The address of a station (§8.2). -/
def isAddress (a : Nat) : Bool := 1 ≤ a && a ≤ 30

def BookTerms.wellFormed (t : BookTerms) : Bool :=
  isWord t.dueDay && isWord t.dueMinute && isWord t.volume && isSigned t.thetaMin && isWord t.lead
    && isOpt isByte t.repeatDays && isOpt isByte t.preferred

def AmendTerms.wellFormed (t : AmendTerms) : Bool :=
  isOpt (fun d => isWord d.1 && isWord d.2) t.due && isOpt isWord t.volume && isOpt isSigned t.thetaMin
    && isOpt isWord t.lead && isOpt (isOpt isByte) t.repeatDays && isOpt (isOpt isByte) t.preferred

def Readings.wellFormed (r : Readings) : Bool :=
  [r.s1, r.s2, r.s3, r.s4, r.s5, r.s6, r.s7, r.s8, r.collector, r.loopReturn].all isSigned

def Identity.wellFormed (i : Identity) : Bool :=
  isWord i.signature && isLong i.serial && isByte i.classCode && isByte i.inlet && isWord i.cap

def Item.wellFormed : Item → Bool
  | .request rate => isWord rate
  | .change rate => isWord rate
  | .report energy supply _ => isWord energy && isSigned supply
  | .retire h energy => h.isNibbles && isWord energy
  | .confirm h energy => h.isNibbles && isWord energy

/-- The command's operands fit the fields that carry them. -/
def Instr.wellFormed : Instr → Bool
  | .powerOn => true
  | .requestWriteRejected bytes => bytes.headD 0 != 0
  | .requestWriteWhileWorking bytes => bytes.headD 0 != 0
  | .answerRead _ => true
  | .answerPlaced => true
  | .identifyPart => true
  | .setClock day minute => isWord day && isWord minute
  | .readClock => true
  | .setStratumVolume number value => 1 ≤ number && number ≤ 8 && isSigned value
  | .setThetaMax value => isSigned value
  | .setReserveLine value => isSigned value
  | .setMargin value => isSigned value
  | .setLeaseParameter number value => 16 ≤ number && number ≤ 18 && isSigned value
  | .setSitePowerBudget value => isSigned value
  | .setSolarRating value => isSigned value
  | .setAutoCap value => isSigned value
  | .setLoopParameter number value => 32 ≤ number && number ≤ 43 && isSigned value
  | .setSanitiseSetting number value => 48 ≤ number && number ≤ 53 && isSigned value
  | .readParameter number => isByte number
  | .readStrata => true
  | .book terms => terms.wellFormed
  | .amend h terms => h.isPair && terms.wellFormed
  | .withdraw h => h.isPair
  | .release h => h.isPair
  | .lookupReservation h => h.isPair
  | .listReservations => true
  | .openBoost index ceiling minutes budget =>
    isByte index && isSigned ceiling && isWord minutes && isOpt isLong budget
  | .revokeLease h => h.isNibbles
  | .lookupLease h => h.isNibbles
  | .listLeases => true
  | .readStation index => isByte index
  | .setStation index capAction cap rankAction rank =>
    isByte index && isByte capAction && isWord cap && isByte rankAction && isByte rank
  | .clearBar index => isByte index
  | .relearn index => isByte index
  | .forget index => isByte index
  | .discover => true
  | .setSchedule slots => slots.length == 32 && slots.all isByte
  | .readSchedule => true
  | .readSolar => true
  | .remeasure => true
  | .readEvents => true
  | .setMask _ => true
  | .readCounters => true
  | .halt => true
  | .resumeAll => true
  | .reset => true
  | .sweepStart => true
  | .sweepComplete readings => readings.wellFormed
  | .passComplete => true
  | .clockMinuteAdvance => true
  | .durationExpiry h => h.isNibbles
  | .finishingHoldExpiry h => h.isNibbles
  | .revokeTimeout h => h.isNibbles
  | .learnedCapStepTimerExpiry h => h.isNibbles
  | .declineCooldownExpiry index => 1 ≤ index && index ≤ 7
  | .retryTimerExpiry index => 1 ≤ index && index ≤ 7
  | .trialWindowEnd => true
  | .arbiterDecision _ => true
  | .identity addr fields => isAddress addr && fields.wellFormed
  | .status addr _ handle item => isAddress addr && isOpt Handle.isNamed handle && isOpt Item.wellFormed item
  | .accept addr h => isAddress addr && h.isNibbles
  | .decline addr h => isAddress addr && h.isNibbles
  | .ack addr _ => isAddress addr
  | .answerRejected _ => true
  | .answerWindowExpiry => true
  | .broadcastExchangeEnd => true
  | .discoveryTimerExpiry => true
  | .callLineLow => true
  | .callIgnoreExpiry => true
  | .flowPulse => true
  | .primeTimerExpiry => true
  | .solarStepTimerExpiry => true
  | .stopTimerExpiry => true
  | .remeasureTimerExpiry => true

end Sys2Proof
end

