-- ==== Sys2Proof/Certificates/Slice0/Obligations.lean ====
section
/-! DEFINITION. The statements for the provers. -/

open Sys2Proof Sys2Proof.Machine

/-! ### The queue and the step -/

/-- The command at the front of the queue is taken and run on the state with the queue's rest. -/
def Obligations.StepRunsTheFrontCommand : Prop :=
  ∀ (c : Instr) (rest : List Instr) (s : State), s.pending = c :: rest → step s = exec c { s with pending := rest }

/-- On an empty queue one second passes (the model's choice, log entries 1, 17 and 25). The seconds of a set clock, the
sweep's count and every running timer move on by it, a lease's duration timer at the rate its state gives (R74), and
nothing else changes; and every timer that runs out in that second, and no other event, is put into the queue. -/
def Obligations.AnEmptyQueueIsOneSecond : Prop :=
  ∀ s : State, s.pending = [] → ∃ t, step s = .next t ∧
    let down := fun x : Option Nat => x.map (· - 1)
    let out := fun x : Option Nat => ∃ k, x = some k ∧ k ≤ 1
    let rate := fun l : Lease =>
      if l.state = .admitted ∨ l.state = .finishing then 2
      else if l.state = .throttled then (if s.admission.halfRate then 1 else 2) else 0
    let atEnd := s.clock.day = 65535 ∧ s.clock.minute = 1439
    t.map = { s.map with sweepIn := s.map.sweepIn - 1 } ∧
    t.clock =
      { s.clock with
        second := if s.clock.set = true ∧ s.clock.second < 59 then s.clock.second + 1
          else if s.clock.set = true ∧ atEnd then 0 else s.clock.second } ∧
    (∀ n, (t.leaseSlot n).issue = (s.leaseSlot n).issue) ∧
    (∀ n, t.lease? n = (s.lease? n).map fun l =>
      { l with
        timer := l.timer.map (· - rate l)
        hold := if l.state = .finishing then down l.hold else l.hold
        revokeTime := if l.state = .revoking then down l.revokeTime else l.revokeTime
        stepTimer := down l.stepTimer }) ∧
    t.admission = { s.admission with leases := t.admission.leases } ∧
    (∀ i, i ≤ 7 →
      t.entry i = { s.entry i with retry := down (s.entry i).retry, cooldown := down (s.entry i).cooldown }) ∧
    t.roster.autoCap = s.roster.autoCap ∧
    t.roster.trial = s.roster.trial.map (fun y => { y with window := down y.window }) ∧
    t.link = { s.link with ignoring := down s.link.ignoring, discoveryTimer := down s.link.discoveryTimer } ∧
    t.solar =
      { s.solar with
        prime := down s.solar.prime, step := down s.solar.step, stop := down s.solar.stop
        remeasure := down s.solar.remeasure, spacing := (down s.solar.spacing).filter (0 < ·)
        counted := min 10 (s.solar.counted + 1) } ∧
    t.book = s.book ∧ t.coverage = s.coverage ∧ t.sanitise = s.sanitise ∧ t.port = s.port ∧ t.moment = s.moment ∧
    ∀ e, e ∈ t.pending ↔
      (e = .sweepStart ∧ s.map.sweepIn ≤ 1) ∨
      (e = .clockMinuteAdvance ∧ s.clock.set = true ∧ 59 ≤ s.clock.second ∧ ¬atEnd) ∨
      (∃ n l, 1 ≤ n ∧ n ≤ 8 ∧ s.lease? n = some l ∧
        ((e = .finishingHoldExpiry (s.leaseHandle n) ∧ l.state = .finishing ∧ out l.hold) ∨
          (e = .durationExpiry (s.leaseHandle n) ∧ 0 < rate l ∧ ∃ x, l.timer = some x ∧ x ≤ rate l) ∨
          (e = .revokeTimeout (s.leaseHandle n) ∧ l.state = .revoking ∧ out l.revokeTime) ∨
          (e = .learnedCapStepTimerExpiry (s.leaseHandle n) ∧ out l.stepTimer))) ∨
      (∃ i, 1 ≤ i ∧ i ≤ 7 ∧ ((e = .declineCooldownExpiry i ∧ out (s.entry i).cooldown) ∨
        (e = .retryTimerExpiry i ∧ out (s.entry i).retry))) ∨
      (e = .trialWindowEnd ∧ ∃ y, s.roster.trial = some y ∧ out y.window) ∨
      (e = .callIgnoreExpiry ∧ out s.link.ignoring) ∨ (e = .discoveryTimerExpiry ∧ out s.link.discoveryTimer) ∨
      (e = .primeTimerExpiry ∧ out s.solar.prime) ∨ (e = .solarStepTimerExpiry ∧ out s.solar.step) ∨
      (e = .stopTimerExpiry ∧ out s.solar.stop) ∨ (e = .remeasureTimerExpiry ∧ out s.solar.remeasure)

/-- Every command has a next state on every operand in every state, and its effect leaves the queue alone. -/
def Obligations.EveryCommandCompletes : Prop :=
  ∀ (c : Instr) (s : State), ∃ t, exec c s = .next t ∧ t.pending = s.pending

/-! ### Requests and the service port (chapter 11) -/

/-- A request that ends while another is in work is discarded, and no block sees it; an answer read meanwhile gives
BUSY with the code of the request in work, and the work is not disturbed; its answer is placed and answer-ready
asserted when it ends (R175). A request written while none is in work is taken: the port works on it under its own
code, and an answer held before is discarded (R173); that answer-ready is deasserted when it is taken is the model's
reading, log entry 20. Work that ends has its answer placed: the port holds it and answer-ready is asserted. A read of
a held answer shifts out its frame and then 0xFF, keeps the answer, and deasserts answer-ready once the CRC byte is
out; a read of an empty port gives BAD_FRAME with a field of 0x00 (R173). With the port empty no answer is placed: the
event changes nothing (the model's choice, log entry 6). -/
def Obligations.RequestsAreTakenWorkedAndAnswered : Prop :=
  (∀ (s : State) (a : Answer), s.port.state = .working a →
     (∀ c, (requestCode c).isSome = true → exec c s = .next s) ∧
     (∀ bytes : List Byte, bytes.headD 0#8 ≠ 0#8 →
       exec (.requestWriteWhileWorking bytes) s = .next s ∧ exec (.requestWriteRejected bytes) s = .next s) ∧
     (∀ clocked, exec (.answerRead clocked) s = .next { s with port := { s.port with
       dataOut := shiftOut (Answer.frame { status := .busy, code := a.code, fields := [] }) clocked } }) ∧
     exec .answerPlaced s = .next { s with port := { s.port with state := .held a, ready := true } }) ∧
  (∀ (c : Instr) (s : State) (code : Byte), s.isWorking = false → requestCode c = some code →
     ∃ t st fields, exec c s = .next t ∧ t.answersWith st code fields) ∧
  ∀ (s : State) (a : Answer),
    (s.port.state = .working a →
      exec .answerPlaced s = .next { s with port := { s.port with state := .held a, ready := true } }) ∧
    (s.port.state = .held a → ∀ clocked,
      exec (.answerRead clocked) s = .next { s with port := { s.port with
        dataOut := a.frame.take clocked ++ List.replicate (clocked - a.frame.length) 0xFF#8
        ready := if a.frame.length ≤ clocked then false else s.port.ready } }) ∧
    (s.port.state = .empty →
      exec .answerPlaced s = .next s ∧
      ∀ clocked, exec (.answerRead clocked) s = .next { s with port := { s.port with
        dataOut := shiftOut (Answer.frame { status := .badFrame, code := 0#8, fields := [] }) clocked } })

/-- A request that only reads changes nothing but the port, whose flags, mask and wire stay. IDENTIFY PART answers the
family code 0x0608 and revision 1; READ CLOCK answers day, minute, second and the set state; READ PARAMETER answers the
value as a signed 16-bit figure, or BAD_FIELD for a number no parameter has (R16, R29, R30, R85, R134, §11.2). -/
def Obligations.ReadingRequestsChangeOnlyThePort : Prop :=
  ∀ s : State, s.isWorking = false →
    (∀ c, isReading c = true → ∃ st code fields, requestCode c = some code ∧ exec c s = .next (s.replies st code fields)) ∧
    exec .identifyPart s = .next (s.replies .ok 0x01#8 [0x06#8, 0x08#8, 0x01#8]) ∧
    exec .readClock s = .next (s.replies .ok 0x03#8
      (be16 s.clock.day ++ be16 s.clock.minute ++ [byte s.clock.second, if s.clock.set then 1#8 else 0#8])) ∧
    (∀ n v, s.parameter? n = some v →
      exec (.readParameter n) s = .next (s.replies .ok 0x09#8 (be16 (v % 65536).toNat))) ∧
    ∀ n, (n = 0 ∨ (11 < n ∧ n < 16) ∨ (21 < n ∧ n < 32) ∨ (43 < n ∧ n < 48) ∨ 53 < n) →
      exec (.readParameter n) s = .next (s.replies .badField 0x09#8 [])

/-- A SET PARAMETER answered OK leaves READ PARAMETER the value it set, whichever parameter it names (R11, R75, R94,
R89, R120, R153, R169). -/
def Obligations.ASetParameterIsReadBack : Prop :=
  ∀ (c : Instr) (number : Nat) (v : Int) (s t : State), s.isWorking = false →
    (c = .setStratumVolume number v ∨ (c = .setThetaMax v ∧ number = 9) ∨ (c = .setReserveLine v ∧ number = 10) ∨
      (c = .setMargin v ∧ number = 11) ∨ c = .setLeaseParameter number v ∨ (c = .setSitePowerBudget v ∧ number = 19) ∨
      (c = .setSolarRating v ∧ number = 20) ∨ (c = .setAutoCap v ∧ number = 21) ∨ c = .setLoopParameter number v ∨
      c = .setSanitiseSetting number v) →
    exec c s = .next t → t.answersWith .ok 0x08#8 [] → t.parameter? number = some v

/-- READ STRATA answers 139 field bytes: fourteen for each stratum from S1 on, ten each for the collector and the return
probe, and the validity, guard, θmax, reserve line and margin (R16). READ STATION answers BAD_FIELD for an index above
7, the state alone for an ABSENT entry and else the entry's fields in the order of its table and, beside them, the
trial, the lease handle, the latest STATUS and the supply temperature (R134); READ SCHEDULE the 32 slots and the cursor
(R146); READ SOLAR the loop's state, pump, valve, inlet, reference stratum, target, timers, spacing, remainder, stop
point and lease (R166). Figures stand most significant byte first, a field that may be absent behind its presence byte
and as zeros where it is absent, a state by its place in its table (§11.1, §11.2). Which fields of an entry are sent
plain is log entry 19; that READ SOLAR shows no target, whatever fixed one the host has given, where the loop holds none
is log entry 54. -/
def Obligations.TheMapTheRosterAndTheLoopAreAnswered : Prop :=
  (∀ n : Nat, be16 n = [BitVec.ofNat 8 (n / 256), BitVec.ofNat 8 n] ∧ byte n = BitVec.ofNat 8 n ∧
    be32 n = [BitVec.ofNat 8 (n / 16777216), BitVec.ofNat 8 (n / 65536), BitVec.ofNat 8 (n / 256), BitVec.ofNat 8 n] ∧
    ∀ v : Int, beSigned v = [BitVec.ofInt 8 (v / 256), BitVec.ofInt 8 v]) ∧
  ([ProbeState.valid, .faulted].map ProbeState.pos = [0#8, 1#8] ∧
    [GuardState.clear, .half, .shut].map GuardState.pos = [0#8, 1#8, 2#8] ∧
    [SourceClass.solarThermal, .pvSurplus, .recovered, .heatPump, .combustion, .gridElectric].map SourceClass.pos =
      [0#8, 1#8, 2#8, 3#8, 4#8, 5#8] ∧
    [EntryState.absent, .identifying, .qualifying, .ready, .barred, .lost].map EntryState.pos =
      [0#8, 1#8, 2#8, 3#8, 4#8, 5#8] ∧
    [LoopState.off, .priming, .charging, .regulating, .stagnant, .recooling, .faulted].map LoopState.pos =
      [0#8, 1#8, 2#8, 3#8, 4#8, 5#8, 6#8] ∧
    [Valve.lower, .upper].map Valve.pos = [0#8, 1#8]) ∧
  ∀ s : State, s.isWorking = false →
    let opt := fun (width : Nat) (x : Option (List Byte)) => match x with
      | none => 0#8 :: List.replicate width 0#8
      | some b => 1#8 :: b
    let probe := fun (temp : Temp) (p : Probe) => beSigned temp ++ [p.state.pos, byte p.history.length] ++
      beSigned (p.history.getD 0 0) ++ beSigned (p.history.getD 1 0) ++ beSigned (p.history.getD 2 0)
    let handle := fun h : Option Handle => match h with
      | none => 0#8
      | some h => byte (16 * h.issue + h.slot)
    let m := s.map
    exec .readStrata s = .next (s.replies .ok 0x0A#8 (strataBytes m)) ∧
    (strataBytes m).length = 139 ∧
    (∀ n, 1 ≤ n → n ≤ 8 → ((strataBytes m).drop (14 * (n - 1))).take 14 =
      probe (s.temp n) (s.stratum n).probe ++ be16 (s.stratum n).volume ++ be16 (s.stratum n).claimed) ∧
    (strataBytes m).drop 112 =
      probe m.collector.temp m.collector.probe ++ probe m.loopReturn.temp m.loopReturn.probe ++
        [if m.valid then 1#8 else 0#8, m.guard.pos] ++ beSigned m.thetaMax ++ [byte m.reserveLine] ++
        beSigned m.margin ∧
    (∀ i, 7 < i → exec (.readStation i) s = .next (s.replies .badField 0x20#8 [])) ∧
    (∀ i, i ≤ 7 → (s.entry i).state = .absent →
      exec (.readStation i) s = .next (s.replies .ok 0x20#8 [0#8])) ∧
    (∀ i, i ≤ 7 → (s.entry i).state ≠ .absent →
      let e := s.entry i
      let link := fun b : List Byte => if i = 0 then none else some b
      let bought := fun x : Option Nat => if e.cls.isBought then x else none
      exec (.readStation i) s = .next (s.replies .ok 0x20#8
        (opt 1 (link [byte e.address]) ++ opt 1 (e.partner.map fun k => [byte k]) ++
          opt 1 (link [if e.baseMark then 1#8 else 0#8]) ++ opt 4 (link (be32 e.serial)) ++
          [e.cls.pos, byte (s.entryInlet i)] ++ be16 (if i = 0 then s.admission.rating else e.declared) ++
          opt 2 (e.hostCap.map be16) ++ opt 2 (e.learned.map be16) ++ be16 (s.effectiveCap i) ++ [e.state.pos] ++
          opt 1 ((bought (some e.failures)).map fun k => [byte k]) ++ opt 2 (e.retry.map be16) ++
          opt 2 (e.cooldown.map be16) ++ opt 1 ((bought e.rank).map fun k => [byte k]) ++ opt 1 (link [byte e.missed]) ++
          opt 7 (e.last.map fun x => [handle (some x.handle), x.kind.pos, x.outcome.pos] ++ be32 x.delivered) ++
          be32 e.lifetime ++
          opt 9 ((s.roster.trial.filter fun y => y.entry == i).map fun y =>
            be16 y.rate ++ be32 y.energy ++ opt 2 (y.window.map be16)) ++
          [handle (s.handleHeldBy i)] ++
          opt 6 ((s.station i).status.map fun x => [x.flags] ++ be16 x.day ++ be16 x.minute ++ [byte x.second]) ++
          opt 2 ((s.station i).supply.map beSigned)))) ∧
    exec .readSchedule s = .next (s.replies .ok 0x27#8 (s.link.schedule.toList.map byte ++ [byte s.link.cursor])) ∧
    let v := s.solar
    exec .readSolar s = .next (s.replies .ok 0x28#8
      ([v.state.pos, byte v.pump, v.valve.pos, byte v.inlet, byte s.reference,
          if v.target = none then 0#8 else if v.params.fixedTarget = none then 2#8 else 1#8] ++
        beSigned (v.target.getD 0) ++ opt 2 (v.prime.map be16) ++ opt 2 (v.step.map be16) ++ opt 2 (v.stop.map be16) ++
        opt 2 (v.remeasure.map be16) ++ opt 2 (v.spacing.map be16) ++ be32 v.remainder ++
        opt 2 (v.stopPoint.map beSigned) ++ [handle (s.handleHeldBy 0)]))

/-- A request naming a reservation has its handle resolved before anything else is judged: BAD_FIELD outside slots 1 to
24, STALE where the issue differs, NO_SUCH on a free slot, and such a request changes nothing; where the handle names a
record, LOOKUP answers its fields in the order of its table (R19, R20, R29). LIST RESERVATIONS answers the number of
free slots and then each occupied slot, ascending, with its handle and state (R30). The same for a request naming a
lease (R61), whose fields LOOKUP LEASE answers with its place in the admission order, timers in seconds rounded up
(R74); LIST LEASES answers the number of free slots and each occupied one in ascending order (R85). -/
def Obligations.HandlesAreResolvedFirst : Prop :=
  let opt := fun (width : Nat) (x : Option (List Byte)) => match x with
    | none => 0#8 :: List.replicate width 0#8
    | some b => 1#8 :: b
  let one := fun k : Nat => [byte k]
  let flag := fun b : Bool => [if b then 1#8 else 0#8]
  let lease := fun h : Handle => [byte (16 * h.issue + h.slot)]
  ([ResState.booked, .covered, .atRisk, .served, .missed, .withdrawn].map ResState.pos =
      [0#8, 1#8, 2#8, 3#8, 4#8, 5#8] ∧
    [LeaseKind.solar, .free, .topUp, .sanitise, .boost].map LeaseKind.pos = [0#8, 1#8, 2#8, 3#8, 4#8] ∧
    [Origin.part, .station, .host].map Origin.pos = [0#8, 1#8, 2#8] ∧
    [LeaseState.offered, .admitted, .throttled, .suspended, .finishing, .revoking].map LeaseState.pos =
      [0#8, 1#8, 2#8, 3#8, 4#8, 5#8] ∧
    [LeaseOutcome.completed, .expired, .revoked, .declined, .sourceLost, .sourceEnded, .ceased, .satisfiedByFree,
      .unneeded].map LeaseOutcome.pos = [0#8, 1#8, 2#8, 3#8, 4#8, 5#8, 6#8, 7#8, 8#8]) ∧
  (∀ (s : State) (h : Handle), s.isWorking = false →
    (∀ st,
      ((h.slot < 1 ∨ 24 < h.slot) ∧ st = .badField) ∨
        (1 ≤ h.slot ∧ h.slot ≤ 24 ∧ h.issue ≠ (s.bookSlot h.slot).issue ∧ st = .stale) ∨
        (1 ≤ h.slot ∧ h.slot ≤ 24 ∧ h.issue = (s.bookSlot h.slot).issue ∧ s.record? h.slot = none ∧ st = .noSuch) →
      (∀ x, exec (.amend h x) s = .next (s.replies st 0x11#8 [])) ∧
        exec (.withdraw h) s = .next (s.replies st 0x12#8 []) ∧
        exec (.release h) s = .next (s.replies st 0x13#8 []) ∧
        exec (.lookupReservation h) s = .next (s.replies st 0x14#8 [])) ∧
    (∀ r, 1 ≤ h.slot → h.slot ≤ 24 → h.issue = (s.bookSlot h.slot).issue → s.record? h.slot = some r →
      exec (.lookupReservation h) s = .next (s.replies .ok 0x14#8
        ([byte h.slot, byte h.issue] ++ be16 r.terms.dueDay ++ be16 r.terms.dueMinute ++ be16 r.terms.volume ++
          beSigned r.terms.thetaMin ++ be16 r.terms.lead ++ opt 1 (r.terms.repeatDays.map one) ++
          opt 1 (r.terms.preferred.map one) ++ [r.state.pos] ++ opt 2 (r.figures.covered.map be16) ++
          opt 1 (r.figures.depth.map one) ++ opt 2 (r.figures.shortfall.map be16) ++ opt 4 (r.figures.deficit.map be32) ++
          opt 1 (r.figures.beyond.map flag) ++ opt 1 (r.figures.marginMet.map flag) ++ opt 1 (r.topUp.map lease) ++
          opt 5 (r.last.map fun o =>
            [if o.served then ResState.pos .served else ResState.pos .missed] ++ be16 o.shortfall ++ be16 o.day)))) ∧
    ∃ slots : List Nat,
      slots.Pairwise (· < ·) ∧ (∀ n, n ∈ slots ↔ 1 ≤ n ∧ n ≤ 24 ∧ (s.record? n).isSome = true) ∧ slots.length ≤ 24 ∧
      exec .listReservations s = .next (s.replies .ok 0x15#8
        (byte (24 - slots.length) :: slots.flatMap fun n =>
          [byte n, byte (s.bookSlot n).issue, (((s.record? n).map (·.state.pos)).getD 0#8)]))) ∧
  ∀ (s : State) (h : Handle), s.isWorking = false →
    (∀ st,
      ((h.slot < 1 ∨ 8 < h.slot) ∧ st = .badField) ∨
        (1 ≤ h.slot ∧ h.slot ≤ 8 ∧ h.issue ≠ (s.leaseSlot h.slot).issue ∧ st = .stale) ∨
        (1 ≤ h.slot ∧ h.slot ≤ 8 ∧ h.issue = (s.leaseSlot h.slot).issue ∧ s.lease? h.slot = none ∧ st = .noSuch) →
      exec (.revokeLease h) s = .next (s.replies st 0x19#8 []) ∧
        exec (.lookupLease h) s = .next (s.replies st 0x1A#8 [])) ∧
    (∀ l, 1 ≤ h.slot → h.slot ≤ 8 → h.issue = (s.leaseSlot h.slot).issue → s.lease? h.slot = some l →
      let seconds := fun half : Nat => be16 ((half + 1) / 2)
      exec (.lookupLease h) s = .next (s.replies .ok 0x1A#8
        (lease h ++ [l.kind.pos, l.origin.pos, byte l.holder, l.state.pos, byte l.inlet] ++ beSigned l.ceiling ++
          be16 l.entitlement ++ be16 l.granted ++ opt 4 (l.budget.map be32) ++ be32 l.delivered ++
          opt 2 (l.limit.map be16) ++ opt 2 (l.timer.map seconds) ++ opt 2 (l.hold.map be16) ++
          opt 16 (l.saved.map fun c =>
            [c.state.pos] ++ be16 c.rate ++ seconds (c.timer.getD 0) ++ opt 2 (c.hold.map be16) ++ be32 c.freeMark ++
              be32 c.deliveredMark) ++
          opt 17 (if l.kind = .topUp then
            some (byte l.serve.length :: (l.serve.flatMap (fun r => [byte r.slot, byte r.issue]) ++
              List.replicate (2 * (8 - l.serve.length)) 0#8)) else none) ++
          opt 1 (l.handovers.map one) ++ opt 1 (l.reason.map fun o => [o.pos]) ++ opt 2 (l.revokeTime.map be16) ++
          [byte ((s.admission.order.findIdx? (· == h)).elim 0 (· + 1))]))) ∧
    ∃ slots : List Nat,
      slots.Pairwise (· < ·) ∧ (∀ n, n ∈ slots ↔ 1 ≤ n ∧ n ≤ 8 ∧ (s.lease? n).isSome = true) ∧
      exec .listLeases s = .next (s.replies .ok 0x1B#8
        (byte (8 - slots.length) :: slots.flatMap fun n => (s.lease? n).toList.flatMap fun l =>
          [leaseByte (s.leaseHandle n), l.kind.pos, byte l.holder, l.state.pos]))

/-- A request write that fails the port's checks is answered at once, the first check that fails giving the answer:
BAD_FRAME for a wrong count, length or CRC, UNKNOWN_REQUEST for a code outside the catalogue, BAD_FIELD for a length
the catalogue does not allow. The port holds the answer with the first byte echoed, and no block is reached (R174). -/
def Obligations.ABadRequestWriteIsAnsweredAtOnce : Prop :=
  ∀ (s : State) (code len : Byte) (rest : List Byte) (st : Status), s.isWorking = false → code ≠ 0#8 →
    let bytes := code :: len :: rest
    let sound := bytes.length = len.toNat + 3 ∧ len.toNat ≤ 60 ∧ bytes.getLast? = some (crc8 bytes.dropLast)
    (¬sound ∧ st = .badFrame ∨
      sound ∧ requestLength code.toNat = none ∧ st = .unknownRequest ∨
      sound ∧ (∃ n, requestLength code.toNat = some n ∧ n ≠ len.toNat) ∧ st = .badField) →
    exec (.requestWriteRejected bytes) s =
      .next { s with port := { s.port with
        state := .held { status := st, code := code, fields := [] }, ready := true } } ∧
    exec (.requestWriteRejected [code]) s =
      .next { s with port := { s.port with
        state := .held { status := .badFrame, code := code, fields := [] }, ready := true } }

/-- Bytes and requests agree: the frame of a request whose operands fit their fields passes the port's checks and
carries that request back (§11.2, R174). -/
def Obligations.RequestFramesCarryTheirRequest : Prop :=
  ∀ c : Instr, c.wellFormed = true → (requestCode c).isSome = true → examine (requestFrame c) = .taken c

/-- READ EVENTS answers the sixteen flags, the mask and the five status bytes, and clears every flag and nothing else
(R178). The attention line is asserted while at least one flag is set whose mask bit is 0, and is deasserted otherwise;
SET MASK replaces the mask by any 16-bit value, is answered OK and changes no flag; the mask is 0x0000 after power-on
and after a RESET request (R177). READ COUNTERS answers the six counts and the free-heat counter in their order, and
clears the six and nothing else; a count goes up by one and stops at 65,535; all are 0 after power-on and after a RESET
request (R179). -/
def Obligations.EventsMaskAndCountersAreRead : Prop :=
  (∀ s : State, s.isWorking = false →
     exec .readEvents s = .next { s with port := { s.port.takes .ok 0x30#8
       (be16 s.port.flags.toNat ++ be16 s.port.mask.toNat ++
         [if s.map.valid then 1#8 else 0#8, if s.clock.set then 1#8 else 0#8, s.solar.state.pos,
           if s.link.enumeration = .idle then 0#8 else 1#8, if s.admission.halted then 1#8 else 0#8]) with
       flags := 0#16 } }) ∧
  ((∀ p : Port, p.attention = true ↔ ∃ k, k < 16 ∧ p.flags.getLsbD k = true ∧ p.mask.getLsbD k = false) ∧
   (∀ (s : State) (m : BitVec 16), s.isWorking = false →
     exec (.setMask m) s = .next { s with port := { s.port.takes .ok 0x31#8 [] with mask := m } }) ∧
   State.reset.port.mask = 0#16 ∧
   ∀ s : State, s.isWorking = false → ∃ t, exec .reset s = .next t ∧ t.port.mask = 0#16) ∧
  (∀ n, n ≤ 65535 → satInc n = if n = 65535 then 65535 else n + 1) ∧
  ∀ s : State, s.isWorking = false →
    (∀ c, c = .powerOn ∨ c = .reset → ∃ t, exec c s = .next t ∧ t.link.ghostCalls = 0 ∧ t.link.stuckCalls = 0 ∧
      t.link.badIdentities = 0 ∧ t.link.staleItems = 0 ∧ t.book.starved = 0 ∧ t.admission.revokeTimeouts = 0) ∧
    exec .readCounters s = .next { s with
      link := { s.link with ghostCalls := 0, stuckCalls := 0, badIdentities := 0, staleItems := 0 }
      book := { s.book with starved := 0 }
      admission := { s.admission with revokeTimeouts := 0 }
      port := s.port.takes .ok 0x32#8
        (be16 s.link.ghostCalls ++ be16 s.link.stuckCalls ++ be16 s.link.badIdentities ++ be16 s.link.staleItems ++
          be16 s.book.starved ++ be16 s.admission.revokeTimeouts ++ be32 s.admission.freeHeat) }

/-- Raising a flag sets it and leaves the fifteen others and the mask, whatever the mask; READ EVENTS and RESET taken
clear the flags, RESET and power-on all but CLOCK_UNSET, and no other command clears one, a request write among them
unless it is taken and its bytes spell READ EVENTS or RESET (R176). -/
def Obligations.FlagsStayUntilTheyAreRead : Prop :=
  (∀ (s : State) (e : EventFlag), (s.raise e).flagged e = true ∧ (s.raise e).port.mask = s.port.mask ∧
    ∀ e', e' ≠ e → (s.raise e).flagged e' = s.flagged e') ∧
  (∀ s : State, s.isWorking = false →
    (∃ t, exec .readEvents s = .next t ∧ ∀ e, t.flagged e = false) ∧
    ∀ c, c = .reset ∨ c = .powerOn → ∃ t, exec c s = .next t ∧ ∀ e, e ≠ .clockUnset → t.flagged e = false) ∧
  ∀ (c : Instr) (s t : State), c ≠ .readEvents → c ≠ .reset → c ≠ .powerOn →
    (∀ bytes, (c = .requestWriteRejected bytes ∨ c = .requestWriteWhileWorking bytes) → s.isWorking = false →
      examine bytes ≠ .taken .readEvents ∧ examine bytes ≠ .taken .reset) →
    exec c s = .next t → ∀ e, s.flagged e = true → t.flagged e = true

/-! ### The cylinder and its strata (chapter 1) -/

/-- A sweep-start puts a sweep in flight and the next one 10 s away, and changes nothing else. A sweep in flight
completes: the new map is published as a whole (R1), every block reads it, PROBE_FAULT is raised when some probe went
from VALID to FAULTED (R2) and MAP_INVALID when the map turned INVALID or the first sweep left it so (R7), the
admission controller takes the guard (R91), and under a VALID map a pass is in flight afterwards (R8, R40). The
records' terms, verdicts and figures, the clock, the loop parameters and the port's answer stay. With no sweep in
flight nothing changes (the model's choice, log entry 6). -/
def Obligations.SweepCompletePublishesTheMap : Prop :=
  ∀ (r : Readings) (s : State),
    exec .sweepStart s = .next { s with map := { s.map with sweeping := true, sweepIn := 10 } } ∧
    (s.map.sweeping = true → ∃ t, exec (.sweepComplete r) s = .next t ∧
      t.map = s.map.afterSweep r ∧ t.admission.guard = (s.map.afterSweep r).guard ∧
      ((∃ p ∈ s.map.probes.zip t.map.probes, p.1.state = .valid ∧ p.2.state = .faulted) → t.flagged .probeFault = true) ∧
      (t.map.valid = false → (s.map.valid = true ∨ s.map.swept = false) → t.flagged .mapInvalid = true) ∧
      (t.map.valid = true → t.coverage.pass.isSome = true) ∧
      (∀ n x, s.record? n = some x → ∃ x', t.record? n = some x' ∧ sameBooking x x') ∧
      t.clock = s.clock ∧ t.solar.params = s.solar.params ∧ t.port.state = s.port.state ∧ t.port.mask = s.port.mask) ∧
    (s.map.sweeping = false → exec (.sweepComplete r) s = .next s)

/-- A reading judged and filed (R2, R4): a valid one is added as the newest of no more than three; one outside the
range puts the probe into FAULTED with an empty history; a FAULTED probe becomes VALID when its history reaches three,
and a VALID one stays VALID. The filtered temperature (R3): with three readings one of them with at least two at or
below it and at least two at or above it; with two the lower; with one that one. The strata of a published map and its
guard (R5, R7, R15): a VALID probe gives its stratum its own filtered temperature; a FAULTED stratum takes that of the
nearest VALID one below it, or else of the nearest VALID one above it; with none VALID the map is INVALID and every
temperature stays. Volumes and claims stay. The collector and the return take their own filtered temperatures while
VALID and hold them else (R6). The guard is CLEAR below θmax less 3.0 K, HALF from there to θmax, SHUT from θmax on and
while the map is INVALID. -/
def Obligations.AMapIsFiledFilteredAndGuarded : Prop :=
  ((∀ (range : ProbeRange) (x : Temp) (p : Probe), p.history.length ≤ 3 →
     (¬(range.lo ≤ x ∧ x ≤ range.hi) → p.file range x = { state := .faulted, history := [] }) ∧
     (range.lo ≤ x → x ≤ range.hi →
       (p.file range x).history = (if p.history.length = 3 then p.history.tail ++ [x] else p.history ++ [x]) ∧
       (p.state = .valid → (p.file range x).state = .valid) ∧
       (p.state = .faulted → ((p.file range x).state = .valid ↔ 2 ≤ p.history.length)))) ∧
   (stratumRange.lo = -100 ∧ stratumRange.hi = 1100 ∧ collectorRange.lo = -400 ∧ collectorRange.hi = 2200 ∧
     returnRange.lo = -200 ∧ returnRange.hi = 1600) ∧
   ∀ a b c : Temp,
     filtered [a] = a ∧ filtered [a, b] = min a b ∧
     filtered [a, b, c] ∈ [a, b, c] ∧
     2 ≤ ([a, b, c].filter fun x => decide (x ≤ filtered [a, b, c])).length ∧
     2 ≤ ([a, b, c].filter fun x => decide (filtered [a, b, c] ≤ x)).length ∧
     ((a = b ∨ a = c) → filtered [a, b, c] = a) ∧ (b = c → filtered [a, b, c] = b)) ∧
  ∀ (m : StratumMap) (r : Readings) (n : Nat), 1 ≤ n → n ≤ 8 →
    let x := (m.afterSweep r).stratum n
    let ok := fun k => 1 ≤ k ∧ k ≤ 8 ∧ (m.filedProbe r k).state = .valid
    x.probe = m.filedProbe r n ∧ x.volume = (m.stratum n).volume ∧ x.claimed = (m.stratum n).claimed ∧
    (ok n → x.temp = filtered (m.filedProbe r n).history) ∧
    (∀ k, k < n → ok k → (∀ j, k < j → j ≤ n → ¬ok j) → x.temp = filtered (m.filedProbe r k).history) ∧
    (∀ k, n < k → ok k → (∀ j, j < k → ¬ok j) → x.temp = filtered (m.filedProbe r k).history) ∧
    ((∀ k, ¬ok k) → x.temp = (m.stratum n).temp) ∧
    ((m.afterSweep r).valid = true ↔ ∃ k, ok k) ∧
    (m.afterSweep r).collector.temp =
      (if (m.collector.probe.file collectorRange r.collector).state = .valid then
        filtered (m.collector.probe.file collectorRange r.collector).history else m.collector.temp) ∧
    (m.afterSweep r).loopReturn.temp =
      (if (m.loopReturn.probe.file returnRange r.loopReturn).state = .valid then
        filtered (m.loopReturn.probe.file returnRange r.loopReturn).history else m.loopReturn.temp) ∧
    let m' := m.afterSweep r
    (m'.valid = false → m'.guard = .shut) ∧
    (m'.valid = true →
      ((m'.stratum 8).temp < m.thetaMax - 30 → m'.guard = .clear) ∧
      (m.thetaMax - 30 ≤ (m'.stratum 8).temp → (m'.stratum 8).temp < m.thetaMax → m'.guard = .half) ∧
      (m.thetaMax ≤ (m'.stratum 8).temp → m'.guard = .shut))

/-- A change of a stratum volume is taken where the value is 5 to 125 L and every open reservation still fits in the
cylinder; it starts no pass. It is refused BAD_FIELD, with nothing changed, where it does not (R11, R12); that a
stratum number outside 1 to 8 is answered so is the model's reading, log entry 21. A value equal to the present one is
answered OK and changes nothing (R11). A change of the margin within 2.0 to 10.0 K takes effect at once and starts a
pass or sets rerun-pending; any other value is answered BAD_FIELD and an equal one OK without effect (R11, R14). -/
def Obligations.VolumesAndTheMarginAreSet : Prop :=
  (∀ (s : State) (n : Nat) (v : Int), s.isWorking = false → 1 ≤ n → n ≤ 8 → (s.stratum n).volume ≠ v.toNat →
    let fits := ∀ k r, 1 ≤ k → k ≤ 24 → s.record? k = some r → r.state.isOpen = true →
      r.terms.volume ≤ (s.map.withVolume n v.toNat).cylinderVolume
    (5 ≤ v → v ≤ 125 → fits → ∃ t, exec (.setStratumVolume n v) s = .next t ∧
      t.map = s.map.withVolume n v.toNat ∧ (t.stratum n).volume = v.toNat ∧
      (∀ k, 1 ≤ k → k ≤ 8 → k ≠ n → t.stratum k = s.stratum k) ∧ s.answersOk t 0x08#8 [] ∧
      s.sameOutside t [.map, .admission, .roster, .link, .port] ∧ s.sameTable t) ∧
    (¬(5 ≤ v ∧ v ≤ 125 ∧ fits) → exec (.setStratumVolume n v) s = .next (s.replies .badField 0x08#8 [])) ∧
    (∀ k w, k < 1 ∨ 8 < k → exec (.setStratumVolume k w) s = .next (s.replies .badField 0x08#8 [])) ∧
    ((s.stratum n).volume ≤ 125 → 5 ≤ (s.stratum n).volume →
      ∃ t, exec (.setStratumVolume n (s.stratum n).volume) s = .next t ∧ s.answersOk t 0x08#8 [] ∧
        s.sameOutside t [.admission, .roster, .link, .port] ∧ s.sameTable t)) ∧
  ∀ (s : State) (v : Int), s.isWorking = false →
    (20 ≤ v → v ≤ 100 → v ≠ s.map.margin → ∃ t, exec (.setMargin v) s = .next t ∧
      t.map = { s.map with margin := v } ∧ s.passStarted t ∧ s.answersOk t 0x08#8 [] ∧
      s.sameOutside t [.map, .coverage, .admission, .roster, .link, .port] ∧ s.sameTable t) ∧
    ((v < 20 ∨ 100 < v) → exec (.setMargin v) s = .next (s.replies .badField 0x08#8 [])) ∧
    (20 ≤ v → v ≤ 100 → v = s.map.margin → ∃ t, exec (.setMargin v) s = .next t ∧ s.answersOk t 0x08#8 [] ∧
      s.sameOutside t [.admission, .roster, .link, .port] ∧ s.sameTable t)

/-- A change of the reserve line within 2 to 8 takes effect at once; a pass is in flight under a VALID map; a sanitise
floor below a raised line is raised to it with the accumulator at 0, and keeps its value under a lowered one; no bought
lease whose holder's inlet lies below a raised line is left outside REVOKING (R13, R115, R169). A value outside is
answered BAD_FIELD and changes nothing (R11). A value equal to the present one is answered OK and changes nothing
(R11). A change of θmax within 60.0 to 95.0 °C recomputes the guard at once, the admission controller holds it, and
every FREE and SOLAR lease still in the table has θmax as its ceiling (R15, R62, R91). A value outside is answered
BAD_FIELD and changes nothing (R11). A value equal to the present one is answered OK and changes nothing (R11). -/
def Obligations.ReserveLineAndThetaMaxAreSet : Prop :=
  (∀ (s : State) (v : Nat), s.isWorking = false → 2 ≤ v → v ≤ 8 → v ≠ s.map.reserveLine →
     (∃ t, exec (.setReserveLine v) s = .next t ∧ t.answersWith .ok 0x08#8 [] ∧
       t.map = { s.map with reserveLine := v } ∧ (s.map.valid = true → t.coverage.pass.isSome = true) ∧
       (s.map.reserveLine < v → s.sanitise.floor < v → t.sanitise = { s.sanitise with floor := v, accumulator := 0 }) ∧
       ((v < s.map.reserveLine ∨ v ≤ s.sanitise.floor) → t.sanitise = s.sanitise) ∧
       (s.map.reserveLine < v → ∀ n l, 1 ≤ n → n ≤ 8 → t.lease? n = some l → l.kind.isBought = true →
         t.entryInlet l.holder < v → l.state = .revoking) ∧
       (∀ n x, s.record? n = some x → ∃ x', t.record? n = some x' ∧ sameBooking x x') ∧ t.clock = s.clock) ∧
     (2 ≤ s.map.reserveLine → s.map.reserveLine ≤ 8 → ∃ t, exec (.setReserveLine s.map.reserveLine) s = .next t ∧
       s.answersOk t 0x08#8 [] ∧ s.sameOutside t [.admission, .roster, .link, .port] ∧ s.sameTable t) ∧
     ∀ w : Int, w < 2 ∨ 8 < w → exec (.setReserveLine w) s = .next (s.replies .badField 0x08#8 [])) ∧
  ∀ (s : State) (v : Int), s.isWorking = false → 600 ≤ v → v ≤ 950 → v ≠ s.map.thetaMax →
    (∃ t, exec (.setThetaMax v) s = .next t ∧ t.answersWith .ok 0x08#8 [] ∧
      t.map = { s.map with thetaMax := v, guard := guardOf s.map.valid (s.temp 8) v } ∧
      (t.map.guard ≠ s.map.guard → t.admission.guard = t.map.guard) ∧
      (t.map.guard = s.map.guard → t.admission.guard = s.admission.guard) ∧
      (∀ n l, 1 ≤ n → n ≤ 8 → t.lease? n = some l → l.kind.isBought = false → l.ceiling = v) ∧
      (∀ n x, s.record? n = some x → ∃ x', t.record? n = some x' ∧ sameBooking x x') ∧
      t.clock = s.clock ∧ t.sanitise = s.sanitise ∧ t.solar.params = s.solar.params) ∧
    (600 ≤ s.map.thetaMax → s.map.thetaMax ≤ 950 → ∃ t, exec (.setThetaMax s.map.thetaMax) s = .next t ∧
      s.answersOk t 0x08#8 [] ∧ s.sameOutside t [.admission, .roster, .link, .port] ∧ s.sameTable t) ∧
    ∀ w : Int, w < 600 ∨ 950 < w → exec (.setThetaMax w) s = .next (s.replies .badField 0x08#8 [])

/-! ### The reservation book (chapter 2) and the day clock -/

/-- A BOOK that passes every check places its record in the lowest-numbered free slot, BOOKED under its terms with
nothing else, answers the new handle and gives a pass start; every other slot and the counter stay (R18, R21, R23). A
BOOK that fails a check is answered by the first that fails and changes nothing: CLOCK_UNSET, then BAD_FIELD for a
field out of its range, a volume above the cylinder's or a due not later than now. One that passes them against a full
book is answered BOOK_FULL, raises the starvation counter to no more than 65,535 and sets BOOK_STARVED (R21, R22). -/
def Obligations.ABookingIsPlacedOrRefused : Prop :=
  (∀ (s : State) (b : BookTerms) (n : Nat), s.isWorking = false → s.clock.set = true →
    b.dueDay ≤ 65535 → b.dueMinute ≤ 1439 → 10 ≤ b.volume → b.volume ≤ s.map.cylinderVolume →
    350 ≤ b.thetaMin → b.thetaMin ≤ 700 → 10 ≤ b.lead → b.lead ≤ 360 →
    (∀ k, b.repeatDays = some k → 1 ≤ k ∧ k ≤ 7) → (∀ k, b.preferred = some k → 1 ≤ k ∧ k ≤ 7) →
    s.clock.now < dueOf b → 1 ≤ n → n ≤ 24 → s.record? n = none → (∀ k, 1 ≤ k → k < n → s.record? k ≠ none) →
    ∃ t, exec (.book b) s = .next t ∧
      s.answersOk t 0x10#8 [byte n, byte (s.bookSlot n).issue] ∧
      t.bookSlot n =
        { issue := (s.bookSlot n).issue
          record := some
            { terms := b, state := .booked, topUp := none, last := none
              figures := { covered := none, depth := none, shortfall := none, deficit := none, beyond := none
                           marginMet := none } } } ∧
      (∀ k, 1 ≤ k → k ≤ 24 → k ≠ n → t.bookSlot k = s.bookSlot k) ∧ t.book.starved = s.book.starved ∧
      s.passStarted t ∧ s.sameOutside t [.book, .coverage, .admission, .roster, .link, .port] ∧ s.sameTable t) ∧
  ∀ (s : State) (b : BookTerms), s.isWorking = false →
    (s.clock.set = false → exec (.book b) s = .next (s.replies .clockUnset 0x10#8 [])) ∧
    (s.clock.set = true →
      (bookFieldsOk b = false ∨ s.map.cylinderVolume < b.volume ∨ dueOf b ≤ s.clock.now) →
      exec (.book b) s = .next (s.replies .badField 0x10#8 [])) ∧
    (s.clock.set = true → bookFieldsOk b = true → b.volume ≤ s.map.cylinderVolume → s.clock.now < dueOf b →
      (∀ n, 1 ≤ n → n ≤ 24 → s.record? n ≠ none) →
      ∃ t, exec (.book b) s = .next t ∧ t.answersWith .bookFull 0x10#8 [] ∧ t.book.slots = s.book.slots ∧
        t.book.starved = (if s.book.starved < 65535 then s.book.starved + 1 else s.book.starved) ∧
        t.port.flags = s.port.flags ||| EventFlag.one .bookStarved ∧ s.sameOutside t [.book, .port])

/-- An AMEND of a terminal record is answered WRONG_STATE, and one of an open record BAD_FIELD where a given field lies
outside its range, the resulting volume exceeds the cylinder's or the resulting due is not later than now; the record
and all else stay as they were (R24). An AMEND that passes its checks but whose resulting fields all equal the record's
present fields is answered OK: the record keeps its state, figures and top-up lease, and no pass start is given (R25).
An AMEND that passes its checks and changes a field: the given fields, the due, the volume, θmin, the lead, the repeat
interval and the preferred station, a null among the last two taken as given, replace the record's, and those left out
stay; the record is BOOKED with its figures cleared and keeps its handle and its top-up lease; its last outcome stays
only while it repeats; a pass start is given, and a pass in flight takes nothing to the record (R24, R26, R31). -/
def Obligations.AnAmendIsTaken : Prop :=
  (∀ (s : State) (h : Handle) (a : AmendTerms) (r : Reservation), s.isWorking = false →
     s.resolveReservation h = .live → s.record? h.slot = some r →
     let repeats := fun x : Option (Option Nat) => ∃ k, x = some (some k) ∧ (k < 1 ∨ 7 < k)
     let due := a.due.getD (r.terms.dueDay, r.terms.dueMinute)
     (r.state.isOpen = false → exec (.amend h a) s = .next (s.replies .wrongState 0x11#8 [])) ∧
     (r.state.isOpen = true →
       ((∃ d m, a.due = some (d, m) ∧ (65535 < d ∨ 1439 < m)) ∨ (∃ v, a.volume = some v ∧ v < 10) ∨
         (∃ x, a.thetaMin = some x ∧ (x < 350 ∨ 700 < x)) ∨ (∃ k, a.lead = some k ∧ (k < 10 ∨ 360 < k)) ∨
         repeats a.repeatDays ∨ repeats a.preferred ∨ s.map.cylinderVolume < a.volume.getD r.terms.volume ∨
         due.1 * 1440 + due.2 ≤ s.clock.now) →
       exec (.amend h a) s = .next (s.replies .badField 0x11#8 []))) ∧
  (∀ (s : State) (h : Handle) (a : AmendTerms) (r : Reservation), s.isWorking = false →
     s.resolveReservation h = .live → s.record? h.slot = some r → s.amendFault r a = none →
     amendedTerms a r.terms = r.terms →
     ∃ t, exec (.amend h a) s = .next t ∧ s.answersOk t 0x11#8 [] ∧
       s.sameOutside t [.admission, .roster, .link, .port] ∧ s.sameTable t) ∧
  ∀ (s : State) (h : Handle) (a : AmendTerms) (r : Reservation), s.isWorking = false →
    s.resolveReservation h = .live → s.record? h.slot = some r → s.amendFault r a = none →
    amendedTerms a r.terms ≠ r.terms →
    ∃ t r', exec (.amend h a) s = .next t ∧ s.answersOk t 0x11#8 [] ∧
      t.bookSlot h.slot = { issue := (s.bookSlot h.slot).issue, record := some r' } ∧
      r'.terms = amendedTerms a r.terms ∧ r'.state = .booked ∧ r'.figures = Figures.absent ∧ r'.topUp = r.topUp ∧
      r'.last = (if (amendedTerms a r.terms).repeatDays = none then none else r.last) ∧
      (∀ k, 1 ≤ k → k ≤ 24 → k ≠ h.slot → t.bookSlot k = s.bookSlot k) ∧
      (s.map.valid = true → s.coverage.pass = none → t.coverage.pass = some t.snapshot) ∧
      (∀ p, s.coverage.pass = some p →
        t.coverage.pass = some { p with excepted := h.slot :: p.excepted } ∧
          (s.map.valid = true → t.coverage.rerun = true)) ∧
      (a.due = none → r'.terms.dueDay = r.terms.dueDay ∧ r'.terms.dueMinute = r.terms.dueMinute) ∧
      (∀ d m, a.due = some (d, m) → r'.terms.dueDay = d ∧ r'.terms.dueMinute = m) ∧
      (∀ v, a.volume = some v → r'.terms.volume = v) ∧ (a.volume = none → r'.terms.volume = r.terms.volume) ∧
      (∀ x, a.thetaMin = some x → r'.terms.thetaMin = x) ∧ (a.thetaMin = none → r'.terms.thetaMin = r.terms.thetaMin) ∧
      (∀ x, a.lead = some x → r'.terms.lead = x) ∧ (a.lead = none → r'.terms.lead = r.terms.lead) ∧
      (∀ x, a.repeatDays = some x → r'.terms.repeatDays = x) ∧
      (a.repeatDays = none → r'.terms.repeatDays = r.terms.repeatDays) ∧
      (∀ x, a.preferred = some x → r'.terms.preferred = x) ∧
      (a.preferred = none → r'.terms.preferred = r.terms.preferred) ∧
      s.sameOutside t [.book, .coverage, .admission, .roster, .link, .port] ∧ s.sameTable t

/-- A WITHDRAW of an open record leaves it WITHDRAWN with its figures, interval and last outcome and without a top-up
lease; a terminal record is answered WRONG_STATE and nothing changes; every other record keeps its terms, state,
figures and last outcome (R27, R32). A RELEASE of a record in SERVED, MISSED or WITHDRAWN removes it, frees its slot
with the issue advanced by one modulo 16, is answered OK and gives a pass start; an open record gives WRONG_STATE and
is unchanged (R18, R28). -/
def Obligations.ARecordIsWithdrawnAndReleased : Prop :=
  (∀ (s : State) (h : Handle) (r : Reservation), s.isWorking = false →
     s.resolveReservation h = .live → s.record? h.slot = some r →
     (r.state.isOpen = false → exec (.withdraw h) s = .next (s.replies .wrongState 0x12#8 [])) ∧
     (r.state.isOpen = true → ∃ t, exec (.withdraw h) s = .next t ∧ t.answersWith .ok 0x12#8 [] ∧
       t.bookSlot h.slot =
         { issue := (s.bookSlot h.slot).issue, record := some { r with state := .withdrawn, topUp := none } } ∧
       (∀ k x, k ≠ h.slot → 1 ≤ k → s.record? k = some x → ∃ x', t.record? k = some x' ∧ sameBooking x x') ∧
       (s.map.valid = true → t.coverage.pass.isSome = true) ∧
       t.map = s.map ∧ t.clock = s.clock ∧ t.sanitise = s.sanitise ∧ t.solar.params = s.solar.params)) ∧
  ∀ (s : State) (h : Handle) (r : Reservation), s.isWorking = false →
    s.resolveReservation h = .live → s.record? h.slot = some r →
    (r.state.isOpen = true → exec (.release h) s = .next (s.replies .wrongState 0x13#8 [])) ∧
    (r.state.isOpen = false → ∃ t, exec (.release h) s = .next t ∧ s.answersOk t 0x13#8 [] ∧
      t.bookSlot h.slot = { issue := ((s.bookSlot h.slot).issue + 1) % 16, record := none } ∧
      (∀ k, 1 ≤ k → k ≤ 24 → k ≠ h.slot → t.bookSlot k = s.bookSlot k) ∧ s.passStarted t ∧
      s.sameOutside t [.book, .coverage, .admission, .roster, .link, .port] ∧ s.sameTable t)

/-- A record at its due (R34, R35, R36): a one-off goes to SERVED from COVERED and to MISSED from AT_RISK or BOOKED,
keeping its figures, or from BOOKED with covered 0 and shortfall its volume alone; a repeating record takes its last
outcome and is BOOKED again, its figures cleared and its due day moved on by the interval until the due is later than
now, or is left terminal where that would pass day 65535. -/
def Obligations.ADueServesOrMisses : Prop :=
  ∀ (now : Nat) (r : Reservation), dueOf r.terms ≤ now → r.state.isOpen = true →
    let r' := r.afterDue now
    let figures :=
      if r.state = .booked then { Figures.absent with covered := some 0, shortfall := some r.terms.volume }
      else r.figures
    (r.terms.repeatDays = none → r'.terms = r.terms ∧ r'.figures = figures ∧ r'.last = r.last ∧ r'.topUp = r.topUp ∧
      r'.state = if r.state = .covered then .served else .missed) ∧
    ∀ k, r.terms.repeatDays = some k → 1 ≤ k →
      r'.last = some
        { served := r.state == .covered, shortfall := figures.shortfall.getD 0, day := r.terms.dueDay } ∧
      ((r'.state = .booked ∧ r'.figures = Figures.absent ∧ r'.terms.dueDay ≤ 65535 ∧ now < dueOf r'.terms ∧
          dueOf r'.terms ≤ now + k * 1440 ∧ r'.terms = { r.terms with dueDay := r'.terms.dueDay } ∧
          ∃ j, r'.terms.dueDay = r.terms.dueDay + k * j) ∨
        (r'.terms = r.terms ∧ r'.figures = figures ∧ r'.state = (if r.state = .covered then .served else .missed) ∧
          ∃ j, 65535 < r.terms.dueDay + k * j ∧ (r.terms.dueDay + k * j) * 1440 + r.terms.dueMinute ≤ now + k * 1440))

/-- SET CLOCK sets the clock to the day and minute with the seconds at 0. Where that moves it forward, every open record
whose due is not later than the new now is processed, and every other record keeps its terms, state, figures and last
outcome; where it does not, none is processed. A day or minute outside its range is answered BAD_FIELD and changes
nothing (R33, R37, R167). A set clock that is not at its end advances to the next minute, or to minute 0 of the next
day, and processes the dues in the same way (R168); an UNSET clock and one at day 65535, minute 1439 make no advance.
That a clock event and its due processing are one step is log entry 55. -/
def Obligations.TheClockProcessesDues : Prop :=
  ∀ (s : State) (day minute : Nat), s.clock.legal →
    let duesDone := fun t : State => t.map = s.map ∧ t.solar.params = s.solar.params ∧
      (∀ n r, 1 ≤ n → n ≤ 24 → s.record? n = some r → ∃ r', t.record? n = some r' ∧
        if s.clock.now < t.clock.now ∧ r.state.isOpen = true ∧ dueOf r.terms ≤ t.clock.now then
          sameBooking (r.afterDue t.clock.now) r' ∧ (t.flagged .served = true ∨ t.flagged .missed = true)
        else sameBooking r r') ∧
      (t.clock.day ≠ s.clock.day → s.sanitise.startMinute ≠ t.clock.minute → t.sanitise.attempted = false)
    (s.isWorking = false → (65535 < day ∨ 1439 < minute) →
      exec (.setClock day minute) s = .next (s.replies .badField 0x02#8 [])) ∧
    (s.isWorking = false → day ≤ 65535 → minute ≤ 1439 → ∃ t, exec (.setClock day minute) s = .next t ∧
      t.answersWith .ok 0x02#8 [] ∧ t.clock = { set := true, day := day, minute := minute, second := 0 } ∧ duesDone t) ∧
    (s.clock.set = true → (s.clock.day < 65535 ∨ s.clock.minute < 1439) → ∃ t, exec .clockMinuteAdvance s = .next t ∧
      t.clock.now = s.clock.now + 1 ∧ t.clock.minute < 1440 ∧ t.clock.second = 0 ∧ t.clock.set = true ∧
      t.port.state = s.port.state ∧ duesDone t) ∧
    ((s.clock.set = false ∨ (s.clock.day = 65535 ∧ s.clock.minute = 1439)) → exec .clockMinuteAdvance s = .next s)

/-! ### Coverage (chapter 3) -/

/-- What the two walks take (R43, R44, R46), stratum by stratum from the first of the layers: the lesser of the litres
available and the need that the strata before have left, for a coverage walk only as long as need is left and no
stratum so far stands below θmin, for an accounting walk whatever the temperature. No layer changes but in its claims;
the coverage walk's visited layers are those before it stops, the accounting walk leaves none out; what a walk used is
listed stratum by stratum; and the litres claimed and the need left add up to the need begun with. -/
def Obligations.WalksConserveLitres : Prop :=
  ∀ (thetaMin : Temp) (need : Nat) (layers : List Layer), (∀ l ∈ layers, l.claimed ≤ l.volume) →
    let c := coverageWalk thetaMin need layers
    let a := accountingWalk need layers
    let left := fun before : List Layer => need - (before.map fun l => l.volume - l.claimed).sum
    (∀ before l behind, layers = before ++ l :: behind →
      let given : Layer := { l with claimed := l.claimed + min (l.volume - l.claimed) (left before) }
      let goesOn := 0 < left before ∧ ∀ x ∈ before ++ [l], thetaMin ≤ x.temp
      a.visited[before.length]? = some given ∧
      (goesOn → c.visited[before.length]? = some given) ∧
      (¬goesOn → (c.visited ++ c.rest)[before.length]? = some l ∧ c.visited.length ≤ before.length)) ∧
    c.visited.length + c.rest.length = layers.length ∧ a.visited.length = layers.length ∧ a.rest = [] ∧
    (∀ l ∈ c.visited ++ c.rest ++ a.visited, l.claimed ≤ l.volume) ∧
    (c.taken.map (·.litres)).sum + c.need = need ∧ (a.taken.map (·.litres)).sum + a.need = need ∧
    (c.visited.map (·.claimed)).sum + (c.rest.map (·.claimed)).sum =
      (layers.map (·.claimed)).sum + (c.taken.map (·.litres)).sum ∧
    (a.visited.map (·.claimed)).sum = (layers.map (·.claimed)).sum + (a.taken.map (·.litres)).sum ∧
    (∀ l ∈ c.visited, thetaMin ≤ l.temp) ∧ (∀ x ∈ c.taken ++ a.taken, 1 ≤ x.litres) ∧
    (0 < c.need → ∀ l ∈ c.visited, l.claimed = l.volume) ∧ (0 < c.need → ∀ l ∈ c.rest.head?, l.temp < thetaMin) ∧
    (0 < a.need → ∀ l ∈ a.visited, l.claimed = l.volume)

/-- A reservation whose coverage walk ends with the need at 0 is COVERED: covered litres its volume, shortfall 0, depth
the lowest stratum the walk took from, beyond-reach clear, no accounting walk; its margin-met mark is set exactly when
every stratum it used stands at or above θmin plus the margin (R45, R48). One whose coverage walk ends with need left
is AT_RISK: its shortfall is that need and its covered litres the rest of its volume; its margin-met mark is clear; its
depth is the lowest stratum either walk took from; beyond-reach is set where the accounting walk took from below the
reserve line; and where neither walk took a litre the depth is S1 and beyond-reach is set (R45, R46, R48). The deficit
is the sum, over the strata used at or above the reserve line, of litres times the amount by which each falls short of
θmin plus the margin, times 1.163 Wh, rounded up once (R47): the least whole figure not below it. -/
def Obligations.VerdictsFollowTheWalks : Prop :=
  (∀ (line : Nat) (margin : Temp) (t : BookTerms) (layers : List Layer),
     let c := coverageWalk t.thetaMin t.volume layers
     let a := accountingWalk c.need c.rest
     let v := (judge line margin t layers).1
     (c.need = 0 → (judge line margin t layers).2 = c.visited ++ c.rest ∧
       v.atRisk = false ∧ v.covered = t.volume ∧ v.shortfall = 0 ∧ v.beyond = false ∧
       (∀ x, c.taken.getLast? = some x → v.depth = x.no) ∧
       (v.marginMet = true ↔ ∀ x ∈ c.taken, t.thetaMin + margin ≤ x.temp)) ∧
     (0 < c.need → (judge line margin t layers).2 = c.visited ++ a.visited ∧
       v.atRisk = true ∧ v.shortfall = c.need ∧ v.covered + c.need = t.volume ∧ v.marginMet = false ∧
       (∀ x, (c.taken ++ a.taken).getLast? = some x → v.depth = x.no) ∧
       (c.taken ++ a.taken = [] → v.depth = 1 ∧ v.beyond = true ∧ v.deficit = 0 ∧ v.covered = 0) ∧
       (c.taken ++ a.taken ≠ [] → (v.beyond = true ↔ ∃ x ∈ a.taken, x.no < line)))) ∧
  ∀ (line : Nat) (target : Temp) (used : List Taken),
    let products := used.map fun x => if x.no < line ∨ target ≤ x.temp then 0 else (x.litres : Int) * (target - x.temp)
    let d : Int := deficitOf line target used
    products.sum * 1163 ≤ d * 10000 ∧ d * 10000 < products.sum * 1163 + 10000 ∧
    ∀ (margin : Temp) (t : BookTerms) (layers : List Layer),
      let c := coverageWalk t.thetaMin t.volume layers
      (judge line margin t layers).1.deficit = deficitOf line (t.thetaMin + margin)
        (if c.need = 0 then c.taken else c.taken ++ (accountingWalk c.need c.rest).taken)

/-- A reservation is in window when now, as the pass took it, is at or after its due less its lead and its due is later
than now; only such a record of the pass, AT_RISK in it, without a top-up lease and with a deficit above 0, is a
candidate (R50, R51). An entry is eligible when it is READY, of the bought group, with its inlet at or above the
reserve line, without a lease, without a cooldown, in a part not halted; entry 0 is not in the set (R52). Of the set a
selection takes the preferred station, one that is not eligible being passed over, else the lowest rank among those
reaching the required depth, else the lowest inlet (R55). -/
def Obligations.CandidatesAndStationsAreSelected : Prop :=
  (∀ (now : Nat) (t : BookTerms),
    inWindow now t = true ↔ (dueOf t : Int) - t.lead ≤ now ∧ now < dueOf t) ∧
  (∀ (s : State) (p : Pass) (r : PassRecord) (v : Verdict),
    s.isCandidate p (r, v) = true ↔
      (∃ x, s.recordOf? r.handle = some x ∧ x.state.isOpen = true ∧ r.handle.slot ∉ p.excepted ∧ x.topUp = none) ∧
        v.atRisk = true ∧ (dueOf r.terms : Int) - r.terms.lead ≤ p.now ∧ p.now < dueOf r.terms ∧ 0 < v.deficit) ∧
  ∀ s : State,
    (∀ i, i ∈ s.eligibleSet ↔ 1 ≤ i ∧ i ≤ 7 ∧ (s.entry i).state = .ready ∧
      ((s.entry i).cls = .heatPump ∨ (s.entry i).cls = .combustion ∨ (s.entry i).cls = .gridElectric) ∧
      s.map.reserveLine ≤ (s.entry i).inlet ∧ (∀ n l, 1 ≤ n → n ≤ 8 → s.lease? n = some l → l.holder ≠ i) ∧
      (s.entry i).cooldown = none ∧ s.admission.halted = false) ∧
    (∀ p depth, p ∈ s.eligibleSet → s.selectStation (some p) depth = some p) ∧
    (∀ p depth, p ∉ s.eligibleSet → s.selectStation (some p) depth = s.selectStation none depth) ∧
    (∀ p depth, s.selectStation p depth = none ↔ s.eligibleSet = []) ∧
    ∀ depth i, s.selectStation none depth = some i → i ∈ s.eligibleSet ∧
      ((s.entry i).inlet ≤ depth → ∀ j ∈ s.eligibleSet, (s.entry j).inlet ≤ depth →
        s.rankOf i < s.rankOf j ∨ (s.rankOf i = s.rankOf j ∧ i ≤ j)) ∧
      (depth < (s.entry i).inlet → ∀ j ∈ s.eligibleSet, depth < (s.entry j).inlet ∧
        ((s.entry i).inlet < (s.entry j).inlet ∨ ((s.entry i).inlet = (s.entry j).inlet ∧
          (s.rankOf i < s.rankOf j ∨ (s.rankOf i = s.rankOf j ∧ i ≤ j)))))

/-- A pass in flight ends: each of its records that is still open, under the handle it had and not excepted, takes its
verdict and its six figures and keeps its terms and last outcome; AT_RISK is raised where the verdict is AT_RISK and
the record's state was not; every other record keeps its terms, state, figures and last outcome; the claims stand in
the map; rerun-pending is clear, and where it was set under a VALID map the next pass has begun (R16, R31, R41, R49).
With no pass in flight nothing changes (the model's choice, log entry 6). -/
def Obligations.APassWritesItsVerdicts : Prop :=
  ∀ s : State,
    (s.coverage.pass = none → exec .passComplete s = .next s) ∧
    ∀ p, s.coverage.legal → s.coverage.pass = some p → ∃ t, exec .passComplete s = .next t ∧
      (∀ r v x, (r, v) ∈ p.results.1 → s.passRecord? p r = some x → 1 ≤ r.handle.slot → r.handle.slot ≤ 24 →
        (v.atRisk = true → x.state ≠ .atRisk → t.flagged .atRisk = true) ∧
        ∃ x', t.record? r.handle.slot = some x' ∧ x'.state = (if v.atRisk then .atRisk else .covered) ∧
          x'.terms = x.terms ∧ x'.last = x.last ∧
          x'.figures =
            { covered := some v.covered, depth := some v.depth, shortfall := some v.shortfall
              deficit := some v.deficit, beyond := some v.beyond, marginMet := some v.marginMet }) ∧
      (∀ n x, 1 ≤ n → n ≤ 24 → s.record? n = some x →
        (∀ r ∈ p.records, r.handle.slot = n → s.passRecord? p r = none) →
        ∃ x', t.record? n = some x' ∧ sameBooking x x') ∧
      (∀ l ∈ p.results.2, (t.stratum l.no).claimed = l.claimed ∧ (t.stratum l.no).temp = (s.stratum l.no).temp) ∧
      t.coverage.rerun = false ∧ (s.coverage.rerun = true → s.map.valid = true → t.coverage.pass.isSome = true) ∧
      t.clock = s.clock ∧ t.sanitise = s.sanitise ∧ t.solar.params = s.solar.params ∧ t.port.state = s.port.state

/-- Which lease a candidate joins, and what a pass does for its only candidate (R51 to R56, R65, R32). A candidate
joins, of the TOPUP leases not in REVOKING whose inlet lies at or below the greater of its depth and the reserve line
and which serve fewer than eight, the one of the highest inlet, ties to the lower slot: it is added at the end of the
serve list, the budget raised by 1.1 times its deficit, rounded up, the ceiling raised to θmin plus the margin, the
record linked and an AMEND placed, which waits in the holder's queue afterwards unless the lease ends in REVOKING (R142,
R143). Where none can be joined a lease is opened in the lowest free slot on the station selected, OFFERED with that
ceiling and budget, serving the candidate alone, its GRANT placed, the record linked and a pass begun again; where no
station is selected, or an electric one finds less than 500 W unallocated, nothing is placed. The reserve line of the
join is the one the pass took (the model's choice, log entry 32). -/
def Obligations.APassJoinsOrOpensATopUp : Prop :=
  (∀ (s : State) (line depth n : Nat), (∀ k l, s.lease? k = some l → l.inlet ≤ 8) →
    let joinable := fun k => 1 ≤ k ∧ k ≤ 8 ∧ ∃ l, s.lease? k = some l ∧ l.kind = .topUp ∧ l.state ≠ .revoking ∧
      l.inlet ≤ max depth line ∧ l.serve.length < 8
    let inlet := fun k => ((s.lease? k).map (·.inlet)).getD 0
    (s.joinTarget line depth = some n ↔
      joinable n ∧ ∀ k, joinable k → inlet k < inlet n ∨ (inlet k = inlet n ∧ n ≤ k))) ∧
  ∀ (s : State) (p : Pass) (r : PassRecord) (v : Verdict), s.legal → s.tableInOrder → s.coverage.pass = some p →
    (r, v) ∈ p.results.1 → s.isCandidate p (r, v) = true →
    (∀ x ∈ p.results.1, s.isCandidate p x = true → x = (r, v)) →
    let h := r.handle
    let ceiling := r.terms.thetaMin + p.margin
    let energy := (11 * v.deficit + 9) / 10
    let station := s.selectStation r.terms.preferred v.depth
    let refused := s.map.valid = false ∨ ∃ i, station = some i ∧ (s.entry i).cls.drawsBudget = true ∧ s.unallocated < 500
    ∃ t, exec .passComplete s = .next t ∧
      (∀ n l, s.joinTarget p.reserveLine v.depth = some n → s.lease? n = some l →
        ∃ l' x, t.leaseSlot n = { issue := (s.leaseSlot n).issue, lease := some l' } ∧
          l'.root = { l with serve := l.serve ++ [h], ceiling := max l.ceiling ceiling }.root ∧
          (l.state ≠ .suspended → l'.budget = l.budget.map (· + energy)) ∧
          t.recordOf? h = some x ∧ x.topUp = some (s.leaseHandle n) ∧
          (l'.state ≠ .revoking →
            ∃ y ∈ (t.station l.holder).queue, y.cmd = .amend (s.leaseHandle n) l'.ceiling l'.budget)) ∧
      (s.joinTarget p.reserveLine v.depth = none → (station = none ∨ refused) →
        (∃ x, t.recordOf? h = some x ∧ x.topUp = none) ∧ s.sameRoots t) ∧
      ∀ n i, s.joinTarget p.reserveLine v.depth = none → station = some i → ¬refused →
        1 ≤ n → n ≤ 8 → s.lease? n = none → (∀ k, 1 ≤ k → k < n → s.lease? k ≠ none) →
        ∃ l x, t.leaseSlot n = { issue := (s.leaseSlot n).issue, lease := some l } ∧ l.kind = .topUp ∧ l.origin = .part ∧
          l.holder = i ∧ l.state = .offered ∧ l.inlet = (s.entry i).inlet ∧ l.ceiling = ceiling ∧
          l.budget = some energy ∧ l.delivered = 0 ∧ l.limit = some (60 * s.admission.topUpLimit) ∧
          l.timer = some (2 * (60 * s.admission.topUpLimit)) ∧ l.serve = [h] ∧ l.handovers = some 0 ∧
          t.recordOf? h = some x ∧ x.topUp = some (s.leaseHandle n) ∧ t.coverage.pass.isSome = true ∧
          ∃ y ∈ (t.station i).queue, ∃ rate, y.cmd = .grant (s.leaseHandle n) .topUp rate ceiling (some energy)

/-! ### The lease table (chapters 4 to 6) -/

/-- An OPEN BOOST that passes its checks places a BOOST lease of the host's on the named entry in the lowest-numbered
free slot, OFFERED, with the host's ceiling, duration and budget, and answers its handle; the other slots keep their
issues (R60, R64, R67). OPEN BOOST is refused by the first check that fails, with nothing changed: BAD_FIELD for a
field out of range, WRONG_STATE while halted or under an INVALID map, NOT_ELIGIBLE for an entry that is not eligible
or, of an electric class, finds less than 500 W unallocated (R67). -/
def Obligations.ABoostIsOpenedOrRefused : Prop :=
  (∀ (s : State) (i n : Nat) (ceiling : Temp) (minutes : Nat) (budget : Option Nat), s.isWorking = false →
    1 ≤ i → i ≤ 7 → 10 ≤ minutes → minutes ≤ 480 → (∀ b, budget = some b → 100 ≤ b ∧ b ≤ 60000) →
    350 ≤ ceiling → ceiling ≤ s.map.thetaMax → s.admission.halted = false → s.map.valid = true →
    s.eligible i = true → ((s.entry i).cls.drawsBudget = true → 500 ≤ s.unallocated) →
    1 ≤ n → n ≤ 8 → s.lease? n = none → (∀ k, 1 ≤ k → k < n → s.lease? k ≠ none) →
    ∃ t l, exec (.openBoost i ceiling minutes budget) s = .next t ∧
      s.answersOk t 0x18#8 [leaseByte (s.leaseHandle n)] ∧
      t.leaseSlot n = { issue := (s.leaseSlot n).issue, lease := some l } ∧
      l.kind = .boost ∧ l.origin = .host ∧ l.holder = i ∧ l.state = .offered ∧ l.inlet = (s.entry i).inlet ∧
      l.ceiling = ceiling ∧ l.budget = budget ∧ l.delivered = 0 ∧ l.limit = some (60 * minutes) ∧
      l.timer = some (2 * (60 * minutes)) ∧ l.hold = none ∧ l.saved = none ∧ l.serve = [] ∧ l.handovers = none ∧
      l.reason = none ∧ l.revokeTime = none ∧ l.grantSent = false ∧
      (∀ k, 1 ≤ k → k ≤ 8 → k ≠ n → (t.leaseSlot k).issue = (s.leaseSlot k).issue ∧
        (t.lease? k).map Lease.root = (s.lease? k).map Lease.root) ∧
      t.admission.order = s.admission.order ∧
      s.sameOutside t [.coverage, .admission, .roster, .link, .port] ∧ t.roster.entries = s.roster.entries) ∧
  ∀ (s : State) (i : Nat) (ceiling : Temp) (minutes : Nat) (budget : Option Nat), s.isWorking = false →
    let fieldsOk := 1 ≤ i ∧ i ≤ 7 ∧ 10 ≤ minutes ∧ minutes ≤ 480 ∧ (∀ b, budget = some b → 100 ≤ b ∧ b ≤ 60000) ∧
      350 ≤ ceiling ∧ ceiling ≤ s.map.thetaMax
    let open' := s.admission.halted = false ∧ s.map.valid = true
    let c := Instr.openBoost i ceiling minutes budget
    (¬fieldsOk → exec c s = .next (s.replies .badField 0x18#8 [])) ∧
    (fieldsOk → ¬open' → exec c s = .next (s.replies .wrongState 0x18#8 [])) ∧
    (fieldsOk → open' → (s.eligible i = false ∨ ((s.entry i).cls.drawsBudget = true ∧ s.unallocated < 500)) →
      exec c s = .next (s.replies .notEligible 0x18#8 []))

/-- REVOKE LEASE of a live lease: the SOLAR lease and one already in REVOKING are answered WRONG_STATE with nothing
changed; one in OFFERED whose GRANT is unsent is retired at once with LEASE_RETIRED, its GRANT gone from the queue; any
other goes to REVOKING with reason REVOKED, 60 s of revoke time, rate 0, no hold and no saved context, and a REVOKE,
and no other command for the lease, waits in its holder's queue (R80, R81). -/
def Obligations.TheHostRevokesALease : Prop :=
  ∀ (s : State) (h : Handle) (l : Lease), s.isWorking = false → s.resolveLease h = .live → s.lease? h.slot = some l →
    ((l.kind = .solar ∨ l.state = .revoking) → exec (.revokeLease h) s = .next (s.replies .wrongState 0x19#8 [])) ∧
    (l.kind ≠ .solar → l.state = .offered → l.grantSent = false →
      ∃ t, exec (.revokeLease h) s = .next t ∧ t.answersWith .ok 0x19#8 [] ∧
        t.leaseSlot h.slot = { issue := (h.issue + 1) % 16, lease := none } ∧ t.flagged .leaseRetired = true ∧
        h ∉ t.admission.order ∧
        (s.tableInOrder → ∀ y ∈ (t.station l.holder).queue, ∀ kind rate c b, y.cmd ≠ .grant h kind rate c b)) ∧
    (l.kind ≠ .solar → l.state ≠ .revoking → (l.state ≠ .offered ∨ l.grantSent = true) →
      ∃ t l', exec (.revokeLease h) s = .next t ∧ s.answersOk t 0x19#8 [] ∧
        t.leaseSlot h.slot = { issue := h.issue, lease := some l' } ∧ l'.isRevokingFor .revoked ∧
        l'.root = l.root ∧ l'.budget = l.budget ∧ l'.timer = l.timer ∧ t.admission.order = s.admission.order ∧
        (s.tableInOrder → (∃ y ∈ (t.station l.holder).queue, y.cmd = .revoke h) ∧
          ∀ y ∈ (t.station l.holder).queue, y.cmd.handle? = some h → y.cmd = .revoke h) ∧
        s.sameOutside t [.admission, .roster, .link, .port] ∧ t.roster.entries = s.roster.entries)

/-- What becomes of a lease whose time runs out. A running duration timer that reaches 0 sends its lease to REVOKING
with reason EXPIRED, and for a SANITISE lease raises SANITISE_FAILED (R74); a running finishing hold that reaches 0
sends it there with reason COMPLETED (R77). A revoke time that reaches 0 counts one revoke timeout, to no more than
65,535, and the lease retires with its revoke reason and delivered as it stands: its slot is freed with the issue
advanced by one modulo 16; its holder's entry records handle, kind, outcome and delivered; it leaves the admission
order; no record it served keeps it as top-up lease; LEASE_RETIRED is raised (R82, R84). Where the handle names no live
lease, or the lease is not in a state in which that timer runs, or has no such timer, nothing changes (the model's
choice, log entry 6). -/
def Obligations.TimersEndALease : Prop :=
  ∀ (s : State) (h : Handle),
    (s.resolveLease h ≠ .live → exec (.durationExpiry h) s = .next s ∧ exec (.finishingHoldExpiry h) s = .next s ∧
      exec (.revokeTimeout h) s = .next s) ∧
    ∀ l, s.resolveLease h = .live → s.lease? h.slot = some l →
      (∀ x, l.kind ≠ .solar → l.timer = some x →
        (l.state = .admitted ∨ l.state = .throttled ∨ l.state = .finishing) →
        ∃ t l', exec (.durationExpiry h) s = .next t ∧ t.leaseSlot h.slot = { issue := h.issue, lease := some l' } ∧
          l'.isRevokingFor .expired ∧ l'.root = l.root ∧ l'.budget = l.budget ∧ l'.timer = some 0 ∧
          (l.kind = .sanitise → t.flagged .sanitiseFailed = true) ∧
          s.sameOutside t [.admission, .roster, .link, .port] ∧ t.roster.entries = s.roster.entries) ∧
      ((l.timer = none ∨ (l.state ≠ .admitted ∧ l.state ≠ .throttled ∧ l.state ≠ .finishing)) →
        exec (.durationExpiry h) s = .next s) ∧
      (∀ x, l.kind ≠ .solar → l.hold = some x → l.state = .finishing →
        ∃ t l', exec (.finishingHoldExpiry h) s = .next t ∧
          t.leaseSlot h.slot = { issue := h.issue, lease := some l' } ∧ l'.isRevokingFor .completed ∧
          l'.root = l.root ∧ l'.budget = l.budget ∧ l'.timer = l.timer ∧ t.port = s.port ∧
          s.sameOutside t [.admission, .roster, .link] ∧ t.roster.entries = s.roster.entries) ∧
      ((l.hold = none ∨ l.state ≠ .finishing) → exec (.finishingHoldExpiry h) s = .next s) ∧
      (∀ reason, l.state = .revoking → l.reason = some reason → l.holder ≤ 7 →
        ∃ t, exec (.revokeTimeout h) s = .next t ∧
          t.leaseSlot h.slot = { issue := (h.issue + 1) % 16, lease := none } ∧ t.flagged .leaseRetired = true ∧
          t.admission.revokeTimeouts = (if s.admission.revokeTimeouts < 65535 then s.admission.revokeTimeouts + 1
            else s.admission.revokeTimeouts) ∧
          t.entry l.holder =
            { s.entry l.holder with
              last := some { handle := h, kind := l.kind, outcome := reason, delivered := l.delivered } } ∧
          h ∉ t.admission.order ∧
          (∀ r x, r ∈ l.serve → 1 ≤ r.slot → r.slot ≤ 24 → t.recordOf? r = some x → x.topUp = none) ∧
          (∀ n x, s.record? n = some x → ∃ x', t.record? n = some x' ∧ sameBooking x x') ∧
          (s.map.valid = true → l.serve ≠ [] → t.coverage.pass.isSome = true) ∧
          t.map = s.map ∧ t.clock = s.clock ∧ t.sanitise = s.sanitise ∧ t.port.state = s.port.state) ∧
      (l.state ≠ .revoking → exec (.revokeTimeout h) s = .next s)

/-- The demand of a lease in OFFERED, ADMITTED, THROTTLED or FINISHING (R89, R90): the least of its entitlement, the
guard's cap, a quarter of the entitlement rounded down to 100 W in FINISHING, and for the SOLAR lease of a REGULATING
loop the regulation cap. A settling by the arbiter, which follows each command (log entry 8), never leaves the
allocations above the site power budget (R94, R96, R97), where every electric lease past OFFERED stands in the
admission order; no lease with a demand is given more than that demand, and one without has 0 W. That every step keeps
the budget is EveryStepKeepsTheSiteBudget. -/
def Obligations.TheArbiterKeepsDemandsAndTheBudget : Prop :=
  (∀ (s : State) (l : Lease),
    let guardCap := match s.admission.guard with
      | .clear => l.entitlement
      | .half => l.entitlement / 2 / 100 * 100
      | .shut => 0
    let rating := s.admission.rating
    let cap := min (rating * s.solar.params.minSpeed / 100 / 100 * 100) (rating - 100)
    s.demand l =
      min (min l.entitlement guardCap)
        (min (if l.state = .finishing then l.entitlement / 4 / 100 * 100 else l.entitlement)
          (if l.kind = .solar ∧ s.solar.state = .regulating then cap else l.entitlement))) ∧
  ∀ before s : State,
    (∀ n, 1 ≤ n → n ≤ 8 → s.holdsAllocation n = true → s.leaseState? n ≠ some .offered →
      ∃ h ∈ s.admission.order, h.slot = n) →
    (settle before s).allocated ≤ s.admission.siteBudget ∧
    ∀ n l, 1 ≤ n → n ≤ 8 → (settle before s).lease? n = some l →
      (l.state.hasDemand = true → l.granted ≤ (settle before s).demand l) ∧
      (l.state.hasDemand = false → l.granted = 0) ∧ l.entitlement = (settle before s).entitlementOf l

/-- The lease and rate parameters within their ranges are set and answered OK, and with them every lease keeps its
kind, holder, ceiling, delivered energy and serve list; a value out of range is answered BAD_FIELD with nothing changed
(R75, R89, R94, R120). That a number outside 16 to 18 is answered so is the model's reading, log entry 21. -/
def Obligations.RateParametersAreSet : Prop :=
  ∀ (s : State) (v : Int), s.isWorking = false →
    (∀ n : Nat, ((n = 16 ∧ 30 ≤ v ∧ v ≤ 480) ∨ (n = 17 ∧ 0 ≤ v ∧ v ≤ 30) ∨ (n = 18 ∧ 0 ≤ v ∧ v ≤ 1)) →
      ∃ t, exec (.setLeaseParameter n v) s = .next t ∧ s.answersOk t 0x08#8 [] ∧
        t.admission.desk = { s.admission.desk with
          topUpLimit := if n = 16 then v.toNat else s.admission.topUpLimit
          finishHold := if n = 17 then v.toNat else s.admission.finishHold
          halfRate := if n = 18 then v == 1 else s.admission.halfRate } ∧
        s.sameOutside t [.admission, .roster, .link, .port] ∧ t.roster.entries = s.roster.entries ∧ s.sameRoots t) ∧
    (0 ≤ v → v ≤ 200 → ∃ t, exec (.setSitePowerBudget v) s = .next t ∧ s.answersOk t 0x08#8 [] ∧
      t.admission.desk = { s.admission.desk with siteBudget := 100 * v.toNat } ∧
      s.sameOutside t [.admission, .roster, .link, .port] ∧ t.roster.entries = s.roster.entries ∧ s.sameRoots t) ∧
    (5 ≤ v → v ≤ 150 → ∃ t, exec (.setSolarRating v) s = .next t ∧ s.answersOk t 0x08#8 [] ∧
      t.admission.desk = { s.admission.desk with rating := 100 * v.toNat } ∧ t.effectiveCap 0 = 100 * v.toNat ∧
      s.sameOutside t [.admission, .roster, .link, .port] ∧ t.roster.entries = s.roster.entries ∧ s.sameRoots t) ∧
    (0 ≤ v → v ≤ 1 → ∃ t, exec (.setAutoCap v) s = .next t ∧ s.answersOk t 0x08#8 [] ∧
      (t.roster.autoCap = true ↔ v = 1) ∧ t.admission.desk = s.admission.desk ∧
      s.sameOutside t [.admission, .roster, .link, .port] ∧ t.roster.entries = s.roster.entries ∧ s.sameRoots t) ∧
    (∀ n : Nat, ¬((n = 16 ∧ 30 ≤ v ∧ v ≤ 480) ∨ (n = 17 ∧ 0 ≤ v ∧ v ≤ 30) ∨ (n = 18 ∧ 0 ≤ v ∧ v ≤ 1)) →
      exec (.setLeaseParameter n v) s = .next (s.replies .badField 0x08#8 [])) ∧
    (v < 0 ∨ 200 < v → exec (.setSitePowerBudget v) s = .next (s.replies .badField 0x08#8 [])) ∧
    (v < 5 ∨ 150 < v → exec (.setSolarRating v) s = .next (s.replies .badField 0x08#8 [])) ∧
    (v < 0 ∨ 1 < v → exec (.setAutoCap v) s = .next (s.replies .badField 0x08#8 []))

/-- HALT in a part not halted: every lease retires, the trial ends, an ALL STOP is pending, a loop in RECOOLING or with
a lease is OFF with its pump at 0 and SOLAR_STATE raised, the part is halted and the answer is OK; in a halted part
only the ALL STOP is made pending. RESUME ALL leaves a halted part not halted and gives a pass start, and is answered
WRONG_STATE in one that is not (R116, R117, R126, R161, R165). -/
def Obligations.HaltAndResumeAll : Prop :=
  ∀ s : State, s.isWorking = false →
    (s.admission.halted = false → ∃ t, exec .halt s = .next t ∧ t.answersWith .ok 0x38#8 [] ∧
      t.admission.halted = true ∧ (∀ n, 1 ≤ n → n ≤ 8 → t.lease? n = none) ∧ t.roster.trial = none ∧
      t.link.allStop = true ∧
      (s.solar.state = .recooling → t.solar.state = .off ∧ t.solar.pump = 0 ∧ t.flagged .solarState = true) ∧
      ((∃ n l, 1 ≤ n ∧ n ≤ 8 ∧ s.lease? n = some l) → t.flagged .leaseRetired = true) ∧
      (∀ n l, 1 ≤ n → n ≤ 8 → s.lease? n = some l → l.kind = .solar →
        t.solar.state = .off ∧ t.solar.pump = 0 ∧ t.flagged .solarState = true) ∧
      (s.solar.state ≠ .recooling → (∀ n l, 1 ≤ n → n ≤ 8 → s.lease? n = some l → l.kind ≠ .solar) →
        t.solar = s.solar) ∧
      t.map = s.map ∧ t.clock = s.clock ∧ t.solar.params = s.solar.params ∧
      (∀ n x, s.record? n = some x → ∃ x', t.record? n = some x' ∧ sameBooking x x')) ∧
    (s.admission.halted = true → ∃ t, exec .halt s = .next t ∧ s.answersOk t 0x38#8 [] ∧ t.link.allStop = true ∧
      t.admission.desk = s.admission.desk ∧ s.sameRoots t ∧ t.roster.entries = s.roster.entries ∧
      s.sameOutside t [.admission, .roster, .link, .port]) ∧
    (s.admission.halted = true → ∃ t, exec .resumeAll s = .next t ∧ s.answersOk t 0x39#8 [] ∧
      t.admission.desk = { s.admission.desk with halted := false } ∧ s.passStarted t ∧ s.sameRoots t ∧
      s.sameOutside t [.coverage, .admission, .roster, .link, .port] ∧ t.roster.entries = s.roster.entries) ∧
    (s.admission.halted = false → exec .resumeAll s = .next (s.replies .wrongState 0x39#8 []))

/-- A suspension saves the lease's state, rate, timer, hold, the free-heat counter and what it has delivered, and
leaves it SUSPENDED at rate 0 without hold, limit mark or step timer (R107). A resumption restores them, lowers the
budget by the free heat received since, to no less than 0, and where that is at or below what the lease has delivered
sends it to REVOKING with reason SATISFIED_BY_FREE (R103, R109). A lease waiting for budget takes power of the arbiter,
up to its demand, where what the guard leaves of its entitlement finds 500 W or more, and is else passed over, also
where it came back FINISHING (R110; that the same test holds for it later is log entry 45). -/
def Obligations.SuspendedLeasesComeBack : Prop :=
  ∀ (s : State) (n : Nat) (l : Lease), 1 ≤ n → n ≤ 8 → s.lease? n = some l →
    (beginSuspension s n).lease? n = some
      { l with
        state := .suspended, granted := 0, hold := none, limitMark := false, stepTimer := none, waiting := false
        saved := some
          { state := l.state, rate := l.granted, timer := l.timer, hold := l.hold
            freeMark := s.admission.freeHeat, deliveredMark := l.delivered } } ∧
    (l.waiting = true →
      let guarded := match s.admission.guard with
        | .clear => l.entitlement
        | .half => min l.entitlement (l.entitlement / 2 / 100 * 100)
        | .shut => 0
      let share := min (s.demand l - l.granted) (s.admission.siteBudget - s.allocated)
      (givePower s n).lease? n = some
        (if share = 0 ∨ min (guarded - l.granted) (s.admission.siteBudget - s.allocated) < 500 then l
          else { l with granted := l.granted + share, waiting := false })) ∧
    ∀ ctx, l.saved = some ctx →
      let free := (s.admission.freeHeat + 4294967296 - ctx.freeMark) % 4294967296
      let budget := l.budget.map fun b => b - free
      ∃ l', (beginResumption s n).lease? n = some l' ∧ l'.budget = budget ∧ l'.saved = none ∧ l'.root = l.root ∧
        (if ∃ b, budget = some b ∧ b ≤ l.delivered then l'.isRevokingFor .satisfiedByFree
          else l'.state = ctx.state ∧ l'.timer = ctx.timer ∧ l'.hold = ctx.hold ∧ l'.granted = 0)

/-- Which events suspend and resume a bought lease (R105 to R107, R109; where in an event the overlap is tested is log
entry 9). The ACCEPT of a bought lease that is overlapped and not near due suspends it as it enters its state: its saved
context has FINISHING where it meets its condition, and else ADMITTED or THROTTLED as its rate reaches its entitlement,
with that rate, and a TOPUP or BOOST lease in FINISHING its hold as it starts (R70, R76, R78, R92; a hold of 0 is log
entry 43). The ACCEPT of a FREE lease that comes to flow suspends every lease heating at or below its inlet that is not
near due, with its context saved and a SUSPEND placed where no RESUME waits. A CHANGE to less than 100 W, which stops
the flow, resumes every SUSPENDED lease that no other flow overlaps: its budget lowered by the free heat received, it
goes to REVOKING where that is satisfied, and else has its timer again. A minute that brings a served reservation within
15 min of its due resumes its lease under the overlap. -/
def Obligations.AFlowSuspendsAndItsEndResumes : Prop :=
  ∀ s : State, s.tableInOrder →
    let flow := fun f : Lease => s.demand { f with entitlement := s.entitlementOf f }
    let adjusted := fun (l : Lease) (ctx : SavedContext) =>
      l.budget.map (· - (s.admission.freeHeat + 4294967296 - ctx.freeMark) % 4294967296)
    let resumed := fun (l : Lease) (ctx : SavedContext) (l' : Lease) => l'.state ≠ .suspended ∧ l'.saved = none ∧
      l'.root = l.root ∧ l'.budget = adjusted l ctx ∧
      ((∃ b, adjusted l ctx = some b ∧ b ≤ l.delivered) → l'.isRevokingFor .satisfiedByFree) ∧
      ((∀ b, adjusted l ctx = some b → l.delivered < b) → l'.timer = ctx.timer ∧ l'.reason ≠ some .satisfiedByFree)
    let dueBy := fun (l : Lease) (at' : Nat) => l.kind = .topUp ∧
      ∃ r ∈ l.serve, ∃ y, s.recordOf? r = some y ∧ dueOf y.terms ≤ at' + 15
    (∀ (a i : Nat) (h : Handle) (x : Exchange) (f : Lease), s.link.exchange = some x → x.addr = a → a ≠ 31 →
      s.indexAt a = some i → s.resolveLease h = .live → s.lease? h.slot = some f → f.holder = i →
      (∀ kind rate ceiling budget, x.cmd = .grant h kind rate ceiling budget → f.kind.isBought = true →
        f.state = .offered → f.entitlement = s.entitlementOf f → ¬dueBy f s.clock.now →
        (∃ k f', 1 ≤ k ∧ k ≤ 8 ∧ s.lease? k = some f' ∧ f'.kind.isBought = false ∧ f'.state.isRunning = true ∧
          0 < flow f' ∧ f.inlet ≤ f'.inlet) →
        let enters := { f with state := if s.finishingMet f then .finishing else .admitted }
        let own := if (s.entry i).cls.drawsBudget then min f.granted (s.demand enters) else s.demand enters
        ∃ t l', exec (.accept a h) s = .next t ∧ t.leaseSlot h.slot = { issue := h.issue, lease := some l' } ∧
          l'.state = .suspended ∧ l'.granted = 0 ∧
          l'.saved = some
            { state := if s.finishingMet f then .finishing
                else if s.map.valid = true ∧ own = f.entitlement then .admitted else .throttled
              rate := own, timer := f.timer
              hold := if s.finishingMet f ∧ f.kind ≠ .sanitise then some (60 * s.admission.finishHold) else none
              freeMark := s.admission.freeHeat, deliveredMark := f.delivered }) ∧
      (f.kind = .free →
      (∀ rate ceiling budget, x.cmd = .grant h .free rate ceiling budget → f.state = .offered → 0 < flow f →
        ∃ t, exec (.accept a h) s = .next t ∧
          ∀ n l, 1 ≤ n → n ≤ 8 → s.lease? n = some l → l.kind.isBought = true → l.state.isHeating = true →
            l.inlet ≤ f.inlet → ¬dueBy l s.clock.now →
            ∃ l', t.leaseSlot n = { issue := (s.leaseSlot n).issue, lease := some l' } ∧ l'.state = .suspended ∧
              l'.granted = 0 ∧ l'.root = l.root ∧
              l'.saved = some
                { state := l.state, rate := l.granted, timer := l.timer, hold := l.hold
                  freeMark := s.admission.freeHeat, deliveredMark := l.delivered } ∧
              ((∀ y ∈ (s.station l.holder).queue, y.cmd.isResume (s.leaseHandle n) = false) →
                ∃ y ∈ (t.station l.holder).queue, y.cmd = .suspend (s.leaseHandle n))) ∧
      ∀ (flags : Byte) (rate : Nat), x.cmd = .poll → flags.getLsbD 3 = false → f.state.isRunning = true → rate < 100 →
        ∃ t, exec (.status a flags (some h) (some (.change rate))) s = .next t ∧
          ∀ n l ctx, 1 ≤ n → n ≤ 8 → s.lease? n = some l → l.kind.isBought = true → l.state = .suspended →
            l.saved = some ctx →
            (∀ k f', 1 ≤ k → k ≤ 8 → k ≠ h.slot → s.lease? k = some f' → f'.kind.isBought = false →
              f'.state.isRunning = true → flow f' = 0 ∨ f'.inlet < l.inlet) →
            ∃ l', t.leaseSlot n = { issue := (s.leaseSlot n).issue, lease := some l' } ∧ resumed l ctx l')) ∧
    (s.clock.set = true → s.clock.minute < 1439 →
      ∃ t, exec .clockMinuteAdvance s = .next t ∧
        ∀ n l ctx, 1 ≤ n → n ≤ 8 → s.lease? n = some l → l.state = .suspended → l.saved = some ctx →
          dueBy l (s.clock.now + 1) →
          (∀ k y, 1 ≤ k → k ≤ 24 → s.record? k = some y → y.state.isOpen = true → s.clock.now + 1 < dueOf y.terms) →
          ∃ l', t.leaseSlot n = { issue := (s.leaseSlot n).issue, lease := some l' } ∧ resumed l ctx l')

/-- What becomes of the lease of a station lost at its third missed exchange, its partner, if it has one, being lost with
it before either lease is dealt with (R112 to R114, R82, R128); a partner of a lower index, whose lease is dealt with
first, holds none here. In REVOKING it retires with its reason; a FREE lease retires CEASED, a BOOST lease SOURCE_LOST.
A TOPUP or SANITISE lease retires SOURCE_LOST where no station is eligible or it has been handed over twice, that test
coming before R114's (the model's choice, log entry 34), and SATISFIED_BY_FREE where, SUSPENDED, its adjusted budget is
delivered. Else it is handed over to the station selected: with the same slot and handle, kind, ceiling, delivered
energy and serve list, its adjusted budget and the timer it had, OFFERED, one handover more, out of the admission order,
its GRANT placed and a pass in flight under a VALID map; the old holder records no outcome. The lost entry is else as it
was, its learned cap with it (that the cap stays is the model's choice, log entry 36). -/
def Obligations.ALostHoldersLeaseIsHandedOver : Prop :=
  ∀ (s : State) (x : Exchange) (i n : Nat) (l : Lease), s.tableInOrder → s.link.exchange = some x → x.addr ≠ 31 →
    s.indexAt x.addr = some i → 2 ≤ (s.entry i).missed → (s.entry i).state.isHeard = true →
    (∀ j, (s.entry i).partner = some j → j < i → s.slotHeldBy j = none) →
    1 ≤ n → n ≤ 8 → s.lease? n = some l → l.holder = i →
    let s0 := match (s.entry i).partner with
      | none => s
      | some j => s.modEntry j fun e => { e with state := .lost }
    let free := fun ctx : SavedContext => (s.admission.freeHeat + 4294967296 - ctx.freeMark) % 4294967296
    let budget := match l.saved with
      | none => l.budget
      | some ctx => l.budget.map (· - free ctx)
    let satisfied := l.saved ≠ none ∧ ∃ b, budget = some b ∧ b ≤ l.delivered
    let movable := l.state ≠ .revoking ∧ (l.kind = .topUp ∨ l.kind = .sanitise)
    let stuck := s0.eligibleSet = [] ∨ 2 ≤ l.handovers.getD 0
    ∃ t, exec .answerWindowExpiry s = .next t ∧ t.slotHeldBy i = none ∧
      (∀ j, 1 ≤ j → j ≤ 7 → (s.entry i).partner = some j → (s.entry j).state.isHeard = true → (t.entry j).state = .lost) ∧
      let freed := fun out : LeaseOutcome => t.leaseSlot n = { issue := ((s.leaseSlot n).issue + 1) % 16, lease := none } ∧
        t.entry i =
          { s.entry i with
            state := .lost, missed := 3, retry := none
            last := some { handle := s.leaseHandle n, kind := l.kind, outcome := out, delivered := l.delivered } } ∧
        s.leaseHandle n ∉ t.admission.order ∧ t.flagged .leaseRetired = true
      (∀ reason, l.state = .revoking → l.reason = some reason → freed reason) ∧
      (l.state ≠ .revoking → l.kind = .free → freed .ceased) ∧
      (l.state ≠ .revoking → l.kind = .boost → freed .sourceLost) ∧
      (movable → stuck → freed .sourceLost) ∧
      (movable → ¬stuck → satisfied → freed .satisfiedByFree) ∧
      (movable → ¬stuck → ¬satisfied →
        ∃ j l', (l.kind = .sanitise → s0.selectStation none s.sanitise.floor = some j) ∧
          (l.kind = .topUp → ∀ r, s.earliestServed l = some r →
            s0.selectStation r.terms.preferred (r.figures.depth.getD s.map.reserveLine) = some j) ∧
          t.leaseSlot n = { issue := (s.leaseSlot n).issue, lease := some l' } ∧ l'.state = .offered ∧
          l'.root =
            { l with
              holder := j, inlet := s.entryInlet j, handovers := l.handovers.map (· + 1), grantSent := false
              ackRate := none, runView := none }.root ∧
          l'.budget = budget ∧ l'.timer = (l.saved.elim l.timer (·.timer)) ∧ l'.hold = none ∧ l'.saved = none ∧
          l'.limitMark = false ∧ l'.stepTimer = none ∧ s.leaseHandle n ∉ t.admission.order ∧
          t.entry i = { s.entry i with state := .lost, missed := 3, retry := none } ∧
          (s.map.valid = true → t.coverage.pass.isSome = true) ∧ t.slotHeldBy j = some n ∧
          ∃ y ∈ (t.station j).queue, ∃ rate, y.cmd = .grant (s.leaseHandle n) l.kind rate l.ceiling budget)

/-- What the map's turning INVALID and VALID brings to each lease (R118, R126). At the map-invalid event every bought
lease and a FREE lease in OFFERED retires REVOKED where its GRANT is unsent and else goes to REVOKING with reason
REVOKED; a running FREE lease stays, THROTTLED at 0; the SOLAR lease is retired CEASED as its loop enters FAULTED; one
in REVOKING goes on as it was; the running trial is called off. At the map-valid event each running FREE lease takes
its demand, is ADMITTED where that is its entitlement and else THROTTLED, and its rate is placed in its station's
queue. -/
def Obligations.TheMapsLossEndsLeases : Prop :=
  ∀ (r : Readings) (s : State), s.tableInOrder → s.map.sweeping = true →
    ∃ t, exec (.sweepComplete r) s = .next t ∧
      (s.map.valid = true → (s.map.afterSweep r).valid = false → t.roster.trial = none ∧
        ∀ n l, 1 ≤ n → n ≤ 8 → s.lease? n = some l →
          let unsent := l.state = .offered ∧ l.grantSent = false
          let ends := l.kind.isBought = true ∨ (l.kind = .free ∧ l.state = .offered)
          let freed := fun out : LeaseOutcome =>
            t.leaseSlot n = { issue := ((s.leaseSlot n).issue + 1) % 16, lease := none } ∧
            (t.entry l.holder).last =
              some { handle := s.leaseHandle n, kind := l.kind, outcome := out, delivered := l.delivered } ∧
            t.flagged .leaseRetired = true
          let kept := fun l' : Lease =>
            t.leaseSlot n = { issue := (s.leaseSlot n).issue, lease := some l' } ∧ l'.root = l.root ∧ l'.budget = l.budget
          (ends → unsent → freed .revoked) ∧
          (ends → ¬unsent → l.state ≠ .revoking → ∃ l', kept l' ∧ l'.isRevokingFor .revoked) ∧
          (l.kind = .free → l.state.isRunning = true → ∃ l', kept l' ∧ l'.state = .throttled ∧ l'.granted = 0) ∧
          (l.kind = .solar → freed .ceased ∧ t.solar.state = .faulted) ∧
          (l.state = .revoking → l.kind ≠ .solar →
            ∃ l', kept l' ∧ l'.state = .revoking ∧ l'.reason = l.reason ∧ l'.revokeTime = l.revokeTime)) ∧
      (s.map.valid = false → (s.map.afterSweep r).valid = true →
        ∀ n l, 1 ≤ n → n ≤ 8 → s.lease? n = some l → l.kind = .free → l.state.isRunning = true →
          ∃ l', t.leaseSlot n = { issue := (s.leaseSlot n).issue, lease := some l' } ∧ l'.root = l.root ∧
            l'.granted = t.demand l' ∧ l'.entitlement = t.entitlementOf l' ∧
            l'.state = (if l'.granted = l'.entitlement then .admitted else .throttled) ∧
            ∃ y ∈ (t.station l.holder).queue,
              y.cmd = .setRate (s.leaseHandle n) l'.granted ∨ y.cmd = .resume (s.leaseHandle n) l'.granted)

/-! ### The sanitise monitor (chapter 10), and the parameters of the loop and the monitor -/

/-- What a sweep brings to the sanitise monitor. While the interval is on and the day is not yet satisfied, a VALID map
with every stratum from the floor up at the sanitise temperature adds 10 s to the accumulator; at the hold it satisfies
the day, returns to 0 and raises SANITISE_DONE; any other sweep returns it to 0 (R170). An accumulator that stands at
or above the hold already, as a lowered hold may leave it, satisfies the day at the next sweep whatever that sweep
finds (R169; that this comes before R170's return to 0 is log entry 27). A sweep that satisfies the day, and at which
the map is not lost, sends a SANITISE lease that is not in REVOKING there with reason COMPLETED, or retires it COMPLETED
at once where its GRANT is unsent (R80, R170). -/
def Obligations.AHeldTemperatureSanitises : Prop :=
  ∀ (r : Readings) (s : State), s.map.sweeping = true →
    let counts := s.sanitise.interval ≠ none ∧ s.sanitise.lastDay ≠ some s.clock.day
    let m := s.map.afterSweep r
    let hot := m.valid = true ∧ ∀ n, 1 ≤ n → n ≤ 8 → s.sanitise.floor ≤ n → s.sanitise.temp ≤ (m.stratum n).temp
    let hold := 60 * s.sanitise.hold
    let satisfied := fun t : State =>
      t.sanitise = { s.sanitise with accumulator := 0, lastDay := some s.clock.day } ∧ t.flagged .sanitiseDone = true
    ∃ t, exec (.sweepComplete r) s = .next t ∧
      (counts → hold ≤ s.sanitise.accumulator → satisfied t) ∧
      (counts → s.sanitise.accumulator < hold → hot → hold ≤ s.sanitise.accumulator + 10 → satisfied t) ∧
      (counts → hot → s.sanitise.accumulator + 10 < hold →
        t.sanitise = { s.sanitise with accumulator := s.sanitise.accumulator + 10 }) ∧
      (counts → s.sanitise.accumulator < hold → ¬hot → t.sanitise = { s.sanitise with accumulator := 0 }) ∧
      (¬counts → t.sanitise = { s.sanitise with accumulator := 0 }) ∧
      (s.tableInOrder → counts →
        (hold ≤ s.sanitise.accumulator ∨ (hot ∧ hold ≤ s.sanitise.accumulator + 10)) →
        (s.map.valid = true → m.valid = true) →
        ∀ n l, s.slotOfKind .sanitise = some n → s.lease? n = some l → l.state ≠ .revoking →
          let unsent := l.state = .offered ∧ l.grantSent = false
          (unsent → t.leaseSlot n = { issue := ((s.leaseSlot n).issue + 1) % 16, lease := none } ∧
            (t.entry l.holder).last =
              some { handle := s.leaseHandle n, kind := .sanitise, outcome := .completed, delivered := l.delivered } ∧
            t.flagged .leaseRetired = true) ∧
          (¬unsent → ∃ l', t.leaseSlot n = { issue := (s.leaseSlot n).issue, lease := some l' } ∧
            l'.isRevokingFor .completed ∧ l'.root = l.root))

/-- The daily attempt, and what the retirement of a SANITISE lease is to the monitor (R171, R172). A clock event that
brings the start minute of a due day, no attempt made that day, sets the mark and, where no reservation falls due and
no lease is to be suspended or resumed in it: leaves a SANITISE lease that exists alone; raises SANITISE_FAILED under
an INVALID map, with no eligible station, or where an electric one finds less than 500 W; and else opens the lease in
the lowest free slot on the station selected from the floor, OFFERED at the sanitise temperature and limit, its GRANT
placed. Any other clock event opens none, and clears the mark at a day change; that one which changes the day to the
last-satisfied day returns the accumulator to 0 is the model's choice, log entry 39. A SANITISE lease that retires with
an outcome but COMPLETED and EXPIRED raises SANITISE_FAILED unless the day is satisfied. -/
def Obligations.TheDailyAttemptAndItsEnd : Prop :=
  ∀ s : State, s.tableInOrder →
    (∀ (c : Instr) (day minute : Nat),
      ((c = .clockMinuteAdvance ∧ s.clock.set = true ∧ s.clock.minute < 1439 ∧ day = s.clock.day ∧
          minute = s.clock.minute + 1) ∨
        (c = .clockMinuteAdvance ∧ s.clock.set = true ∧ s.clock.minute = 1439 ∧ s.clock.day < 65535 ∧
          day = s.clock.day + 1 ∧ minute = 0) ∨
        (c = .setClock day minute ∧ s.isWorking = false ∧ day ≤ 65535 ∧ minute ≤ 1439)) →
      let s1 := { s with clock := { set := true, day := day, minute := minute, second := 0 } }
      let m := s.sanitise
      let isDue := ∃ k, m.interval = some k ∧ ∀ d, m.lastDay = some d → (k : Int) ≤ (day : Int) - d
      let attempted := m.attempted = true ∧ day = s.clock.day
      let attempts := minute = m.startMinute ∧ isDue ∧ ¬attempted
      let quiet := s1.toSuspend = [] ∧ s1.toResume = [] ∧
        ∀ n r, 1 ≤ n → n ≤ 24 → s.record? n = some r → r.state.isOpen = true → s1.clock.now < dueOf r.terms
      let station := s1.selectStation none m.floor
      let fails := s.map.valid = false ∨ station = none ∨
        ∃ i, station = some i ∧ (s.entry i).cls.drawsBudget = true ∧ s.unallocated < 500
      ∃ t, exec c s = .next t ∧
        t.sanitise =
          { m with
            attempted := decide (attempts ∨ attempted)
            accumulator := if day ≠ s.clock.day ∧ m.lastDay = some day then 0 else m.accumulator } ∧
        (¬attempts → s.slotOfKind .sanitise = none →
          t.slotOfKind .sanitise = none ∧ t.flagged .sanitiseFailed = s.flagged .sanitiseFailed) ∧
        (attempts → quiet →
          (s.slotOfKind .sanitise ≠ none → s.sameRoots t ∧ t.flagged .sanitiseFailed = s.flagged .sanitiseFailed) ∧
          (s.slotOfKind .sanitise = none → fails → s.sameRoots t ∧ t.flagged .sanitiseFailed = true) ∧
          ∀ n i, s.slotOfKind .sanitise = none → ¬fails → station = some i → 1 ≤ n → n ≤ 8 → s.lease? n = none →
            (∀ k, 1 ≤ k → k < n → s.lease? k ≠ none) →
            t.flagged .sanitiseFailed = s.flagged .sanitiseFailed ∧
            ∃ l, t.leaseSlot n = { issue := (s.leaseSlot n).issue, lease := some l } ∧ l.kind = .sanitise ∧
              l.origin = .part ∧ l.holder = i ∧ l.state = .offered ∧ l.inlet = (s.entry i).inlet ∧ l.ceiling = m.temp ∧
              l.budget = none ∧ l.delivered = 0 ∧ l.limit = some (60 * m.limit) ∧ l.timer = some (2 * (60 * m.limit)) ∧
              l.serve = [] ∧ l.handovers = some 0 ∧
              ∃ y ∈ (t.station i).queue, ∃ rate, y.cmd = .grant (s.leaseHandle n) .sanitise rate m.temp none)) ∧
    ∀ (h : Handle) (l : Lease) (reason : LeaseOutcome), s.resolveLease h = .live → s.lease? h.slot = some l →
      l.kind = .sanitise → l.state = .revoking → l.reason = some reason →
      ∃ t, exec (.revokeTimeout h) s = .next t ∧ t.lease? h.slot = none ∧
        t.flagged .sanitiseFailed =
          (s.flagged .sanitiseFailed ||
            decide (reason ≠ .completed ∧ reason ≠ .expired ∧ s.sanitise.lastDay ≠ some s.clock.day))

/-- A loop parameter or sanitise setting within its range and the bounds the others set it is taken: it reads back,
every other parameter reads as before, and the answer is OK; any other value is answered BAD_FIELD with nothing changed
(R153, R169), and so is a number outside 32 to 43 and 48 to 53 (the model's reading, log entry 21). A new fixed target
of a running loop is its target at once and a target set to automatic is computed; a raised minimum lifts a CHARGING
pump, and a REGULATING pump takes the new minimum; an upper inlet changed while the valve stands UPPER moves the SOLAR
lease's inlet there, no valve and no spacing with it; a loop RECOOLING outside its window stops. A changed temperature
or floor and an interval set to off return the accumulator to 0, and the SANITISE lease then goes to REVOKING. -/
def Obligations.LoopAndSanitiseSettingsAreTaken : Prop :=
  ∀ (s : State) (number : Nat) (v : Int), s.isWorking = false → s.legal →
    let p := s.solar.params
    let loopOk := (number = 32 ∧ 40 ≤ v ∧ v ≤ 200 ∧ p.stopDiff + 20 ≤ v) ∨
      (number = 33 ∧ 20 ≤ v ∧ v ≤ p.startDiff - 20) ∨ (number = 34 ∧ 30 ≤ v ∧ v ≤ 300) ∨
      (number = 35 ∧ 20 ≤ v ∧ v ≤ 100) ∨ (number = 36 ∧ (v = 0 ∨ 30 ≤ v ∧ v ≤ 400)) ∨
      (number = 37 ∧ 1100 ≤ v ∧ v ≤ 1600 ∧ p.releaseTemp + 100 ≤ v) ∨
      (number = 38 ∧ 900 ≤ v ∧ v ≤ p.stagnation - 100) ∨ (number = 39 ∧ 2 ≤ v ∧ v ≤ 8) ∨
      (number = 40 ∧ 1 ≤ v ∧ v ≤ 100) ∨ (number = 41 ∧ 0 ≤ v ∧ v ≤ 1) ∨
      (number = 42 ∧ 0 ≤ v ∧ v ≤ 1439 ∧ v ≠ p.windowEnd) ∨ (number = 43 ∧ 0 ≤ v ∧ v ≤ 1439 ∧ v ≠ p.windowStart)
    let sanitiseOk := (number = 48 ∧ 0 ≤ v ∧ v ≤ 14) ∨ (number = 49 ∧ 600 ≤ v ∧ v ≤ 750) ∨
      (number = 50 ∧ 10 ≤ v ∧ v ≤ 90) ∨ (number = 51 ∧ s.map.reserveLine ≤ v ∧ v ≤ 8) ∨
      (number = 52 ∧ 0 ≤ v ∧ v ≤ 1439) ∨ (number = 53 ∧ 30 ≤ v ∧ v ≤ 480)
    (loopOk → ∃ t, exec (.setLoopParameter number v) s = .next t ∧ t.answersWith .ok 0x08#8 [] ∧
      t.parameter? number = some v ∧ (∀ k, k ≠ number → t.parameter? k = s.parameter? k) ∧
      s.sameOutside t [.admission, .roster, .link, .solar, .port] ∧ t.roster.entries = s.roster.entries ∧
      t.solar.valve = s.solar.valve ∧ t.solar.remainder = s.solar.remainder ∧ t.solar.stopPoint = s.solar.stopPoint ∧
      (s.solar.state ≠ .recooling → t.solar.state = s.solar.state ∧ s.answersOk t 0x08#8 []) ∧
      (s.solar.state = .charging → s.parameter? number ≠ some v →
        t.solar.pump = max s.solar.pump t.solar.params.minSpeed) ∧
      (s.solar.state = .regulating → s.parameter? number ≠ some v → number = 35 → t.solar.pump = v.toNat) ∧
      t.solar.spacing = s.solar.spacing ∧
      (∀ n, s.parameter? number ≠ some v → number = 39 → s.slotOfKind .solar = some n →
        (t.lease? n).map (·.inlet) = some (if s.solar.valve = .upper then v.toNat else 1)) ∧
      (s.solar.state = .charging ∨ s.solar.state = .regulating → s.parameter? number ≠ some v → number = 36 →
        t.solar.target = some (if v = 0 then max (p.stopDiff + 20) (s.loopDiff / 2) else v)) ∧
      (s.solar.state = .recooling → s.parameter? number ≠ some v →
        (t.solar.params.recooling = false ∨ s.clock.set = false ∨ t.solar.params.windowHolds s.clock.minute = false) →
        t.solar.state = .off ∧ t.solar.pump = 0 ∧ t.flagged .solarState = true)) ∧
    (¬loopOk → exec (.setLoopParameter number v) s = .next (s.replies .badField 0x08#8 [])) ∧
    (sanitiseOk → ∃ t, exec (.setSanitiseSetting number v) s = .next t ∧ t.answersWith .ok 0x08#8 [] ∧
      t.parameter? number = some v ∧ (∀ k, k ≠ number → t.parameter? k = s.parameter? k) ∧
      t.sanitise.lastDay = s.sanitise.lastDay ∧ t.sanitise.attempted = s.sanitise.attempted ∧ t.map = s.map ∧
      t.clock = s.clock ∧
      (s.parameter? number = some v → t.sanitise = s.sanitise ∧ s.answersOk t 0x08#8 [] ∧
        s.sameOutside t [.admission, .roster, .link, .port] ∧ s.sameTable t) ∧
      (s.parameter? number ≠ some v → t.sanitise.accumulator =
        if number = 49 ∨ number = 51 ∨ (number = 48 ∧ v = 0) then 0 else s.sanitise.accumulator) ∧
      (s.parameter? number ≠ some v → ¬(number = 48 ∧ v = 0) → s.answersOk t 0x08#8 [] ∧
        s.sameOutside t [.admission, .roster, .link, .sanitise, .port] ∧ s.sameTable t) ∧
      (∀ n, s.parameter? number ≠ some v → number = 48 → v = 0 → s.slotOfKind .sanitise = some n →
        ∀ l, t.lease? n = some l → l.state = .revoking)) ∧
    (¬sanitiseOk → exec (.setSanitiseSetting number v) s = .next (s.replies .badField 0x08#8 []))

/-! ### The roster (chapter 7) -/

/-- SET STATION sets the host cap and the rank as its actions say; RELEARN returns the learned cap to the declared cap
and stops the limit mark and step timer of the entry's lease; CLEAR BAR returns a BARRED entry to QUALIFYING with no
failures and no retry timer; FORGET makes the entry and its partner ABSENT with every field cleared, their queues
emptied, their latest STATUS and supply words too (the model's reading, log entry 19), and their schedule slots empty.
Each is answered OK and leaves every other entry as it was; an index outside its range gives BAD_FIELD, an ABSENT entry
NO_SUCH, and an entry in another state WRONG_STATE, with nothing changed (R101, R119, R121, R127, R132). -/
def Obligations.RosterRequestsAreTaken : Prop :=
  ∀ (s : State) (i ca c ra r : Nat), s.isWorking = false →
    let fieldsOk := 1 ≤ i ∧ i ≤ 7 ∧ ca ≤ 2 ∧ ra ≤ 1 ∧ (ca = 1 → 500 ≤ c ∧ c ≤ 15000 ∧ c % 100 = 0) ∧
      (ra = 1 → 1 ≤ r ∧ r ≤ 7)
    let inRange := 1 ≤ i ∧ i ≤ 7
    let e := s.entry i
    let paired := fun j => j = i ∨ e.partner = some j
    let others := fun (t : State) (mine : Nat → Prop) => ∀ j, j ≤ 7 → ¬mine j → t.entry j = s.entry j
    (¬fieldsOk → exec (.setStation i ca c ra r) s = .next (s.replies .badField 0x21#8 [])) ∧
    (fieldsOk → e.state = .absent → exec (.setStation i ca c ra r) s = .next (s.replies .noSuch 0x21#8 [])) ∧
    (fieldsOk → e.state ≠ .absent → ra = 1 → e.cls.isBought = false →
      exec (.setStation i ca c ra r) s = .next (s.replies .wrongState 0x21#8 [])) ∧
    (fieldsOk → e.state ≠ .absent → (ra = 1 → e.cls.isBought = true) →
      ∃ t, exec (.setStation i ca c ra r) s = .next t ∧ s.answersOk t 0x21#8 [] ∧
        t.entry i =
          { e with
            hostCap := if ca = 1 then some c else if ca = 2 then none else e.hostCap
            rank := if ra = 1 then some r else e.rank } ∧
        others t (· = i) ∧ s.sameOutside t [.admission, .roster, .link, .port] ∧ s.sameRoots t ∧
        t.admission.desk = s.admission.desk) ∧
    (¬inRange → exec (.relearn i) s = .next (s.replies .badField 0x23#8 []) ∧
      exec (.clearBar i) s = .next (s.replies .badField 0x22#8 []) ∧
      exec (.forget i) s = .next (s.replies .badField 0x24#8 [])) ∧
    (inRange → e.state = .absent → exec (.relearn i) s = .next (s.replies .noSuch 0x23#8 []) ∧
      exec (.clearBar i) s = .next (s.replies .noSuch 0x22#8 []) ∧
      exec (.forget i) s = .next (s.replies .noSuch 0x24#8 [])) ∧
    (inRange → e.state ≠ .absent → e.learned = none →
      exec (.relearn i) s = .next (s.replies .wrongState 0x23#8 [])) ∧
    (inRange → e.state ≠ .absent → e.learned ≠ none →
      ∃ t, exec (.relearn i) s = .next t ∧ s.answersOk t 0x23#8 [] ∧ t.entry i = { e with learned := some e.declared } ∧
        others t (· = i) ∧ s.sameOutside t [.admission, .roster, .link, .port] ∧ s.sameRoots t ∧
        ∀ n l, s.slotHeldBy i = some n → t.lease? n = some l → l.limitMark = false ∧ l.stepTimer = none) ∧
    (inRange → e.state ≠ .absent → e.state ≠ .barred →
      exec (.clearBar i) s = .next (s.replies .wrongState 0x22#8 [])) ∧
    (inRange → e.state = .barred →
      ∃ t, exec (.clearBar i) s = .next t ∧ s.answersOk t 0x22#8 [] ∧
        t.entry i = { e with state := .qualifying, failures := 0, retry := none } ∧ others t (· = i) ∧
        s.sameOutside t [.admission, .roster, .link, .port] ∧ s.sameRoots t) ∧
    (inRange → e.state ≠ .absent → (∃ j, 1 ≤ j ∧ j ≤ 7 ∧ paired j ∧ (s.slotHeldBy j).isSome = true) →
      exec (.forget i) s = .next (s.replies .wrongState 0x24#8 [])) ∧
    (inRange → e.state ≠ .absent → (∀ j, 1 ≤ j → j ≤ 7 → paired j → s.slotHeldBy j = none) →
      ∃ t, exec (.forget i) s = .next t ∧ s.answersOk t 0x24#8 [] ∧
        (∀ j, 1 ≤ j → j ≤ 7 → paired j → t.entry j = Entry.absent ∧ t.station j = Station.initial ∧
          j ∉ t.link.schedule.toList) ∧
        others t (fun j => 1 ≤ j ∧ paired j) ∧
        (∀ k, 1 ≤ k → k ≤ 32 → ¬paired (s.slotIndex k) → t.slotIndex k = s.slotIndex k) ∧
        (∀ j, 1 ≤ j → j ≤ 7 → paired j → (s.entry j).state = .ready → (s.entry j).cls.isBought = true →
          s.map.valid = true → t.coverage.pass.isSome = true) ∧
        s.sameOutside t [.coverage, .admission, .roster, .link, .port] ∧ s.sameRoots t)

/-- What the roster's timers bring. A cooldown that runs out is removed, which starts a pass where the eligible set
changed (R52, R133). A retry timer that runs out is removed (R124). A trial whose window ends counts a failure of its
entry, which starts the 120 s retry timer or at the seventh bars the entry and raises STATION_BARRED, and the trial is
over (R125). A step timer takes another learned-cap step of 5 % of the declared cap, at least 100 W, to no less than
500 W or the declared cap (R100). With no such timer running nothing changes (the model's choice, log entry 6). -/
def Obligations.RosterTimersExpire : Prop :=
  ∀ (s : State) (i : Nat), i ≤ 7 →
    let e := s.entry i
    let others := fun t : State => ∀ j, j ≤ 7 → j ≠ i → t.entry j = s.entry j
    (e.cooldown = none → exec (.declineCooldownExpiry i) s = .next s) ∧
    (e.cooldown ≠ none → ∃ t, exec (.declineCooldownExpiry i) s = .next t ∧ t.entry i = { e with cooldown := none } ∧
      others t ∧ s.passStartedIfEligibleChanged t ∧ s.sameOutside t [.coverage, .admission, .roster, .link] ∧
      s.sameRoots t) ∧
    (e.retry = none → exec (.retryTimerExpiry i) s = .next s) ∧
    (e.retry ≠ none → ∃ t, exec (.retryTimerExpiry i) s = .next t ∧ t.entry i = { e with retry := none } ∧ others t ∧
      s.sameOutside t [.admission, .roster, .link] ∧ s.sameRoots t) ∧
    ((∀ x, s.roster.trial = some x → x.window = none) → exec .trialWindowEnd s = .next s) ∧
    (∀ x w, s.roster.trial = some x → x.window = some w → x.entry = i →
      ∃ t, exec .trialWindowEnd s = .next t ∧
        (e.failures < 6 → t.entry i = { e with failures := e.failures + 1, retry := some 120 } ∧ t.port = s.port) ∧
        (6 ≤ e.failures →
          t.entry i = { e with failures := e.failures + 1, state := .barred, retry := none } ∧
            t.port = { s.port with flags := s.port.flags ||| EventFlag.one .stationBarred }) ∧
        others t ∧ (∀ y, t.roster.trial = some y → y.entry ≠ i) ∧
        s.sameOutside t [.admission, .roster, .link, .port] ∧ s.sameRoots t) ∧
    ∀ h l, s.resolveLease h = .live → s.lease? h.slot = some l →
      (l.stepTimer = none ∨ l.limitMark = false ∨ (l.state ≠ .admitted ∧ l.state ≠ .throttled) →
        exec (.learnedCapStepTimerExpiry h) s = .next s) ∧
      (l.stepTimer ≠ none → l.limitMark = true → (l.state = .admitted ∨ l.state = .throttled) → l.holder = i →
        ∃ t, exec (.learnedCapStepTimerExpiry h) s = .next t ∧
          t.entry i =
            { e with
              learned := e.learned.map fun x =>
                max (x - max 100 (e.declared * 5 / 100 / 100 * 100)) (min 500 e.declared) } ∧
          (∀ l', t.lease? h.slot = some l' → l'.stepTimer = some 60 ∨ l'.stepTimer = none) ∧
          others t ∧ s.sameOutside t [.admission, .roster, .link] ∧ s.sameRoots t)

/-- How a trial starts and succeeds (R124, R125). With no trial running, a retry timer that runs out, like RESUME ALL,
starts one for the lowest QUALIFYING entry without a retry timer whose inlet stratum lies below θmax less 3.0 K, under
a VALID map in a part not halted, and for an electric entry within the unallocated budget: at its effective cap, its
energy 0, its window not begun, the QUALIFY placed; where no entry qualifies none starts. A REPORT from the trial's
entry adds to the trial's energy and to the entry's lifetime total alone; with 50 Wh the entry is READY with no
failures and its learned cap at its declared cap, the trial is over, and a QUALIFY of 0 is placed, or a starting
QUALIFY that still waits is removed. -/
def Obligations.ATrialStartsAndSucceeds : Prop :=
  ∀ s : State, s.tableInOrder → s.toSuspend = [] → s.toResume = [] →
    let may := fun (rested : Nat) (j : Nat) => 1 ≤ j ∧ j ≤ 7 ∧ (s.entry j).state = .qualifying ∧
      ((s.entry j).retry = none ∨ j = rested) ∧ s.map.valid = true ∧
      s.temp (s.entry j).inlet < s.map.thetaMax - 30 ∧
      ((s.entry j).cls.drawsBudget = true → s.effectiveCap j ≤ s.unallocated)
    let started := fun (rested : Nat) (t : State) =>
      (∀ j, may rested j → (∀ k, k < j → ¬may rested k) → 0 < s.effectiveCap j →
        t.roster.trial = some { entry := j, rate := s.effectiveCap j, energy := 0, window := none } ∧
          ∃ y ∈ (t.station j).queue, y.cmd = .qualify (s.effectiveCap j)) ∧
      ((∀ j, ¬may rested j) → t.roster.trial = none)
    (∀ k, 1 ≤ k → k ≤ 7 → (s.entry k).retry ≠ none → s.roster.trial = none →
      ∃ t, exec (.retryTimerExpiry k) s = .next t ∧ (s.admission.halted = false → started k t) ∧
        (s.admission.halted = true → t.roster.trial = none)) ∧
    (s.isWorking = false → s.admission.halted = true → s.roster.trial = none →
      ∃ t, exec .resumeAll s = .next t ∧ started 0 t) ∧
    ∀ (a i : Nat) (flags : Byte) (x : Exchange) (y : Trial) (energy : Nat) (supply : Temp) (limited : Bool),
      s.link.exchange = some x → x.addr = a → a ≠ 31 → x.cmd = .poll → s.indexAt a = some i → flags.getLsbD 3 = false →
      s.roster.trial = some y → y.entry = i →
      (y.window ≠ none ∨ ∃ q ∈ (s.station i).queue, q.cmd.startsTrial = true) →
      ∃ t, exec (.status a flags none (some (.report energy supply limited))) s = .next t ∧
        t.admission.freeHeat = s.admission.freeHeat ∧ t.link.staleItems = s.link.staleItems ∧ s.sameRoots t ∧
        (∀ j, j ≤ 7 → j ≠ i → t.entry j = s.entry j) ∧
        (y.energy + energy < 50 → t.roster.trial = some { y with energy := y.energy + energy } ∧
          t.entry i = { s.entry i with missed := 0, lifetime := ((s.entry i).lifetime + energy) % 4294967296 }) ∧
        (50 ≤ y.energy + energy → (∀ z, t.roster.trial = some z → z.entry ≠ i) ∧
          t.entry i =
            { s.entry i with
              missed := 0, lifetime := ((s.entry i).lifetime + energy) % 4294967296, state := .ready, failures := 0
              learned := some (s.entry i).declared } ∧
          ((∃ q ∈ (s.station i).queue, q.cmd.startsTrial = true) →
            ∀ q ∈ (t.station i).queue, q.cmd.startsTrial = false) ∧
          ((∀ q ∈ (s.station i).queue, q.cmd.startsTrial = false) → ∃ q ∈ (t.station i).queue, q.cmd = .qualify 0))

/-- A sound IDENTITY from an address that no entry holds creates the lowest-numbered ABSENT entry, IDENTIFYING, with
the station's class, inlet and declared cap rounded down to 100 W, and raises STATION_ADDED; a full roster raises
ROSTER_FULL; an unsound one counts a bad identity (R122). A LOST entry's own serial returns it, QUALIFYING or READY,
with no failures and no learned cap (R129). -/
def Obligations.IdentitiesFillTheRoster : Prop :=
  ∀ (s : State) (a : Nat) (d : Identity) (x : Exchange), s.link.exchange = some x → x.addr = a → a ≠ 31 →
    x.cmd = .identify →
    ∃ t, exec (.identity a d) s = .next t ∧ t.link.exchange = none ∧
      let cls := fun k => (d.classCode = 1 ∧ k = SourceClass.pvSurplus) ∨ (d.classCode = 2 ∧ k = .recovered) ∨
        (d.classCode = 3 ∧ k = .heatPump) ∨ (d.classCode = 4 ∧ k = .combustion) ∨ (d.classCode = 5 ∧ k = .gridElectric)
      let sound := d.signature = 0xD64E ∧ 1 ≤ d.inlet ∧ d.inlet ≤ 8 ∧ 100 ≤ d.cap ∧ d.cap ≤ 15000 ∧ ∃ k, cls k
      (s.indexAt a = none → s.sameRoots t ∧ s.sameOutside t [.admission, .roster, .link, .port] ∧
        (∀ i k, sound → cls k → (d.dual = true → a % 2 = 0 ∧ 2 ≤ a ∧ a ≤ 28) → 1 ≤ i → i ≤ 7 →
          (s.entry i).state = .absent → (∀ j, 1 ≤ j → j < i → (s.entry j).state ≠ .absent) →
          t.flagged .stationAdded = true ∧ (∀ j, j ≤ 7 → j ≠ i → t.entry j = s.entry j) ∧
          t.entry i =
            { Entry.absent with
              state := .identifying, address := a, serial := d.serial, cls := k, inlet := d.inlet
              declared := d.cap / 100 * 100, baseMark := d.dual
              rank := match k with
                | .heatPump => some 1
                | .combustion => some 2
                | .gridElectric => some 3
                | _ => none }) ∧
        (sound → (∀ j, 1 ≤ j → j ≤ 7 → (s.entry j).state ≠ .absent) →
          t.flagged .rosterFull = true ∧ t.roster.entries = s.roster.entries) ∧
        (¬sound → t.roster.entries = s.roster.entries ∧ t.port = s.port ∧ t.link.badIdentities =
          if s.link.badIdentities < 65535 then s.link.badIdentities + 1 else s.link.badIdentities)) ∧
      ∀ i k, s.indexAt a = some i → (s.entry i).state = .lost → (s.entry i).serial = d.serial → sound → cls k →
        d.dual = false → s.sameRoots t ∧ t.flagged .stationAdded = true ∧
        s.sameOutside t [.admission, .roster, .link, .port] ∧
        (∀ j, j ≤ 7 → j ≠ i → t.entry j = s.entry j) ∧
        t.entry i =
          { s.entry i with
            state := if k.isBought then .qualifying else .ready, cls := k, inlet := d.inlet
            declared := d.cap / 100 * 100, missed := 0, failures := 0, retry := none, learned := none, baseMark := false
            rank := if k.isBought = true ∧ (s.entry i).cls.isBought = false then
                (match k with
                  | .heatPump => some 1
                  | .combustion => some 2
                  | _ => some 3)
              else (s.entry i).rank }

/-- Re-identification and dual pairs (R130, R131). A sound IDENTITY of another serial at a held address first loses the
entry, its lease leaving it and its queue emptied, its latest STATUS and supply words too (the model's reading, log
entry 19), and then fills it afresh as a new one, with STATION_LOST and STATION_ADDED raised; its pair, if it had one,
is dissolved and its partner LOST. A dual mark from an even address 2 to 28 makes a base; one from an odd address 3 to
29, whose neighbour below is a base with the same serial, pairs the two and clears the base's mark; any other raises
DUAL_REFUSED and leaves the entry without a pair; that one above a base of another serial does so too is the model's
choice, log entry 50. -/
def Obligations.IdentitiesReplaceAndPair : Prop :=
  ∀ (s : State) (a : Nat) (d : Identity) (k : SourceClass) (x : Exchange), s.tableInOrder → s.link.exchange = some x →
    x.addr = a → a ≠ 31 → x.cmd = .identify → d.signature = 0xD64E → 1 ≤ d.inlet → d.inlet ≤ 8 → 100 ≤ d.cap →
    d.cap ≤ 15000 →
    ((d.classCode = 1 ∧ k = .pvSurplus) ∨ (d.classCode = 2 ∧ k = .recovered) ∨ (d.classCode = 3 ∧ k = .heatPump) ∨
      (d.classCode = 4 ∧ k = .combustion) ∨ (d.classCode = 5 ∧ k = .gridElectric)) →
    ∃ t, exec (.identity a d) s = .next t ∧
      let isBase := a % 2 = 0 ∧ 2 ≤ a ∧ a ≤ 28
      let below := fun j => a % 2 = 1 ∧ 3 ≤ a ∧ a ≤ 29 ∧ s.indexAt (a - 1) = some j ∧ (s.entry j).baseMark = true ∧
        (s.entry j).serial = d.serial
      let fresh :=
        { Entry.absent with
          state := .identifying, address := a, serial := d.serial, cls := k, inlet := d.inlet
          declared := d.cap / 100 * 100, baseMark := d.dual && decide isBase
          rank := match k with
            | .heatPump => some 1
            | .combustion => some 2
            | .gridElectric => some 3
            | _ => none }
      ∀ i, (s.indexAt a = some i ∧ (s.entry i).serial ≠ d.serial) ∨
          (s.indexAt a = none ∧ 1 ≤ i ∧ i ≤ 7 ∧ (s.entry i).state = .absent ∧
            ∀ j, 1 ≤ j → j < i → (s.entry j).state ≠ .absent) →
        t.flagged .stationAdded = true ∧ t.slotHeldBy i = none ∧
        (s.indexAt a = some i → t.flagged .stationLost = true ∧ t.station i = Station.initial ∧
          ∀ j, (s.entry i).partner = some j → 1 ≤ j → j ≤ 7 → j ≠ i → ¬(d.dual = true ∧ below j) →
            (t.entry j).partner = none ∧ ((s.entry j).state.isHeard = true → (t.entry j).state = .lost)) ∧
        (∀ j, d.dual = true → below j → j ≠ i → t.entry i = { fresh with partner := some j } ∧
          (t.entry j).partner = some i ∧ (t.entry j).baseMark = false) ∧
        ((d.dual = false ∨ isBase ∨ ∀ j, ¬below j) → t.entry i = fresh) ∧
        (d.dual = true → ¬isBase → (∀ j, ¬below j) → t.flagged .dualRefused = true) ∧
        (d.dual = false ∨ isBase ∨ (∃ j, below j) → t.flagged .dualRefused = s.flagged .dualRefused)

/-! ### The Source Link (chapter 8) -/

/-- DISCOVER with no enumeration due or in progress makes a LINK CLEAR pending and an enumeration due, and is
IN_PROGRESS else (R149). SET SCHEDULE writes the 32 slots and returns the cursor to slot 1; a value above 7 gives
BAD_FIELD and an enumeration in progress IN_PROGRESS (R146). The discovery timer running out makes a probe due (R148).
The call line low is noted, and the period in which it is ignored ends (R147). A broadcast's exchange ends without an
answer; the LINK CLEAR that an enumeration waited for begins it at address 1 and stops the discovery timer (R137,
R149). Model's readings: no discovery timer running or no broadcast in flight, nothing changes (log entry 6); the level
of the call line is noted at this event and at a decision (log entry 23); the enumeration begins when the LINK CLEAR's
exchange ends, and SET SCHEDULE judges its fields before the enumeration (log entry 24). -/
def Obligations.LinkRequestsAndLineEvents : Prop :=
  ∀ s : State,
    (s.isWorking = false → s.link.enumeration = .idle → ∃ t, exec .discover s = .next t ∧ s.answersOk t 0x25#8 [] ∧
      t.link.wires = { s.link.wires with linkClear := true, enumeration := .due } ∧
      s.sameOutside t [.admission, .roster, .link, .port] ∧ s.sameRoots t ∧ t.roster.entries = s.roster.entries) ∧
    (s.isWorking = false → s.link.enumeration ≠ .idle →
      exec .discover s = .next (s.replies .inProgress 0x25#8 [])) ∧
    (∀ slots : List Nat, s.isWorking = false →
      (slots.length ≠ 32 ∨ (∃ x ∈ slots, 7 < x) →
        exec (.setSchedule slots) s = .next (s.replies .badField 0x26#8 [])) ∧
      (slots.length = 32 → (∀ x ∈ slots, x ≤ 7) → (∃ a, s.link.enumeration = .running a) →
        exec (.setSchedule slots) s = .next (s.replies .inProgress 0x26#8 [])) ∧
      (slots.length = 32 → (∀ x ∈ slots, x ≤ 7) → (∀ a, s.link.enumeration ≠ .running a) →
        ∃ t, exec (.setSchedule slots) s = .next t ∧ s.answersOk t 0x26#8 [] ∧ t.link.schedule.toList = slots ∧
          t.link.wires = { s.link.wires with schedule := t.link.schedule, cursor := 1 } ∧
          s.sameOutside t [.admission, .roster, .link, .port] ∧ s.sameRoots t ∧
          t.roster.entries = s.roster.entries)) ∧
    exec .discoveryTimerExpiry s = .next (if s.link.discoveryTimer = none then s else
      { s with link := { s.link with discoveryTimer := none, probeDue := true } }) ∧
    exec .callLineLow s = .next { s with link := { s.link with callLow := true } } ∧
    exec .callIgnoreExpiry s = .next { s with link := { s.link with ignoring := none } } ∧
    (s.link.exchange = none → exec .broadcastExchangeEnd s = .next s) ∧
    ∀ x, s.link.exchange = some x →
      (x.addr ≠ 31 → exec .broadcastExchangeEnd s = .next s) ∧
      (x.addr = 31 → x.cmd = .linkClear → s.link.enumeration = .due → s.link.linkClear = false →
        exec .broadcastExchangeEnd s = .next { s with link :=
          { s.link with exchange := none, enumeration := .running 1, discoveryTimer := none } }) ∧
      (x.addr = 31 → (x.cmd ≠ .linkClear ∨ s.link.enumeration ≠ .due ∨ s.link.linkClear = true) →
        exec .broadcastExchangeEnd s = .next { s with link := { s.link with exchange := none } })

/-- A decision of the arbiter (R145): with an exchange in flight nothing is sent. Otherwise the first that applies is
sent: a pending ALL STOP, then a pending LINK CLEAR, which ends a roll call; the urgent command of the lowest age, then
the lowest index, then nearest the head; the next POLL of a roll call; the IDENTIFY of an enumeration; a discovery
probe that is due, a base's partner first, else the first address from the discovery cursor that no entry holds, the
cursor moving behind it and the timer at 60 s (R148; that a partner's probe moves them too is log entry 24, and while
an entry holds the partner's address that probe waits, log entry 38); the head of the queue of the lowest entry that no
slot names, where the cursor stands at slot 1 or no slot can be served; and the head of the queue of the entry whose
slot comes next, or a POLL, or an IDENTIFY to a LOST entry, the cursor moving to the slot after it (R146). The
enumeration and what follows it are reached wherever the roll call has no POLL to send, also while the line is low but
ignored. A roll call begins at every decision that finds the line low, none in progress and the line not ignored; the
line found released ends one, and counts a ghost call where the heard mark is clear; one with no entry left, or none at
its start, while the line is low counts a stuck call and ignores the line for 10 s (R147). The frame of what is sent
stands on the wire (R136). That the decision carries the release of the line, and that the line is examined before the
five steps, is log entry 23. -/
def Obligations.TheArbiterTakesTheFirstOfFive : Prop :=
  ∀ (s : State) (released : Bool),
    (s.link.exchange ≠ none → exec (.arbiterDecision released) s = .next s) ∧
    (s.link.exchange = none → ∃ t, exec (.arbiterDecision released) s = .next t ∧
      s.sameOutside t [.admission, .link] ∧ t.admission.desk = s.admission.desk ∧ t.admission.order = s.admission.order ∧
      (∀ n, 1 ≤ n → n ≤ 8 → (t.leaseSlot n).issue = (s.leaseSlot n).issue ∧
        (t.lease? n = s.lease? n ∨ t.lease? n = (s.lease? n).map fun l => { l with grantSent := true })) ∧
      (∀ x, t.link.exchange = some x → t.link.frame = commandFrame s.moment x.addr x.cmd ∧ x.overtaken = false) ∧
      t.link.callLow = (s.link.callLow && !released) ∧
      (s.link.allStop = true → t.admission = s.admission ∧ t.link.allStop = false ∧
        t.link.exchange = some { addr := 31, cmd := .allStop, source := .broadcast, bore := false, overtaken := false }) ∧
      (s.link.allStop = false → s.link.linkClear = true →
        t.admission = s.admission ∧ t.link.linkClear = false ∧ t.link.roll = none ∧
        t.link.exchange =
          some { addr := 31, cmd := .linkClear, source := .broadcast, bore := false, overtaken := false }) ∧
      (∀ i k x, s.link.allStop = false → s.link.linkClear = false → 1 ≤ i → i ≤ 7 →
        (s.station i).queue[k]? = some x → x.cmd.isUrgent = true →
        (∀ j m y, 1 ≤ j → j ≤ 7 → (s.station j).queue[m]? = some y → y.cmd.isUrgent = true →
          x.age < y.age ∨ (x.age = y.age ∧ (i < j ∨ (i = j ∧ k ≤ m)))) →
        t.admission = s.admission ∧ (t.station i).queue = (s.station i).queue.eraseIdx k ∧
          t.link.exchange = some
            { addr := (s.entry i).address, cmd := x.cmd, source := .queue k x.age, bore := s.bears i x.cmd
              overtaken := false }) ∧
      (s.link.roll ≠ none → (s.link.callLow = false ∨ released = true) → t.link.roll = none ∧
        ∀ r, s.link.roll = some r → t.link.ghostCalls =
          if r.heard then s.link.ghostCalls else if s.link.ghostCalls < 65535 then s.link.ghostCalls + 1
          else s.link.ghostCalls) ∧
      (∀ r, s.link.roll = some r → s.link.callLow = true → released = false →
        (∀ i, r.cursor < i → i ≤ 7 → 1 ≤ i → (s.entry i).state.isHeard = false) →
        t.link.roll = none ∧ t.link.ignoring = some 10 ∧ t.link.stuckCalls =
          if s.link.stuckCalls < 65535 then s.link.stuckCalls + 1 else s.link.stuckCalls) ∧
      (s.link.roll = none → s.link.callLow = true → released = false → s.link.ignoring = none →
        ((∃ i, 1 ≤ i ∧ i ≤ 7 ∧ (s.entry i).state.isHeard = true) → s.link.allStop = true ∨ s.link.linkClear = false →
          t.link.ignoring = none ∧ t.link.stuckCalls = s.link.stuckCalls ∧
            ∃ r, t.link.roll = some r ∧ r.heard = false) ∧
        ((∀ i, 1 ≤ i → i ≤ 7 → (s.entry i).state.isHeard = false) →
          t.link.roll = none ∧ t.link.ignoring = some 10 ∧ t.link.stuckCalls =
            if s.link.stuckCalls < 65535 then s.link.stuckCalls + 1 else s.link.stuckCalls)) ∧
      (s.link.allStop = false → s.link.linkClear = false →
        (∀ i y, 1 ≤ i → i ≤ 7 → y ∈ (s.station i).queue → y.cmd.isUrgent = false) →
        (∀ i r, s.link.callLow = true → released = false →
          (s.link.roll = some r ∨ (s.link.roll = none ∧ s.link.ignoring = none ∧ r = { cursor := 0, heard := false })) →
          r.cursor < i → 1 ≤ i → i ≤ 7 → (s.entry i).state.isHeard = true →
          (∀ j, r.cursor < j → 1 ≤ j → j < i → (s.entry j).state.isHeard = false) →
          t.admission = s.admission ∧ t.link.stations = s.link.stations ∧
            t.link.roll = some { cursor := i, heard := r.heard } ∧
            t.link.exchange = some { addr := (s.entry i).address, cmd := .poll, source := .rollCall, bore := false
                                     overtaken := false }) ∧
        ((∀ i r, s.link.callLow = true → released = false →
            (s.link.roll = some r ∨ (s.link.roll = none ∧ s.link.ignoring = none ∧ r = { cursor := 0, heard := false })) →
            r.cursor < i → 1 ≤ i → i ≤ 7 → (s.entry i).state.isHeard = false) →
          (∀ a, s.link.enumeration = .running a →
            t.admission = s.admission ∧ t.link.stations = s.link.stations ∧ t.link.enumeration = .running (a + 1) ∧
              t.link.exchange = some { addr := a, cmd := .identify, source := .enumeration, bore := false
                                       overtaken := false }) ∧
          (∀ a, (∀ b, s.link.enumeration ≠ .running b) →
            (s.link.pairProbe = some a ∧ s.indexAt a = none ∨
              (∀ b, s.link.pairProbe = some b → s.indexAt b ≠ none) ∧ s.link.probeDue = true ∧
                1 ≤ s.link.discoveryCursor ∧ s.link.discoveryCursor ≤ 30 ∧ 1 ≤ a ∧ a ≤ 30 ∧ s.indexAt a = none ∧
                ∀ b, 1 ≤ b → b ≤ 30 → s.indexAt b = none →
                  (a + 30 - s.link.discoveryCursor) % 30 ≤ (b + 30 - s.link.discoveryCursor) % 30) →
            t.admission = s.admission ∧ t.link.stations = s.link.stations ∧ t.link.discoveryCursor = a % 30 + 1 ∧
              t.link.discoveryTimer = some 60 ∧ t.link.cursor = s.link.cursor ∧
              (s.link.pairProbe = some a ∧ s.indexAt a = none →
                t.link.pairProbe = none ∧ t.link.probeDue = s.link.probeDue) ∧
              (¬(s.link.pairProbe = some a ∧ s.indexAt a = none) →
                t.link.pairProbe = s.link.pairProbe ∧ t.link.probeDue = false) ∧
              t.link.exchange = some { addr := a, cmd := .identify, source := .discovery, bore := false
                                       overtaken := false }) ∧
          (∀ i x rest, (∀ a, s.link.enumeration ≠ .running a) →
            (∀ b, s.link.pairProbe = some b → s.indexAt b ≠ none) → s.link.probeDue = false →
            let waits := fun j => (s.entry j).state ≠ .absent ∧ j ∉ s.link.schedule.toList ∧ (s.station j).queue ≠ []
            1 ≤ i → i ≤ 7 → waits i → (∀ j, 1 ≤ j → j < i → ¬waits j) → s.link.cursor = 1 ∨ s.nextSlot = none →
            (s.station i).queue = x :: rest →
            t.link.cursor = s.link.cursor ∧ (t.station i).queue = rest ∧ ∃ y, t.link.exchange = some y ∧
              y.addr = (s.entry i).address ∧ y.cmd = s.refreshed x.cmd ∧ y.source = .queue 0 x.age) ∧
          (∀ k, (∀ a, s.link.enumeration ≠ .running a) →
            (∀ b, s.link.pairProbe = some b → s.indexAt b ≠ none) → s.link.probeDue = false →
            s.unscheduled = none ∨ s.link.cursor ≠ 1 → s.nextSlot = some k →
            let i := s.slotIndex k
            t.link.cursor = k % 32 + 1 ∧
              ((s.station i).queue = [] → t.admission = s.admission ∧ t.link.stations = s.link.stations ∧
                t.link.exchange = some
                  { addr := (s.entry i).address, cmd := if (s.entry i).state = .lost then .identify else .poll
                    source := .schedule, bore := false, overtaken := false }) ∧
              ∀ x rest, (s.station i).queue = x :: rest →
                (t.station i).queue = rest ∧ (∃ y, t.link.exchange = some y ∧ y.addr = (s.entry i).address ∧
                  y.cmd = s.refreshed x.cmd ∧ y.source = .queue 0 x.age) ∧
                ∀ h kind rate c b l, x.cmd = .grant h kind rate c b → s.resolveLease h = .live →
                  s.lease? h.slot = some l →
                  t.lease? h.slot = some { l with grantSent := true } ∧
                    s.refreshed x.cmd = .grant h kind l.granted c b))))

/-- The end of an enumeration and what a discovery probe creates (R146, R148, R149). When the exchange with address 30
ends, by an IDENTITY or in failure, the enumeration is over: the schedule is rebuilt round-robin, four slots for each
entry not ABSENT in ascending index and the others empty, the cursor at slot 1 and the discovery timer at 60 s; that a
probe due is then dropped is log entry 24. An entry created by a discovery probe, that no slot names, takes the four
lowest-numbered empty slots, or as many as are empty, and a base so created makes a probe of the address one above due,
in the place of one that an earlier base still waits for (the model's choice, log entry 52). -/
def Obligations.EnumerationsEndAndProbesCreate : Prop :=
  ∀ (s : State) (x : Exchange), s.link.exchange = some x → x.cmd = .identify →
    (x.addr = 30 → x.source = .enumeration → ∀ c, (c = .answerWindowExpiry ∨ ∃ d, c = .identity 30 d) →
      ∃ t, exec c s = .next t ∧ t.link.exchange = none ∧ t.link.enumeration = .idle ∧ t.link.cursor = 1 ∧
        t.link.discoveryTimer = some 60 ∧ t.link.probeDue = false ∧ t.link.pairProbe = none ∧
        let present := [1, 2, 3, 4, 5, 6, 7].filter fun i => (t.entry i).state != .absent
        ∀ k, 1 ≤ k → k ≤ 32 →
          t.slotIndex k = if k ≤ 4 * present.length then present.getD ((k - 1) % present.length) 0 else 0) ∧
    ∀ (i : Nat) (d : Identity), x.source = .discovery → x.addr ≠ 31 → s.indexAt x.addr = none →
      d.signature = 0xD64E → 1 ≤ d.inlet → d.inlet ≤ 8 → 100 ≤ d.cap → d.cap ≤ 15000 → 1 ≤ d.classCode → d.classCode ≤ 5 →
      1 ≤ i → i ≤ 7 → (s.entry i).state = .absent → (∀ j, 1 ≤ j → j < i → (s.entry j).state ≠ .absent) →
      ∃ t, exec (.identity x.addr d) s = .next t ∧ t.link.exchange = none ∧ (t.entry i).state = .identifying ∧
        (t.entry i).address = x.addr ∧ t.link.cursor = s.link.cursor ∧
        t.link.pairProbe = (if d.dual = true ∧ x.addr % 2 = 0 ∧ 2 ≤ x.addr ∧ x.addr ≤ 28 then some (x.addr + 1)
          else s.link.pairProbe) ∧
        (i ∈ s.link.schedule.toList → t.link.schedule = s.link.schedule) ∧
        (i ∉ s.link.schedule.toList → ∀ k, 1 ≤ k → k ≤ 32 →
          t.slotIndex k =
            if s.slotIndex k = 0 ∧ ((List.range (k - 1)).filter fun j => s.slotIndex (j + 1) == 0).length < 4 then i
            else s.slotIndex k)

/-- A good STATUS returns the missed exchanges to 0, keeps its flags with the time of the clock, and gives a roll call
its heard mark (R137, R139, R147). An entry in IDENTIFYING becomes READY at its first, or QUALIFYING where it is of the
bought group (R123). A REPORT is credited to the lease the entry holds: its energy is added to what the lease has
delivered, to no more than 4,294,967,295 Wh, to the entry's lifetime total, which wraps, and for free heat at or above
the reserve line to the free-heat counter (R73, R102, R134). A REPORT credited to a bought lease in ADMITTED or
THROTTLED sets or clears its limit mark by the limited bit: a mark that comes to be set takes a learned-cap step of 5 %
of the declared cap, at least 100 W, to no less than 500 W or the declared cap, and starts the 60 s step timer; one that
is cleared stops it; and a lease that leaves the two states loses mark and timer (R100). -/
def Obligations.StatusesAreRecordedAndReportsCredited : Prop :=
  ∀ (s : State) (a i : Nat) (flags : Byte) (x : Exchange), s.link.exchange = some x → x.addr = a → a ≠ 31 →
    x.cmd = .poll → s.indexAt a = some i → (s.entry i).state ≠ .lost → flags.getLsbD 3 = false →
    let record : StatusRecord := { flags := flags, day := s.clock.day, minute := s.clock.minute, second := s.clock.second }
    (s.slotHeldBy i = none → ∃ t, exec (.status a flags none none) s = .next t ∧ t.link.exchange = none ∧
      (t.station i).status = some record ∧ (t.station i).supply = (s.station i).supply ∧
      t.link.roll = s.link.roll.map (fun r => { r with heard := r.heard || flags.getLsbD 0 }) ∧
      ((s.entry i).state ≠ .identifying → t.entry i = { s.entry i with missed := 0 }) ∧
      ((s.entry i).state = .identifying → (s.entry i).cls.isBought = true →
        t.entry i = { s.entry i with missed := 0, state := .qualifying, failures := 0 }) ∧
      ((s.entry i).state = .identifying → (s.entry i).cls.isBought = false →
        t.entry i = { s.entry i with missed := 0, state := .ready }) ∧
      (∀ j, j ≤ 7 → j ≠ i → t.entry j = s.entry j) ∧ s.sameOutside t [.admission, .roster, .link] ∧ s.sameRoots t) ∧
    ∀ n l e supply limited, s.slotHeldBy i = some n → s.lease? n = some l →
      (∀ y, s.roster.trial = some y → y.entry ≠ i) →
      let marks := l.kind.isBought = true ∧ l.state.isRunning = true
      let steps := marks ∧ l.limitMark = false ∧ limited = true
      let declared := (s.entry i).declared
      ∃ t l', exec (.status a flags (some (s.leaseHandle n)) (some (.report e supply limited))) s = .next t ∧
        t.link.exchange = none ∧ (t.station i).status = some record ∧ (t.station i).supply = some supply ∧
        t.leaseSlot n = { issue := (s.leaseSlot n).issue, lease := some l' } ∧
        l'.root = { l with delivered := min (l.delivered + e) 4294967295 }.root ∧
        (t.entry i).lifetime = ((s.entry i).lifetime + e) % 4294967296 ∧ (t.entry i).missed = 0 ∧
        (∀ j, j ≤ 7 → j ≠ i → t.entry j = s.entry j) ∧
        t.admission.freeHeat =
          (if (l.kind = .free ∨ l.kind = .solar) ∧ s.map.reserveLine ≤ (s.entry i).inlet then
            (s.admission.freeHeat + e) % 4294967296 else s.admission.freeHeat) ∧
        (t.entry i).learned =
          (if steps then (s.entry i).learned.map fun k =>
              max (k - max 100 (declared * 5 / 100 / 100 * 100)) (min 500 declared)
            else (s.entry i).learned) ∧
        (marks → l'.state.isRunning = true → l'.limitMark = limited ∧
          l'.stepTimer = if steps then some 60 else if limited then l.stepTimer else none) ∧
        (marks → l'.state.isRunning = false → l'.limitMark = false ∧ l'.stepTimer = none) ∧
        s.sameOutside t [.admission, .roster, .link]

/-- What follows from the handle a STATUS names and from its item (R140, R141, R61, R68, R82, R83, R88). A handle that
is not the entry's own lease is a stale item and draws a REVOKE, once while one waits, which waits afterwards (as a
REFUSE does) in every part whose closing has nothing to do, an entry in IDENTIFYING having an empty queue; no handle,
where the entry holds a lease past OFFERED, ends that lease as a RETIRE of 0 Wh or a CONFIRM does. A RETIRE or CONFIRM
credits its final energy and retires the lease: in REVOKING with its reason, else SOURCE_ENDED with a 600 s cooldown,
or CEASED for a free lease; one that names another handle is a stale item. A REQUEST opens a FREE lease in the lowest
free slot at the least of its offer, the effective cap and 15,000 W, with its GRANT placed, or draws a REFUSE with the
first reason that holds. A CHANGE gives the FREE lease held its new offer, and without one is a stale item. -/
def Obligations.AStatusIsCheckedAndItsItemTaken : Prop :=
  ∀ (s : State) (a i : Nat) (flags : Byte) (x : Exchange), s.tableInOrder → s.link.exchange = some x → x.addr = a →
    a ≠ 31 → x.cmd = .poll → s.indexAt a = some i → (s.entry i).state ≠ .lost → flags.getLsbD 3 = false →
    let own := s.handleHeldBy i
    let send := fun (h : Option Handle) (item : Option Item) => exec (.status a flags h item) s
    let stale := if s.link.staleItems < 65535 then s.link.staleItems + 1 else s.link.staleItems
    let offers := fun rate : Nat => min (rate / 100 * 100) (min (s.effectiveCap i) 15000)
    let calm := ((s.entry i).state = .identifying → (s.station i).queue = []) ∧ s.isSettled
    let freed := fun (t : State) (n : Nat) (l : Lease) (energy : Nat) =>
      let out := if l.state = .revoking then l.reason.getD .revoked else if l.kind.isBought then .sourceEnded else .ceased
      t.leaseSlot n = { issue := ((s.leaseSlot n).issue + 1) % 16, lease := none } ∧
      s.leaseHandle n ∉ t.admission.order ∧ t.flagged .leaseRetired = true ∧ t.link.staleItems = s.link.staleItems ∧
      t.entry i =
        { s.entry i with
          missed := 0, lifetime := ((s.entry i).lifetime + energy) % 4294967296
          cooldown := if l.state ≠ .revoking ∧ (s.entry i).cls.isBought = true then some 600 else (s.entry i).cooldown
          last := some
            { handle := s.leaseHandle n, kind := l.kind, outcome := out
              delivered := min (l.delivered + energy) 4294967295 } }
    (∀ h, own ≠ some h → ∃ t, send (some h) none = .next t ∧ s.sameRoots t ∧
      (calm → ∃ y ∈ (t.station i).queue, y.cmd = .revoke h) ∧
      t.link.staleItems =
        if ∃ y ∈ (s.station i).queue, y.cmd = .revoke h then s.link.staleItems else stale) ∧
    (∀ n l, s.slotHeldBy i = some n → s.lease? n = some l →
      (l.state = .offered → ∃ t, send none none = .next t ∧ s.sameRoots t ∧ t.link.staleItems = s.link.staleItems) ∧
      (l.state ≠ .offered → (∀ reason, l.reason = some reason → l.state = .revoking) →
        ∃ t, send none none = .next t ∧ freed t n l 0) ∧
      ∀ energy, l.delivered ≤ 4294967295 →
        (∃ t, send own (some (.retire (s.leaseHandle n) energy)) = .next t ∧ freed t n l energy) ∧
        ∃ t, send own (some (.confirm (s.leaseHandle n) energy)) = .next t ∧ freed t n l energy) ∧
    (∀ h energy, own ≠ some h → ∃ t, send own (some (.retire h energy)) = .next t ∧ s.sameRoots t ∧
      t.link.staleItems = stale ∧
      ∃ t', send own (some (.confirm h energy)) = .next t' ∧ s.sameRoots t' ∧ t'.link.staleItems = stale) ∧
    (∀ rate,
      let reason :=
        if s.admission.halted = true then some RefuseReason.halted
        else if s.map.valid = false then some .mapInvalid
        else if (s.entry i).state ≠ .ready then some .notReady
        else if (s.entry i).cls.isBought = true then some .boughtSource
        else if own ≠ none then some .holdsLease else none
      (∀ why, reason = some why → ∃ t, send own (some (.request rate)) = .next t ∧ s.sameRoots t ∧
        (calm → ∃ y ∈ (t.station i).queue, y.cmd = .refuse why)) ∧
      ∀ n, reason = none → 1 ≤ n → n ≤ 8 → s.lease? n = none → (∀ k, 1 ≤ k → k < n → s.lease? k ≠ none) →
        ∃ t l, send own (some (.request rate)) = .next t ∧
          t.leaseSlot n = { issue := (s.leaseSlot n).issue, lease := some l } ∧ l.kind = .free ∧ l.origin = .station ∧
          l.holder = i ∧ l.state = .offered ∧ l.inlet = (s.entry i).inlet ∧ l.ceiling = s.map.thetaMax ∧
          l.entitlement = offers rate ∧ l.granted = s.demand l ∧ l.budget = none ∧ l.timer = none ∧ l.delivered = 0 ∧
          l.serve = [] ∧ ∃ y ∈ (t.station i).queue, y.cmd = .grant (s.leaseHandle n) .free l.granted s.map.thetaMax none) ∧
    ∀ rate,
      (∀ n l, s.slotHeldBy i = some n → s.lease? n = some l → l.kind = .free →
        ∃ t l', send own (some (.change rate)) = .next t ∧
          t.leaseSlot n = { issue := (s.leaseSlot n).issue, lease := some l' } ∧ l'.root = { l with offer := rate }.root ∧
          l'.entitlement = offers rate ∧ t.link.staleItems = s.link.staleItems) ∧
      ((∀ n l, s.slotHeldBy i = some n → s.lease? n = some l → l.kind ≠ .free) →
        ∃ t, send own (some (.change rate)) = .next t ∧ s.sameRoots t ∧ t.link.staleItems = stale)

/-- An ACCEPT of the GRANT sent takes the lease out of OFFERED to the tail of the admission order, its acknowledged
rate that of the GRANT (R63, R70, R139). A DECLINE retires it DECLINED, with a 600 s cooldown for a bought entry (R71,
R133). An ACK records the rate and the run view that the command it answers gave the station, and an ACK to a trial's
QUALIFY begins its window of 300 s (R124, R139). Each returns the missed exchanges to 0 (R137). -/
def Obligations.AcceptsDeclinesAndAcksAreTaken : Prop :=
  ∀ (s : State) (a i : Nat) (h : Handle) (x : Exchange), s.link.exchange = some x → x.addr = a → a ≠ 31 →
    s.indexAt a = some i →
    (∀ l kind rate c b, x.cmd = .grant h kind rate c b → s.resolveLease h = .live → s.lease? h.slot = some l →
      l.holder = i → l.state = .offered →
      (∃ t l', exec (.accept a h) s = .next t ∧ t.link.exchange = none ∧ t.entry i = { s.entry i with missed := 0 } ∧
        t.leaseSlot h.slot = { issue := h.issue, lease := some l' } ∧ l'.state ≠ .offered ∧
        l'.root = { l with ackRate := some rate, runView := some .running }.root ∧
        t.admission.order = s.admission.order ++ [h] ∧ t.admission.desk = s.admission.desk ∧
        (∀ j, j ≤ 7 → j ≠ i → t.entry j = s.entry j) ∧ s.sameOutside t [.admission, .roster, .link]) ∧
      ∃ t, exec (.decline a h) s = .next t ∧ t.link.exchange = none ∧
        t.leaseSlot h.slot = { issue := (h.issue + 1) % 16, lease := none } ∧ h ∉ t.admission.order ∧
        t.flagged .leaseRetired = true ∧
        t.entry i =
          { s.entry i with
            missed := 0, cooldown := if (s.entry i).cls.isBought then some 600 else (s.entry i).cooldown
            last := some { handle := h, kind := l.kind, outcome := .declined, delivered := l.delivered } } ∧
        (∀ j, j ≤ 7 → j ≠ i → t.entry j = s.entry j) ∧ t.map = s.map ∧ t.clock = s.clock ∧
        t.port.state = s.port.state) ∧
    (∀ l rate, s.resolveLease h = .live → s.lease? h.slot = some l → l.holder = i →
      (x.cmd = .setRate h rate → ∃ t l', exec (.ack a 0x12#8) s = .next t ∧ t.link.exchange = none ∧
        t.leaseSlot h.slot = { issue := h.issue, lease := some l' } ∧ l'.root = { l with ackRate := some rate }.root ∧
        t.entry i = { s.entry i with missed := 0 } ∧ t.admission.order = s.admission.order ∧
        s.sameOutside t [.admission, .roster, .link]) ∧
      (x.cmd = .suspend h → ∃ t l', exec (.ack a 0x13#8) s = .next t ∧ t.link.exchange = none ∧
        t.leaseSlot h.slot = { issue := h.issue, lease := some l' } ∧
        l'.root = { l with runView := some .suspended }.root ∧ s.sameOutside t [.admission, .roster, .link]) ∧
      (x.cmd = .resume h rate → ∃ t l', exec (.ack a 0x14#8) s = .next t ∧ t.link.exchange = none ∧
        t.leaseSlot h.slot = { issue := h.issue, lease := some l' } ∧
        l'.root = { l with ackRate := some rate, runView := some .running }.root ∧
        s.sameOutside t [.admission, .roster, .link])) ∧
    ∀ y rate, x.cmd = .qualify rate → rate ≠ 0 → s.roster.trial = some y → y.entry = i → y.window = none →
      s.toSuspend = [] → s.toResume = [] →
      ∃ t, exec (.ack a 0x18#8) s = .next t ∧ t.link.exchange = none ∧ t.admission = s.admission ∧
        t.roster.trial = some { y with window := some 300 } ∧ t.entry i = { s.entry i with missed := 0 } ∧
        s.sameOutside t [.roster, .link]

/-- An exchange with one station fails when no answer begins, when the answer's bytes do not spell one, when it comes
from another address, and when it is of a kind the command does not allow: an IDENTITY to any but IDENTIFY, a STATUS to
any but POLL, an ACCEPT or a DECLINE to any but a GRANT of the handle it names, an ACK to IDENTIFY, POLL or GRANT or
naming another kind than the command's (R137). Bytes that spell an answer are that answer. The entry's missed exchanges
go up by one, to no more than three, and at three in a row the entry is LOST, with STATION_LOST raised (R128); one that
is LOST already stays so. The command, a GRANT among them, returns with its age to the place it had where nothing
overtook it and its lease is still the entry's, in a state in which the command may wait, and is else dropped (R143,
R144; the states are log entry 49): to its old number in the queue, counted from the head, also where the queue ahead of
it has become shorter (the model's choice, log entry 47), room being made for it (R142), and a REVOKE to a queue without
other commands for its lease (the model's reading of R143, log entry 13). With no exchange awaiting an answer nothing
changes (the model's choice, log entry 6). -/
def Obligations.AFailedExchangeIsMissed : Prop :=
  ∀ s : State,
    (∀ bytes : List Byte, answerOfBytes bytes = none →
      exec (.answerRejected bytes) s = exec .answerWindowExpiry s) ∧
    (∀ (bytes : List Byte) (a : Nat),
      (∀ d, answerOfBytes bytes = some (a, .identity d) →
        exec (.answerRejected bytes) s = exec (.identity a d) s) ∧
      (∀ f h x, answerOfBytes bytes = some (a, .status f h x) →
        exec (.answerRejected bytes) s = exec (.status a f h x) s) ∧
      (∀ h, answerOfBytes bytes = some (a, .accept h) → exec (.answerRejected bytes) s = exec (.accept a h) s) ∧
      (∀ h, answerOfBytes bytes = some (a, .decline h) → exec (.answerRejected bytes) s = exec (.decline a h) s) ∧
      (∀ k, answerOfBytes bytes = some (a, .ack k) → exec (.answerRejected bytes) s = exec (.ack a k) s)) ∧
    ((∀ x, s.link.exchange = some x → x.addr = 31) → exec .answerWindowExpiry s = .next s) ∧
    ∀ x, s.link.exchange = some x → x.addr ≠ 31 →
      (∀ a d flags believed item h kind, a ≠ x.addr →
        exec (.identity a d) s = exec .answerWindowExpiry s ∧
        exec (.status a flags believed item) s = exec .answerWindowExpiry s ∧
        exec (.accept a h) s = exec .answerWindowExpiry s ∧ exec (.decline a h) s = exec .answerWindowExpiry s ∧
        exec (.ack a kind) s = exec .answerWindowExpiry s) ∧
      (x.cmd ≠ .identify → ∀ d, exec (.identity x.addr d) s = exec .answerWindowExpiry s) ∧
      (x.cmd ≠ .poll → ∀ flags believed item,
        exec (.status x.addr flags believed item) s = exec .answerWindowExpiry s) ∧
      (∀ h, (∀ kind rate c b, x.cmd ≠ .grant h kind rate c b) →
        exec (.accept x.addr h) s = exec .answerWindowExpiry s ∧
        exec (.decline x.addr h) s = exec .answerWindowExpiry s) ∧
      (∀ kind, (kind ≠ x.cmd.code ∨ x.cmd = .identify ∨ x.cmd = .poll ∨ ∃ h k rate c b, x.cmd = .grant h k rate c b) →
        exec (.ack x.addr kind) s = exec .answerWindowExpiry s) ∧
      ∃ t, exec .answerWindowExpiry s = .next t ∧
        (∀ bytes, answerOfBytes bytes = none → exec (.answerRejected bytes) s = .next t) ∧ t.link.exchange = none ∧
        (∀ i, s.indexAt x.addr = some i →
          (((s.entry i).missed < 2 ∨ (s.entry i).state.isHeard = false) →
            t.entry i = { s.entry i with missed := min 3 ((s.entry i).missed + 1) } ∧
            s.sameOutside t [.admission, .roster, .link] ∧ s.sameRoots t ∧
            (∀ j, j ≤ 7 → j ≠ i → t.entry j = s.entry j) ∧
            ∀ place age, x.source = .queue place age → s.toSuspend = [] → s.toResume = [] → s.roster.trial = none →
              let waiting := (s.station i).queue
              let returns := x.overtaken = false ∧
                (∀ y ∈ waiting, overtakes y.cmd x.cmd = false ∧
                  ¬(y.cmd.handle? = x.cmd.handle? ∧ y.cmd.code = x.cmd.code)) ∧
                ∀ h, x.cmd.handle? = some h →
                  (s.handleHeldBy i = some h ∧ ∃ l, s.leaseOf? h = some l ∧ l.state.mayWait x.cmd = true) ∨
                    (s.handleHeldBy i ≠ some h ∧ x.cmd = .revoke h ∧ x.bore = false)
              let cleared := waiting.filter fun y => !(x.cmd.code == 0x15#8 && y.cmd.handle? == x.cmd.handle?)
              let room := if cleared.length < 4 then cleared else cleared.eraseP fun y => !s.bears i y.cmd
              (returns → cleared.length < 4 ∨ (∃ y ∈ cleared, s.bears i y.cmd = false) →
                (t.station i).queue = room.take place ++ { cmd := x.cmd, age := age } :: room.drop place) ∧
              (¬returns → (t.station i).queue = waiting)) ∧
          (2 ≤ (s.entry i).missed → (s.entry i).state.isHeard = true →
            (t.entry i).state = .lost ∧ (t.entry i).missed = 3 ∧ (t.entry i).retry = none ∧
              t.flagged .stationLost = true)) ∧
        (s.indexAt x.addr = none → t.roster.entries = s.roster.entries ∧ s.sameOutside t [.admission, .roster, .link] ∧
          s.sameRoots t)

/-- A command placed among those that wait (R142, R143), where there is room and no two of one kind for one lease wait:
the commands of other leases keep their order, no two of one kind for its lease wait, and the queue carries the latest
word for the lease. An AMEND placed waits; a SET RATE's rate waits, in a RESUME where one waits and else in a SET RATE,
and no other rate; a SUSPEND waits behind no SET RATE or RESUME for the lease, but where it finds a RESUME waiting and
the station has stopped and is not being told to start, neither waits, unless a SUSPEND waited already; a RESUME that
finds a SUSPEND waiting leaves none and its rate waits where the station has not acknowledged it, and one that finds
none waits; a REVOKE waits alone. -/
def Obligations.QueuesCarryTheLatestWord : Prop :=
  ∀ (bears : LinkCmd → Bool) (v : LeaseView) (c : LinkCmd) (h : Handle) (age : Nat) (q : List Queued),
    c.handle? = some h → c.code ≠ 0x10#8 → q.length < 4 →
    (∀ k : Byte, (q.filter fun x => x.cmd.handle? == some h && x.cmd.code == k).length ≤ 1) →
    let q' := coalesce bears v c age q
    (q'.filter fun x => x.cmd.handle? != some h) = (q.filter fun x => x.cmd.handle? != some h) ∧
    q'.length ≤ q.length + 1 ∧
    (∀ k : Byte, (q'.filter fun x => x.cmd.handle? == some h && x.cmd.code == k).length ≤ 1) ∧
    (∀ x ∈ q', x ∈ q ∨ x.cmd = c ∨ ∃ rate, x.cmd = .setRate h rate ∨ x.cmd = .resume h rate) ∧
    (∀ ceiling budget, c = .amend h ceiling budget → ∃ x ∈ q', x.cmd = c) ∧
    (c = .suspend h → (∀ x ∈ q', x.cmd.isSetRate h = false ∧ x.cmd.isResume h = false) ∧
      let stopped := (∃ x ∈ q, x.cmd.isResume h = true) ∧ v.runView = some .suspended ∧ v.resumeInFlight = false
      (¬stopped → ∃ x ∈ q', x.cmd = .suspend h) ∧
      (stopped → (∀ x ∈ q, x.cmd.isSuspend h = false) → ∀ x ∈ q', x.cmd.isSuspend h = false)) ∧
    (∀ rate, c = .resume h rate → (∀ x ∈ q', x.cmd.isSuspend h = false) ∧
      ((∀ x ∈ q, x.cmd.isSuspend h = false) → ∃ x ∈ q', x.cmd = .resume h rate) ∧
      ((∃ x ∈ q, x.cmd.isSuspend h = true) → v.ackRate ≠ some rate →
        ∃ x ∈ q', x.cmd = .setRate h rate ∨ x.cmd = .resume h rate)) ∧
    (∀ rate, c = .setRate h rate → (∃ x ∈ q', x.cmd = .setRate h rate ∨ x.cmd = .resume h rate) ∧
      (∀ x ∈ q', x.cmd.isSetRate h = true → x.cmd = .setRate h rate) ∧
      (∀ x ∈ q', x.cmd.isResume h = true → x.cmd = .resume h rate) ∧
      ((∃ x ∈ q, x.cmd.isResume h = true) → ∀ x ∈ q', x.cmd.isSetRate h = false)) ∧
    (c = .revoke h → (q'.filter fun x => x.cmd.handle? == some h).map (·.cmd) = [.revoke h])

/-! ### The solar loop (chapter 9) -/

/-- A pulse while the SOLAR lease exists adds the litres times 1.163 Wh times the kelvin by which the return stands
above S1, no less than 0, to the carried remainder; whole watt-hours are credited to the lease and the fraction carried
(R163). A pulse with no SOLAR lease is not counted. -/
def Obligations.APulseIsMetered : Prop :=
  ∀ s : State,
    ((∀ n l, 1 ≤ n → n ≤ 8 → s.lease? n = some l → l.kind ≠ .solar) → exec .flowPulse s = .next s) ∧
    ∀ n l, s.slotOfKind .solar = some n → s.lease? n = some l → l.holder = 0 →
      let sum := s.solar.remainder + s.solar.params.litresPerPulse * (s.map.loopReturn.temp - s.temp 1).toNat * 1163
      let e := sum / 100000
      ∃ t, exec .flowPulse s = .next t ∧ t.solar = { s.solar with remainder := sum % 100000 } ∧
        t.lease? n = some { l with delivered := if e = 0 then l.delivered else min (l.delivered + e) 4294967295 } ∧
        (∀ k, 1 ≤ k → k ≤ 8 → k ≠ n → t.leaseSlot k = s.leaseSlot k) ∧
        (0 < e → t.entry 0 = { s.entry 0 with lifetime := ((s.entry 0).lifetime + e) % 4294967296 } ∧
          t.admission.freeHeat = if s.map.reserveLine ≤ s.solar.inlet then (s.admission.freeHeat + e) % 4294967296
            else s.admission.freeHeat) ∧
        (e = 0 → t.admission = s.admission ∧ t.roster = s.roster) ∧
        (∀ j, 1 ≤ j → j ≤ 7 → t.entry j = s.entry j) ∧ s.sameOutside t [.admission, .roster, .solar]

/-- What the loop's timers and REMEASURE bring. The prime timer stops a loop whose return differential lies below the
stop differential and else sets the target and charges (R155, R156). The step timer moves the pump by 10 % towards the
target, within the minimum speed and 100 %, and a loop at the minimum below its target regulates (R157). The stop timer
stops the loop (R159). REMEASURE runs the pump at 100 % for 30 s, in CHARGING, after which the target is set again; it
is answered WRONG_STATE where the loop does not run or a fixed target is given, and else IN_PROGRESS while a
remeasurement runs (R158; that the fixed target is looked at first is the model's choice, log entry 53). A loop that
stops is OFF with its pump at 0, every timer dropped and no target, and its lease retired. -/
def Obligations.TheLoopPrimesStepsAndStops : Prop :=
  ∀ s : State,
    let stopped := fun t : State => t.solar.state = .off ∧ t.solar.pump = 0 ∧ t.solar.target = none ∧
      t.solar.prime = none ∧ t.solar.step = none ∧ t.solar.stop = none ∧ t.solar.remeasure = none ∧
      t.solar.params = s.solar.params ∧ t.solar.valve = s.solar.valve ∧ t.flagged .solarState = true ∧
      (∀ n, s.slotOfKind .solar = some n → t.lease? n = none ∧ t.flagged .leaseRetired = true) ∧
      t.map = s.map ∧ t.clock = s.clock ∧ t.sanitise = s.sanitise ∧ t.port.state = s.port.state
    let target := s.solar.params.fixedTarget.getD (max (s.solar.params.stopDiff + 20) (s.loopDiff / 2))
    let running := s.solar.state = .charging ∨ s.solar.state = .regulating
    let raised := { s.port with flags := s.port.flags ||| EventFlag.one .solarState }
    (s.solar.state = .priming → s.solar.prime ≠ none → ∃ t, exec .primeTimerExpiry s = .next t ∧
      (s.map.loopReturn.temp - s.temp 1 < s.solar.params.stopDiff → stopped t) ∧
      (s.solar.params.stopDiff ≤ s.map.loopReturn.temp - s.temp 1 →
        t.solar = { s.solar with state := .charging, prime := none, step := some 30, target := some target } ∧
          t.port = raised ∧ s.sameOutside t [.admission, .roster, .link, .solar, .port] ∧ s.sameTable t)) ∧
    (s.solar.state ≠ .priming → exec .primeTimerExpiry s = .next s) ∧
    (∀ x, s.solar.state = .charging → s.solar.step ≠ none → s.solar.target = some x →
      let low := s.solar.params.minSpeed
      let pump := if x + 10 < s.loopDiff then min 100 (s.solar.pump + 10)
        else if s.loopDiff < x - 10 then max low (s.solar.pump - 10) else s.solar.pump
      ∃ t, exec .solarStepTimerExpiry s = .next t ∧
        s.sameOutside t [.admission, .roster, .link, .solar, .port] ∧ s.sameRoots t ∧
        (pump = low → s.loopDiff < x →
          t.solar = { s.solar with state := .regulating, pump := pump, step := none } ∧ t.port = raised) ∧
        (pump ≠ low ∨ x ≤ s.loopDiff →
          t.solar = { s.solar with pump := pump, step := some 30 } ∧ t.port = s.port ∧ s.sameTable t)) ∧
    (s.solar.state ≠ .charging → exec .solarStepTimerExpiry s = .next s ∧ exec .remeasureTimerExpiry s = .next s) ∧
    (running → s.solar.stop ≠ none → ∃ t, exec .stopTimerExpiry s = .next t ∧ stopped t) ∧
    (¬running ∨ s.solar.stop = none → exec .stopTimerExpiry s = .next s) ∧
    (s.solar.state = .charging → s.solar.remeasure ≠ none → exec .remeasureTimerExpiry s = .next { s with solar :=
      { s.solar with remeasure := none, target := some target, step := some 30 } }) ∧
    (s.isWorking = false →
      (running → s.solar.params.fixedTarget = none → s.solar.remeasure = none → ∃ t, exec .remeasure s = .next t ∧
        t.answersWith .ok 0x29#8 [] ∧ (s.solar.state = .regulating → t.flagged .solarState = true) ∧
        t.solar = { s.solar with state := .charging, pump := 100, step := none, remeasure := some 30 } ∧
        s.sameOutside t [.admission, .roster, .link, .solar, .port] ∧ s.sameRoots t) ∧
      (running → s.solar.params.fixedTarget = none → s.solar.remeasure ≠ none →
        exec .remeasure s = .next (s.replies .inProgress 0x29#8 [])) ∧
      (¬running ∨ s.solar.params.fixedTarget ≠ none →
        exec .remeasure s = .next (s.replies .wrongState 0x29#8 [])))

/-- The loop at a sweep-complete and at a guard change (R154, R155, R157, R159, R160, R162, R164, R165). A faulted
collector, return or S1 probe leaves it FAULTED, stagnation takes it from OFF or a lease state to STAGNANT, a full
cylinder or a guard that SHUTs ends a lease state, and STAGNANT, FAULTED and RECOOLING end as their tests say: the pump
at 0, every timer and the target dropped, the SOLAR lease retired, SOLAR_STATE raised. A loop in OFF that passes the
start test primes at 100 % with its SOLAR lease opened at the valve's inlet, and else recools where the entry test
holds. A running loop tends its stop timer, leaves REGULATING at the target plus 1.0 K, and the valve moves where its
60 s have passed (how a sweep counts them is log entry 17; that it is tested after the loop's other tests, and stays at
the sweep that enters PRIMING, is log entry 12). Which guard change a loop in OFF acts on is log entry 11. Where no
test decides the loop stays. The stop point is computed at each sweep. -/
def Obligations.TheLoopAtASweepAndAGuardChange : Prop :=
  ∀ s : State, s.tableInOrder →
    let dropped := fun (st : LoopState) (t : State) => t.solar.state = st ∧ t.solar.pump = 0 ∧ t.solar.target = none ∧
      t.solar.prime = none ∧ t.solar.step = none ∧ t.solar.stop = none ∧ t.solar.remeasure = none ∧
      t.solar.params = s.solar.params ∧ t.solar.valve = s.solar.valve ∧ t.flagged .solarState = true ∧
      ∀ n, s.slotOfKind .solar = some n → t.lease? n = none ∧ t.flagged .leaseRetired = true
    let p := s.solar.params
    let leased := s.solar.state = .priming ∨ s.solar.state = .charging ∨ s.solar.state = .regulating
    (∀ r : Readings, s.map.sweeping = true →
      let m := s.map.afterSweep r
      let at' := fun n => (m.stratum n).temp
      let fault := m.collector.probe.state = .faulted ∨ m.loopReturn.probe.state = .faulted ∨
        (m.stratum 1).probe.state = .faulted
      let stagnates := p.stagnation ≤ m.collector.temp
      let full := m.thetaMax ≤ at' 8
      let primes := s.admission.halted = false ∧ p.startDiff ≤ m.collector.temp - at' 1 ∧ at' 8 < m.thetaMax - 30
      let within := fun minute => if p.windowStart < p.windowEnd then p.windowStart ≤ minute ∧ minute < p.windowEnd
        else p.windowStart ≤ minute ∨ minute < p.windowEnd
      let passed := 10 - s.solar.counted
      let spacing := s.solar.spacing.bind fun x => if x ≤ passed then none else some (x - passed)
      let upper := at' p.upperInlet
      let moved := if spacing ≠ none then s.solar.valve
        else match s.solar.valve with
          | .lower => if upper + 20 ≤ m.loopReturn.temp then .upper else .lower
          | .upper => if m.loopReturn.temp < upper then .lower else .upper
      let driven := if s.solar.valve = .lower ∧ spacing = none then Valve.upper else s.solar.valve
      let spaced := fun v : Valve => if v = s.solar.valve then spacing else some 60
      let reference := at' s.solar.inlet
      ∃ (t : State) (stop : Temp), exec (.sweepComplete r) s = .next t ∧ t.solar.stopPoint = some stop ∧
        t.solar.counted = 0 ∧ m.thetaMax - 100 ≤ stop ∧
        (let ahead := fun x : Reservation => x.state.isOpen = true ∧ s.clock.now < dueOf x.terms ∧
          dueOf x.terms ≤ s.clock.now + 720
        (∀ n x, 1 ≤ n → n ≤ 24 → s.record? n = some x → ahead x → x.terms.thetaMin + m.margin ≤ stop) ∧
        (stop = m.thetaMax - 100 ∨
          ∃ n x, 1 ≤ n ∧ n ≤ 24 ∧ s.record? n = some x ∧ ahead x ∧ stop = x.terms.thetaMin + m.margin)) ∧
        (let recools := p.recooling = true ∧ s.clock.set = true ∧ within s.clock.minute ∧ s.admission.halted = false ∧
          m.thetaMax - 50 < at' 8 ∧ stop < at' 8 ∧ m.collector.temp < at' 8 - p.startDiff
        let stays := t.solar = { s.solar with spacing := spacing, counted := 0, stopPoint := some stop }
        (s.solar.state ≠ .faulted → fault → dropped .faulted t) ∧
        (s.solar.state = .faulted → fault → stays) ∧
        (s.solar.state = .faulted → ¬fault → dropped .off t) ∧
        (s.solar.state = .off ∨ leased → ¬fault → stagnates → dropped .stagnant t) ∧
        (leased → ¬fault → ¬stagnates → full → dropped .off t) ∧
        (s.solar.state = .stagnant → ¬fault → m.collector.temp ≤ p.releaseTemp → dropped .off t) ∧
        (s.solar.state = .stagnant → ¬fault → p.releaseTemp < m.collector.temp → stays) ∧
        (s.solar.state = .recooling → ¬fault → at' 8 ≤ stop → dropped .off t) ∧
        (s.solar.state = .recooling → ¬fault → stop < at' 8 → t.solar =
          { s.solar with spacing := spaced driven, counted := 0, stopPoint := some stop, valve := driven }) ∧
        (∀ n, s.solar.state = .off → ¬fault → ¬stagnates → primes → 1 ≤ n → n ≤ 8 → s.lease? n = none →
          (∀ k, 1 ≤ k → k < n → s.lease? k ≠ none) →
          t.solar =
            { s.solar with
              spacing := spacing, counted := 0, stopPoint := some stop, state := .priming, pump := 100
              prime := some p.primeTime, remainder := 0 } ∧
          t.flagged .solarState = true ∧ s.leaseHandle n ∈ t.admission.order ∧
          ∃ l, t.leaseSlot n = { issue := (s.leaseSlot n).issue, lease := some l } ∧ l.kind = .solar ∧
            l.origin = .part ∧ l.holder = 0 ∧ l.state.isRunning = true ∧ l.inlet = s.solar.inlet ∧
            l.ceiling = m.thetaMax ∧ l.delivered = 0 ∧ l.budget = none ∧ l.timer = none) ∧
        (s.solar.state = .off → ¬fault → ¬stagnates → ¬primes → recools → t.flagged .solarState = true ∧ t.solar =
          { s.solar with
            spacing := spaced driven, counted := 0, stopPoint := some stop, state := .recooling, pump := 100
            valve := driven }) ∧
        (s.solar.state = .off → ¬fault → ¬stagnates → ¬primes → ¬recools → stays) ∧
        (s.solar.state = .priming → ¬fault → ¬stagnates → ¬full → t.solar =
          { s.solar with spacing := spaced moved, counted := 0, stopPoint := some stop, valve := moved }) ∧
        (s.solar.state = .charging ∨ s.solar.state = .regulating → ¬fault → ¬stagnates → ¬full →
          let lifts := s.solar.state = .regulating ∧ ∃ x, s.solar.target = some x ∧ x + 10 ≤ m.collector.temp - reference
          (lifts → t.flagged .solarState = true) ∧ t.solar =
            { s.solar with
              spacing := spaced moved, counted := 0, stopPoint := some stop, valve := moved
              state := if lifts then .charging else s.solar.state
              step := if lifts then some 30 else s.solar.step
              stop := if m.loopReturn.temp - reference < p.stopDiff then some (s.solar.stop.getD 120) else none }))) ∧
    ∀ v : Int, s.isWorking = false → 600 ≤ v → v ≤ 950 →
      let guard := guardOf s.map.valid (s.temp 8) v
      ∃ t, exec (.setThetaMax v) s = .next t ∧ t.solar.params = p ∧
        (v = s.map.thetaMax ∨ guard = s.map.guard → t.solar = s.solar) ∧
        (v ≠ s.map.thetaMax → guard ≠ s.map.guard → leased → guard = .shut → dropped .off t) ∧
        (leased → guard ≠ .shut → t.solar = s.solar) ∧
        (¬leased → s.solar.state ≠ .off → t.solar = s.solar) ∧
        (s.solar.state = .off → guard.strictness ≤ s.map.guard.strictness → t.solar = s.solar) ∧
        (v ≠ s.map.thetaMax → s.solar.state = .off → s.map.guard.strictness < guard.strictness →
          (s.loopFault = true → dropped .faulted t) ∧
          (s.loopFault = false → p.stagnation ≤ s.map.collector.temp → dropped .stagnant t))

/-! ### Reset and the part as a whole -/

/-- At power-on every block takes its power-on state; a RESET request taken does the same, but that the day clock
stays, an ALL STOP is pending before the LINK CLEAR, CLOCK_UNSET is set only while the clock is UNSET, and the request
is answered OK (R17, R39, R86, R104, R135, R152, R166, R169, R180). That the queue of commands and the level of the
call line stay is the model's choice (log entry 3). -/
def Obligations.PowerOnAndResetRestoreThePart : Prop :=
  ∀ s : State,
    exec .powerOn s = .next { State.reset with pending := s.pending } ∧
    (s.isWorking = false → exec .reset s = .next
      { State.reset with
        clock := s.clock
        link := { State.reset.link with allStop := true, callLow := s.link.callLow }
        port :=
          { state := .working { status := .ok, code := 0x3F#8, fields := [] }, ready := false
            flags := if s.clock.set then 0#16 else 0x8000#16, mask := 0#16, dataOut := [] }
        pending := s.pending }) ∧
    (let z := State.reset
     z.map.valid = false ∧ z.map.guard = .shut ∧ (∀ n, 1 ≤ n → n ≤ 8 → (z.stratum n).volume = 25 ∧ z.temp n = 0 ∧
       (z.stratum n).claimed = 0 ∧ (z.stratum n).probe = { state := .valid, history := [] }) ∧
     z.map.thetaMax = 850 ∧ z.map.reserveLine = 5 ∧ z.map.margin = 50 ∧
     (∀ n, z.bookSlot n = { issue := 0, record := none }) ∧ (∀ n, z.leaseSlot n = { issue := 0, lease := none }) ∧
     z.coverage = { pass := none, rerun := false } ∧ z.admission.order = [] ∧ z.admission.siteBudget = 6000 ∧
     z.admission.rating = 4000 ∧ z.admission.freeHeat = 0 ∧ z.admission.halted = false ∧ z.roster.autoCap = true ∧
     z.roster.trial = none ∧ (∀ i, 1 ≤ i → i ≤ 7 → (z.entry i).state = .absent ∧ (z.station i).queue = []) ∧
     (z.entry 0).state = .ready ∧ z.link.linkClear = true ∧ z.link.allStop = false ∧ z.link.enumeration = .due ∧
     z.solar.state = .off ∧ z.solar.pump = 0 ∧ z.solar.valve = .lower ∧ z.sanitise.interval = none ∧
     z.clock = { set := false, day := 0, minute := 0, second := 0 } ∧ z.port.state = .empty ∧ z.port.ready = false ∧
     z.port.flags = 0x8000#16)

/-- The part right after reset is in order, its lease table too, and its allocations within the site power budget. -/
def Obligations.ResetIsLegal : Prop :=
  State.reset.legal ∧ State.reset.tableInOrder ∧ State.reset.allocated ≤ State.reset.admission.siteBudget

/-- Every step keeps the part in order: the clock at a minute that exists, every parameter in its range and the bounds
that others set it, those of the leases and rates among them, the sanitise floor at or above the reserve line, every
history of at most three readings, every record's terms in their ranges and every open reservation within the cylinder,
the pass in flight on each record once, and each station's queue within its four places (§2.1, §9.1, §10.1, R2, R11,
R12, R13, R18, R42, R75, R89, R94, R142, R169). -/
def Obligations.EveryStepKeepsThePartInOrder : Prop :=
  ∀ s t : State, s.legal → step s = .next t → t.legal

/-- Every step of a part in order keeps its lease table in order: the leases and their holders, of the group that each
kind asks for, with a finishing hold in FINISHING alone, the admission order without duplicates and of live leases past
OFFERED, the top-up links and the serve lists in agreement, the SOLAR lease with the loop's state, entry 0 of class
SOLAR_THERMAL, the trial with its entry, and in each station's queue no two commands of one kind for one handle, fewer
than four that bear its lease, and those alone that may wait in the lease's state (R62, R63, R64, R68, R76, R78, R79,
R107, R119, R124, R142, R143, R154). That no run brings a lease past OFFERED beside a GRANT or a REVOKE that waits for
it rests on log entry 49. -/
def Obligations.EveryStepKeepsTheLeaseTable : Prop :=
  ∀ s t : State, s.legal → s.tableInOrder → step s = .next t → t.tableInOrder

/-- Every step of a part whose lease table is in order, every admitted electric lease in the admission order, keeps the
allocations within the site power budget (R94, R95, R96, R97, R99). -/
def Obligations.EveryStepKeepsTheSiteBudget : Prop :=
  ∀ s t : State, s.legal → s.tableInOrder → s.allocated ≤ s.admission.siteBudget → step s = .next t →
    t.allocated ≤ t.admission.siteBudget
end

