-- ==== Sys2Proof/Laws/State.lean ====
section
/-! SUPPORT. What each block update leaves and what it writes, field by field, so that no proof unfolds a record update. -/

namespace Sys2Proof.Machine

section modMap

variable (f : StratumMap → StratumMap) (s : State)

@[simp] theorem modMap_map : (s.modMap f).map = f s.map := rfl
@[simp] theorem modMap_book : (s.modMap f).book = s.book := rfl
@[simp] theorem modMap_coverage : (s.modMap f).coverage = s.coverage := rfl
@[simp] theorem modMap_admission : (s.modMap f).admission = s.admission := rfl
@[simp] theorem modMap_roster : (s.modMap f).roster = s.roster := rfl
@[simp] theorem modMap_link : (s.modMap f).link = s.link := rfl
@[simp] theorem modMap_solar : (s.modMap f).solar = s.solar := rfl
@[simp] theorem modMap_sanitise : (s.modMap f).sanitise = s.sanitise := rfl
@[simp] theorem modMap_clock : (s.modMap f).clock = s.clock := rfl
@[simp] theorem modMap_port : (s.modMap f).port = s.port := rfl
@[simp] theorem modMap_moment : (s.modMap f).moment = s.moment := rfl
@[simp] theorem modMap_pending : (s.modMap f).pending = s.pending := rfl

end modMap

section modBook

variable (f : Book → Book) (s : State)

@[simp] theorem modBook_map : (s.modBook f).map = s.map := rfl
@[simp] theorem modBook_book : (s.modBook f).book = f s.book := rfl
@[simp] theorem modBook_coverage : (s.modBook f).coverage = s.coverage := rfl
@[simp] theorem modBook_admission : (s.modBook f).admission = s.admission := rfl
@[simp] theorem modBook_roster : (s.modBook f).roster = s.roster := rfl
@[simp] theorem modBook_link : (s.modBook f).link = s.link := rfl
@[simp] theorem modBook_solar : (s.modBook f).solar = s.solar := rfl
@[simp] theorem modBook_sanitise : (s.modBook f).sanitise = s.sanitise := rfl
@[simp] theorem modBook_clock : (s.modBook f).clock = s.clock := rfl
@[simp] theorem modBook_port : (s.modBook f).port = s.port := rfl
@[simp] theorem modBook_moment : (s.modBook f).moment = s.moment := rfl
@[simp] theorem modBook_pending : (s.modBook f).pending = s.pending := rfl

end modBook

section modCoverage

variable (f : Coverage → Coverage) (s : State)

@[simp] theorem modCoverage_map : (s.modCoverage f).map = s.map := rfl
@[simp] theorem modCoverage_book : (s.modCoverage f).book = s.book := rfl
@[simp] theorem modCoverage_coverage : (s.modCoverage f).coverage = f s.coverage := rfl
@[simp] theorem modCoverage_admission : (s.modCoverage f).admission = s.admission := rfl
@[simp] theorem modCoverage_roster : (s.modCoverage f).roster = s.roster := rfl
@[simp] theorem modCoverage_link : (s.modCoverage f).link = s.link := rfl
@[simp] theorem modCoverage_solar : (s.modCoverage f).solar = s.solar := rfl
@[simp] theorem modCoverage_sanitise : (s.modCoverage f).sanitise = s.sanitise := rfl
@[simp] theorem modCoverage_clock : (s.modCoverage f).clock = s.clock := rfl
@[simp] theorem modCoverage_port : (s.modCoverage f).port = s.port := rfl
@[simp] theorem modCoverage_moment : (s.modCoverage f).moment = s.moment := rfl
@[simp] theorem modCoverage_pending : (s.modCoverage f).pending = s.pending := rfl

end modCoverage

section modAdmission

variable (f : Admission → Admission) (s : State)

@[simp] theorem modAdmission_map : (s.modAdmission f).map = s.map := rfl
@[simp] theorem modAdmission_book : (s.modAdmission f).book = s.book := rfl
@[simp] theorem modAdmission_coverage : (s.modAdmission f).coverage = s.coverage := rfl
@[simp] theorem modAdmission_admission : (s.modAdmission f).admission = f s.admission := rfl
@[simp] theorem modAdmission_roster : (s.modAdmission f).roster = s.roster := rfl
@[simp] theorem modAdmission_link : (s.modAdmission f).link = s.link := rfl
@[simp] theorem modAdmission_solar : (s.modAdmission f).solar = s.solar := rfl
@[simp] theorem modAdmission_sanitise : (s.modAdmission f).sanitise = s.sanitise := rfl
@[simp] theorem modAdmission_clock : (s.modAdmission f).clock = s.clock := rfl
@[simp] theorem modAdmission_port : (s.modAdmission f).port = s.port := rfl
@[simp] theorem modAdmission_moment : (s.modAdmission f).moment = s.moment := rfl
@[simp] theorem modAdmission_pending : (s.modAdmission f).pending = s.pending := rfl

end modAdmission

section modRoster

variable (f : Roster → Roster) (s : State)

@[simp] theorem modRoster_map : (s.modRoster f).map = s.map := rfl
@[simp] theorem modRoster_book : (s.modRoster f).book = s.book := rfl
@[simp] theorem modRoster_coverage : (s.modRoster f).coverage = s.coverage := rfl
@[simp] theorem modRoster_admission : (s.modRoster f).admission = s.admission := rfl
@[simp] theorem modRoster_roster : (s.modRoster f).roster = f s.roster := rfl
@[simp] theorem modRoster_link : (s.modRoster f).link = s.link := rfl
@[simp] theorem modRoster_solar : (s.modRoster f).solar = s.solar := rfl
@[simp] theorem modRoster_sanitise : (s.modRoster f).sanitise = s.sanitise := rfl
@[simp] theorem modRoster_clock : (s.modRoster f).clock = s.clock := rfl
@[simp] theorem modRoster_port : (s.modRoster f).port = s.port := rfl
@[simp] theorem modRoster_moment : (s.modRoster f).moment = s.moment := rfl
@[simp] theorem modRoster_pending : (s.modRoster f).pending = s.pending := rfl

end modRoster

section modLink

variable (f : Link → Link) (s : State)

@[simp] theorem modLink_map : (s.modLink f).map = s.map := rfl
@[simp] theorem modLink_book : (s.modLink f).book = s.book := rfl
@[simp] theorem modLink_coverage : (s.modLink f).coverage = s.coverage := rfl
@[simp] theorem modLink_admission : (s.modLink f).admission = s.admission := rfl
@[simp] theorem modLink_roster : (s.modLink f).roster = s.roster := rfl
@[simp] theorem modLink_link : (s.modLink f).link = f s.link := rfl
@[simp] theorem modLink_solar : (s.modLink f).solar = s.solar := rfl
@[simp] theorem modLink_sanitise : (s.modLink f).sanitise = s.sanitise := rfl
@[simp] theorem modLink_clock : (s.modLink f).clock = s.clock := rfl
@[simp] theorem modLink_port : (s.modLink f).port = s.port := rfl
@[simp] theorem modLink_moment : (s.modLink f).moment = s.moment := rfl
@[simp] theorem modLink_pending : (s.modLink f).pending = s.pending := rfl

end modLink

section modSolar

variable (f : Solar → Solar) (s : State)

@[simp] theorem modSolar_map : (s.modSolar f).map = s.map := rfl
@[simp] theorem modSolar_book : (s.modSolar f).book = s.book := rfl
@[simp] theorem modSolar_coverage : (s.modSolar f).coverage = s.coverage := rfl
@[simp] theorem modSolar_admission : (s.modSolar f).admission = s.admission := rfl
@[simp] theorem modSolar_roster : (s.modSolar f).roster = s.roster := rfl
@[simp] theorem modSolar_link : (s.modSolar f).link = s.link := rfl
@[simp] theorem modSolar_solar : (s.modSolar f).solar = f s.solar := rfl
@[simp] theorem modSolar_sanitise : (s.modSolar f).sanitise = s.sanitise := rfl
@[simp] theorem modSolar_clock : (s.modSolar f).clock = s.clock := rfl
@[simp] theorem modSolar_port : (s.modSolar f).port = s.port := rfl
@[simp] theorem modSolar_moment : (s.modSolar f).moment = s.moment := rfl
@[simp] theorem modSolar_pending : (s.modSolar f).pending = s.pending := rfl

end modSolar

section modSanitise

variable (f : Sanitise → Sanitise) (s : State)

@[simp] theorem modSanitise_map : (s.modSanitise f).map = s.map := rfl
@[simp] theorem modSanitise_book : (s.modSanitise f).book = s.book := rfl
@[simp] theorem modSanitise_coverage : (s.modSanitise f).coverage = s.coverage := rfl
@[simp] theorem modSanitise_admission : (s.modSanitise f).admission = s.admission := rfl
@[simp] theorem modSanitise_roster : (s.modSanitise f).roster = s.roster := rfl
@[simp] theorem modSanitise_link : (s.modSanitise f).link = s.link := rfl
@[simp] theorem modSanitise_solar : (s.modSanitise f).solar = s.solar := rfl
@[simp] theorem modSanitise_sanitise : (s.modSanitise f).sanitise = f s.sanitise := rfl
@[simp] theorem modSanitise_clock : (s.modSanitise f).clock = s.clock := rfl
@[simp] theorem modSanitise_port : (s.modSanitise f).port = s.port := rfl
@[simp] theorem modSanitise_moment : (s.modSanitise f).moment = s.moment := rfl
@[simp] theorem modSanitise_pending : (s.modSanitise f).pending = s.pending := rfl

end modSanitise

section modPort

variable (f : Port → Port) (s : State)

@[simp] theorem modPort_map : (s.modPort f).map = s.map := rfl
@[simp] theorem modPort_book : (s.modPort f).book = s.book := rfl
@[simp] theorem modPort_coverage : (s.modPort f).coverage = s.coverage := rfl
@[simp] theorem modPort_admission : (s.modPort f).admission = s.admission := rfl
@[simp] theorem modPort_roster : (s.modPort f).roster = s.roster := rfl
@[simp] theorem modPort_link : (s.modPort f).link = s.link := rfl
@[simp] theorem modPort_solar : (s.modPort f).solar = s.solar := rfl
@[simp] theorem modPort_sanitise : (s.modPort f).sanitise = s.sanitise := rfl
@[simp] theorem modPort_clock : (s.modPort f).clock = s.clock := rfl
@[simp] theorem modPort_port : (s.modPort f).port = f s.port := rfl
@[simp] theorem modPort_moment : (s.modPort f).moment = s.moment := rfl
@[simp] theorem modPort_pending : (s.modPort f).pending = s.pending := rfl

end modPort

section bump

variable (s : State)

@[simp] theorem bump_map : s.bump.map = s.map := rfl
@[simp] theorem bump_book : s.bump.book = s.book := rfl
@[simp] theorem bump_coverage : s.bump.coverage = s.coverage := rfl
@[simp] theorem bump_admission : s.bump.admission = s.admission := rfl
@[simp] theorem bump_roster : s.bump.roster = s.roster := rfl
@[simp] theorem bump_link : s.bump.link = s.link := rfl
@[simp] theorem bump_solar : s.bump.solar = s.solar := rfl
@[simp] theorem bump_sanitise : s.bump.sanitise = s.sanitise := rfl
@[simp] theorem bump_clock : s.bump.clock = s.clock := rfl
@[simp] theorem bump_port : s.bump.port = s.port := rfl
@[simp] theorem bump_moment : s.bump.moment = s.moment + 1 := rfl
@[simp] theorem bump_pending : s.bump.pending = s.pending := rfl

end bump

section raise

variable (e : EventFlag) (c : Bool) (s : State)

@[simp] theorem raise_map : (s.raise e).map = s.map := rfl
@[simp] theorem raise_book : (s.raise e).book = s.book := rfl
@[simp] theorem raise_coverage : (s.raise e).coverage = s.coverage := rfl
@[simp] theorem raise_admission : (s.raise e).admission = s.admission := rfl
@[simp] theorem raise_roster : (s.raise e).roster = s.roster := rfl
@[simp] theorem raise_link : (s.raise e).link = s.link := rfl
@[simp] theorem raise_solar : (s.raise e).solar = s.solar := rfl
@[simp] theorem raise_sanitise : (s.raise e).sanitise = s.sanitise := rfl
@[simp] theorem raise_clock : (s.raise e).clock = s.clock := rfl
@[simp] theorem raise_moment : (s.raise e).moment = s.moment := rfl
@[simp] theorem raise_pending : (s.raise e).pending = s.pending := rfl
@[simp] theorem raise_port : (s.raise e).port = { s.port with flags := s.port.flags ||| e.one } := rfl

@[simp] theorem raiseIf_map : (s.raiseIf c e).map = s.map := by cases c <;> rfl
@[simp] theorem raiseIf_book : (s.raiseIf c e).book = s.book := by cases c <;> rfl
@[simp] theorem raiseIf_coverage : (s.raiseIf c e).coverage = s.coverage := by cases c <;> rfl
@[simp] theorem raiseIf_admission : (s.raiseIf c e).admission = s.admission := by cases c <;> rfl
@[simp] theorem raiseIf_roster : (s.raiseIf c e).roster = s.roster := by cases c <;> rfl
@[simp] theorem raiseIf_link : (s.raiseIf c e).link = s.link := by cases c <;> rfl
@[simp] theorem raiseIf_solar : (s.raiseIf c e).solar = s.solar := by cases c <;> rfl
@[simp] theorem raiseIf_sanitise : (s.raiseIf c e).sanitise = s.sanitise := by cases c <;> rfl
@[simp] theorem raiseIf_clock : (s.raiseIf c e).clock = s.clock := by cases c <;> rfl
@[simp] theorem raiseIf_moment : (s.raiseIf c e).moment = s.moment := by cases c <;> rfl
@[simp] theorem raiseIf_pending : (s.raiseIf c e).pending = s.pending := by cases c <;> rfl

end raise

end Sys2Proof.Machine
end

