-- ==== Sys2Proof/Laws/Calm.lean ====
section
/-! SUPPORT. The work of the lease table, its arbiter and the command queues: everything outside the admission
controller, the link and the running trial stands as it stood. -/

namespace Sys2Proof.Machine

/-- What that work leaves alone. -/
structure Calm where
  map : StratumMap
  book : Book
  coverage : Coverage
  entries : Vector Entry 8
  autoCap : Bool
  solar : Solar
  sanitise : Sanitise
  clock : Clock
  port : Port
  desk : Admission
  wires : Link
  pending : List Instr

def State.calm (s : State) : Calm :=
  { map := s.map, book := s.book, coverage := s.coverage, entries := s.roster.entries, autoCap := s.roster.autoCap
    solar := s.solar, sanitise := s.sanitise, clock := s.clock, port := s.port, desk := s.admission.desk, wires := s.link.wires
    pending := s.pending }

/-- Two states that agree in that part agree in each of its blocks. -/
theorem calm_eq_iff {s t : State} :
    t.calm = s.calm ↔
      t.map = s.map ∧ t.book = s.book ∧ t.coverage = s.coverage ∧ t.roster.entries = s.roster.entries ∧
        t.roster.autoCap = s.roster.autoCap ∧ t.solar = s.solar ∧ t.sanitise = s.sanitise ∧ t.clock = s.clock ∧
        t.port = s.port ∧ t.admission.desk = s.admission.desk ∧ t.link.wires = s.link.wires ∧ t.pending = s.pending := by
  simp [State.calm]

/-- A fold of changes each of which leaves a projection alone leaves it alone. -/
theorem foldl_keeps {α β : Type} (proj : State → β) (f : State → α → State) (h : ∀ s a, proj (f s a) = proj s)
    (l : List α) (s : State) : proj (l.foldl f s) = proj s := by
  induction l generalizing s with
  | nil => rfl
  | cons a l ih => simp [ih, h]

theorem foldl_calm {α : Type} (f : State → α → State) (h : ∀ s a, (f s a).calm = s.calm) (l : List α) (s : State) :
    (l.foldl f s).calm = s.calm := foldl_keeps State.calm f h l s

/-! ### Block updates -/

@[simp] theorem calm_setOrder (g : Admission → List Handle) (s : State) :
    (s.modAdmission fun a => { a with order := g a }).calm = s.calm := rfl
@[simp] theorem calm_setExchange (s : State) (f : Exchange → Exchange)
    (h : ∀ x, { f x with overtaken := false } = { x with overtaken := false }) :
    (s.modLink fun k => { k with exchange := k.exchange.map f }).calm = s.calm := by
  rcases s with ⟨_, _, _, _, _, k, _, _, _, _, _, _⟩
  simp only [State.calm, State.modLink, Link.wires]
  cases k.exchange <;> simp [h]
@[simp] theorem calm_bump (s : State) : s.bump.calm = s.calm := rfl
@[simp] theorem calm_setTrial (x : Option Trial) (s : State) :
    (s.modRoster fun r => { r with trial := x }).calm = s.calm := rfl
@[simp] theorem calm_modStation (i : Nat) (f : Station → Station) (s : State) : (s.modStation i f).calm = s.calm := rfl
@[simp] theorem calm_setLeaseSlot (n : Nat) (x : LeaseSlot) (s : State) : (s.setLeaseSlot n x).calm = s.calm := rfl
@[simp] theorem calm_modLease (n : Nat) (f : Lease → Lease) (s : State) : (s.modLease n f).calm = s.calm := rfl
@[simp] theorem calm_countStale (s : State) : s.countStale.calm = s.calm := rfl

/-! ### The queues -/

@[simp] theorem calm_markOvertaken (i : Nat) (c : LinkCmd) (s : State) : (markOvertaken i c s).calm = s.calm := by
  unfold markOvertaken; split
  · exact calm_setExchange s _ fun _ => rfl
  · rfl

@[simp] theorem calm_place (i : Nat) (c : LinkCmd) (s : State) : (place i c s).calm = s.calm := by
  unfold place; split <;> simp

@[simp] theorem calm_dropCommands (i : Nat) (h : Handle) (s : State) : (dropCommands i h s).calm = s.calm := rfl
@[simp] theorem calm_dropOffer (i : Nat) (h : Handle) (s : State) : (dropOffer i h s).calm = s.calm := rfl
@[simp] theorem calm_emptyQueue (i : Nat) (s : State) : (emptyQueue i s).calm = s.calm := rfl

/-! ### The arbiter -/

@[simp] theorem calm_takePower (s : State) (n : Nat) : (takePower s n).calm = s.calm := rfl

@[simp] theorem calm_stopTrial (s : State) : (stopTrial s).calm = s.calm := by
  simp only [stopTrial]; repeat' split
  all_goals simp

@[simp] theorem calm_removeExcess (s : State) : (removeExcess s).calm = s.calm := by
  have h := foldl_calm takePower calm_takePower s.removalOrder s
  simp only [removeExcess]; split <;> simp [h]

@[simp] theorem calm_givePower (s : State) (n : Nat) : (givePower s n).calm = s.calm := by
  simp only [givePower]; repeat' split
  all_goals simp

@[simp] theorem calm_restorePower (s : State) : (restorePower s).calm = s.calm :=
  foldl_calm givePower calm_givePower _ s

@[simp] theorem calm_followEntitlement (s : State) (n : Nat) : (followEntitlement s n).calm = s.calm := rfl

@[simp] theorem calm_followDemand (b s : State) (n : Nat) : (followDemand b s n).calm = s.calm := by
  unfold followDemand; repeat' split
  all_goals simp

@[simp] theorem calm_enterRate (b s : State) (n : Nat) : (enterRate b s n).calm = s.calm := by simp [enterRate]

@[simp] theorem calm_publishRate (b s : State) (n : Nat) : (publishRate b s n).calm = s.calm := by
  unfold publishRate; repeat' split
  · rfl
  · dsimp only
    split <;> simp

@[simp] theorem calm_settle (b s : State) : (settle b s).calm = s.calm := by
  simp only [settle]
  rw [foldl_calm _ (calm_publishRate b), calm_restorePower]
  split <;> simp [foldl_calm _ (calm_followDemand b), foldl_calm _ calm_followEntitlement]

@[simp] theorem calm_freeRates (b s : State) : (freeRates b s).calm = s.calm := by
  simp only [freeRates]
  rw [foldl_calm _ (calm_followDemand b), foldl_calm _ calm_followEntitlement]

@[simp] theorem calm_settling (f : State → State) (s : State) : (settling f s).calm = (f s).calm := by simp [settling]

/-! ### The lease table -/

@[simp] theorem calm_putLease (n : Nat) (l : Lease) (s : State) : (putLease n l s).calm = s.calm := rfl

@[simp] theorem calm_beginRevoking (n : Nat) (l : Lease) (r : LeaseOutcome) (s : State) :
    (beginRevoking n l r s).calm = s.calm := by simp [beginRevoking]

@[simp] theorem calm_beginFinishing (n : Nat) (s : State) : (beginFinishing n s).calm = s.calm := rfl

@[simp] theorem calm_endZeroHold (n : Nat) (s : State) : (endZeroHold n s).calm = s.calm := by
  unfold endZeroHold; repeat' split
  all_goals simp

@[simp] theorem calm_recharge (n : Nat) (s : State) : (recharge n s).calm = s.calm := by
  unfold recharge
  extract_lets s1
  have h : s1.calm = s.calm := calm_settling _ s
  clear_value s1
  split <;> simp [h]

@[simp] theorem calm_testFinishing (n : Nat) (s : State) : (testFinishing n s).calm = s.calm := by
  unfold testFinishing; repeat' split
  all_goals simp

@[simp] theorem calm_testFinishingUnlessSanitise (n : Nat) (s : State) :
    (testFinishingUnlessSanitise n s).calm = s.calm := by
  unfold testFinishingUnlessSanitise; split <;> simp

@[simp] theorem calm_beginSuspension (s : State) (n : Nat) : (beginSuspension s n).calm = s.calm := by
  unfold beginSuspension; split <;> simp

@[simp] theorem calm_beginResumption (s : State) (n : Nat) : (beginResumption s n).calm = s.calm := by
  simp only [beginResumption]; repeat' split
  all_goals simp

@[simp] theorem calm_announceResume (s : State) (n : Nat) : (announceResume s n).calm = s.calm := by
  unfold announceResume; repeat' split
  all_goals simp

@[simp] theorem calm_actOnOverlap (b s : State) : (actOnOverlap b s).calm = s.calm := by
  simp only [actOnOverlap]
  rw [foldl_calm _ fun s n => calm_testFinishing n s, foldl_calm _ calm_announceResume, calm_settle,
    foldl_calm _ calm_beginResumption, foldl_calm _ calm_beginSuspension]

@[simp] theorem calm_testOverlap (s : State) : (testOverlap s).calm = s.calm := by
  unfold testOverlap; split <;> simp

@[simp] theorem calm_resettle (b s : State) : (resettle b s).calm = s.calm := by
  simp only [resettle]; split <;> simp

@[simp] theorem calm_testShrunk (b s : State) (n : Nat) : (testShrunk b s n).calm = s.calm := by
  unfold testShrunk; split <;> simp

@[simp] theorem calm_afterRemovals (b s : State) : (afterRemovals b s).calm = s.calm := by
  simp only [afterRemovals]
  rw [foldl_calm _ (calm_testShrunk b), calm_resettle]

@[simp] theorem calm_callOffTrial (s : State) : (callOffTrial s).calm = s.calm := by simp [callOffTrial]

@[simp] theorem calm_stopTrialOf (i : Nat) (s : State) : (stopTrialOf i s).calm = s.calm := by
  unfold stopTrialOf; split <;> simp

@[simp] theorem calm_announceHandover (b s : State) (n : Nat) : (announceHandover b s n).calm = s.calm := by
  unfold announceHandover; repeat' split
  all_goals simp

@[simp] theorem calm_callOffTrialOf (i : Nat) (s : State) : (callOffTrialOf i s).calm = s.calm := by
  unfold callOffTrialOf; split <;> simp

@[simp] theorem calm_callOffEvicted (s : State) : (callOffEvicted s).calm = s.calm := by
  unfold callOffEvicted; repeat' split
  all_goals simp

/-- What closes a step leaves the map, the book, coverage, the entries, the loop, the monitor, the clock and the port
alone. -/
@[simp] theorem calm_closing (s : State) : (closing s).calm = s.calm := by simp [closing]

@[simp] theorem calm_startTrial (i : Nat) (s : State) : (startTrial i s).calm = s.calm := by simp [startTrial]

@[simp] theorem calm_tryTrial (s : State) : (tryTrial s).calm = s.calm := by
  unfold tryTrial; repeat' split
  all_goals simp

@[simp] theorem calm_callOffHotTrial (s : State) : (callOffHotTrial s).calm = s.calm := by
  unfold callOffHotTrial; split <;> simp

@[simp] theorem calm_followInlet (s : State) : (followInlet s).calm = s.calm := by
  unfold followInlet; split <;> simp

/-! ### Station answers -/

@[simp] theorem calm_noteRunning (n rate : Nat) (s : State) : (noteRunning n rate s).calm = s.calm := rfl

@[simp] theorem calm_admitLease (i n rate : Nat) (s : State) : (admitLease i n rate s).calm = s.calm := by
  unfold admitLease
  extract_lets h s1 s2 s3
  have h2 : s2.calm = s.calm := by simp [s2, s1]
  clear_value s2
  have h3 : s3.calm = s.calm := by
    simp only [s3]; repeat' split
    all_goals simp [h2]
  simp [h3]

@[simp] theorem calm_takeAccept (i : Nat) (h : Handle) (rate : Nat) (s : State) :
    (takeAccept i h rate s).calm = s.calm := by
  unfold takeAccept; repeat' split
  all_goals simp

@[simp] theorem calm_modOwn (i : Nat) (h : Handle) (f : Lease → Lease) (s : State) :
    (modOwn i h f s).calm = s.calm := by
  unfold modOwn; split <;> simp

@[simp] theorem calm_beginWindow (i : Nat) (s : State) : (beginWindow i s).calm = s.calm := rfl

@[simp] theorem calm_takeAck (i : Nat) (c : LinkCmd) (s : State) : (takeAck i c s).calm = s.calm := by
  unfold takeAck; repeat' split
  all_goals simp

@[simp] theorem calm_suspendAgain (i n : Nat) (s : State) : (suspendAgain i n s).calm = s.calm := by
  unfold suspendAgain; repeat' split
  all_goals simp

@[simp] theorem calm_takeChange (i offer : Nat) (s : State) : (takeChange i offer s).calm = s.calm := by
  unfold takeChange; repeat' split
  all_goals simp

@[simp] theorem calm_keepSupply (i : Nat) (x : Temp) (s : State) : (keepSupply i x s).calm = s.calm := rfl
@[simp] theorem calm_revokeBelieved (i : Nat) (h : Handle) (s : State) : (revokeBelieved i h s).calm = s.calm := by
  unfold revokeBelieved; split <;> simp
@[simp] theorem calm_recordFlags (i : Nat) (x : Byte) (s : State) : (recordFlags i x s).calm = s.calm := rfl

@[simp] theorem calm_setAside (x : Option Item) (s : State) : (setAside x s).calm = s.calm := by
  unfold setAside; split <;> simp

end Sys2Proof.Machine
end

