-- ==== Sys2Proof/Laws/Table.lean ====
section
/-! SUPPORT. Reading a place of a table of fixed size after writing one. -/

namespace Sys2Proof

variable {α β : Type} {n : Nat}

/-- A place inside a table is that element of it. -/
theorem tget_of_lt (v : Vector α n) (i : Nat) (d : α) (h : i < n) : tget v i d = v[i] := by
  simp [tget, List.getD, h]

/-- A place beyond a table's end is the default. -/
theorem tget_of_le (v : Vector α n) (i : Nat) (d : α) (h : n ≤ i) : tget v i d = d := by
  simp [tget, List.getD, Nat.not_lt.mpr h]

theorem tset_of_le (v : Vector α n) (i : Nat) (x : α) (h : n ≤ i) : tset v i x = v := by
  ext j hj
  simp only [tset, Vector.getElem_setIfInBounds]
  rw [if_neg (by omega)]

/-- The place written reads as written. -/
theorem tget_tset_self (v : Vector α n) (i : Nat) (x d : α) (h : i < n) : tget (tset v i x) i d = x := by
  rw [tget_of_lt _ _ _ h]; simp [tset]

/-- Every other place reads as before. -/
theorem tget_tset_ne (v : Vector α n) (i j : Nat) (x d : α) (h : i ≠ j) : tget (tset v i x) j d = tget v j d := by
  by_cases hj : j < n
  · rw [tget_of_lt _ _ _ hj, tget_of_lt _ _ _ hj]; simp [tset, h]
  · rw [tget_of_le _ _ _ (by omega), tget_of_le _ _ _ (by omega)]

/-- A place written with what it held. -/
theorem tset_tget (v : Vector α n) (i : Nat) (d : α) : tset v i (tget v i d) = v := by
  by_cases hi : i < n
  · rw [tget_of_lt _ _ _ hi]
    ext j hj
    simp only [tset, Vector.getElem_setIfInBounds]
    split
    · next h => subst h; rfl
    · rfl
  · exact tset_of_le _ _ _ (by omega)

/-- A table mapped after a place was written. -/
theorem map_tset (f : α → β) (v : Vector α n) (i : Nat) (x : α) : (tset v i x).map f = tset (v.map f) i (f x) := by
  ext j hj
  simp only [tset, Vector.getElem_map, Vector.getElem_setIfInBounds]
  split <;> rfl

theorem tget_map (f : α → β) (v : Vector α n) (i : Nat) (d : α) : tget (v.map f) i (f d) = f (tget v i d) := by
  by_cases hi : i < n
  · rw [tget_of_lt _ _ _ hi, tget_of_lt _ _ _ hi]; simp
  · rw [tget_of_le _ _ _ (by omega), tget_of_le _ _ _ (by omega)]

/-- Writing a place leaves a mapped table alone where the new content maps to what the old one did. -/
theorem map_tset_self (f : α → β) (v : Vector α n) (i : Nat) (x d : α) (h : f x = f (tget v i d)) :
    (tset v i x).map f = v.map f := by
  rw [map_tset, h, ← tget_map f v i d, tset_tget]

end Sys2Proof
end

