-- ==== Sys2Proof/Laws/Kept.lean ====
section
/-! SUPPORT. Opening, revoking and retiring leases, losing stations and taking their answers: what all of that keeps.
A retirement clears top-up links, starts passes, raises flags and may stop the loop; the rest of the part outside the
lease table, the roster and the link stands as it stood. -/

namespace Sys2Proof.Machine

/-- A record without its top-up link. -/
def Reservation.bare (r : Reservation) : Reservation := { r with topUp := none }

def BookSlot.bare (b : BookSlot) : BookSlot := { b with record := b.record.map Reservation.bare }

/-- What such work keeps. -/
structure Kept where
  map : StratumMap
  slots : Vector BookSlot 24
  starved : Nat
  autoCap : Bool
  params : LoopParams
  valve : Valve
  spacing : Option Nat
  stopPoint : Option Temp
  sanitise : Sanitise
  clock : Clock
  portState : PortState
  ready : Bool
  mask : BitVec 16
  dataOut : List Byte
  desk : Admission
  pending : List Instr

def State.kept (s : State) : Kept :=
  { map := s.map, slots := s.book.slots.map BookSlot.bare, starved := s.book.starved, autoCap := s.roster.autoCap
    params := s.solar.params, valve := s.solar.valve, spacing := s.solar.spacing, stopPoint := s.solar.stopPoint
    sanitise := s.sanitise, clock := s.clock, portState := s.port.state, ready := s.port.ready, mask := s.port.mask
    dataOut := s.port.dataOut, desk := { s.admission.desk with freeHeat := 0 }
    pending := s.pending }

theorem kept_of_calm {s t : State} (h : t.calm = s.calm) : t.kept = s.kept := by
  obtain ⟨h1, h2, -, -, h5, h6, h7, h8, h9, h10, -, h11⟩ := calm_eq_iff.mp h
  simp [State.kept, h1, h2, h5, h6, h7, h8, h9, h10, h11]

theorem foldl_kept {α : Type} (f : State → α → State) (h : ∀ s a, (f s a).kept = s.kept) (l : List α) (s : State) :
    (l.foldl f s).kept = s.kept := foldl_keeps State.kept f h l s

/-! ### Block updates -/

@[simp] theorem kept_setOrder (g : Admission → List Handle) (s : State) :
    (s.modAdmission fun a => { a with order := g a }).kept = s.kept := rfl
@[simp] theorem kept_setFreeHeat (g : Admission → Nat) (s : State) :
    (s.modAdmission fun a => { a with freeHeat := g a }).kept = s.kept := rfl
@[simp] theorem kept_modLink (f : Link → Link) (s : State) : (s.modLink f).kept = s.kept := rfl
@[simp] theorem kept_modCoverage (f : Coverage → Coverage) (s : State) : (s.modCoverage f).kept = s.kept := rfl
@[simp] theorem kept_modEntry (i : Nat) (f : Entry → Entry) (s : State) : (s.modEntry i f).kept = s.kept := rfl
@[simp] theorem kept_setEntry (i : Nat) (e : Entry) (s : State) : (s.setEntry i e).kept = s.kept := rfl
@[simp] theorem kept_modLease (n : Nat) (f : Lease → Lease) (s : State) : (s.modLease n f).kept = s.kept := rfl
@[simp] theorem kept_setLeaseSlot (n : Nat) (x : LeaseSlot) (s : State) : (s.setLeaseSlot n x).kept = s.kept := rfl
@[simp] theorem kept_modStation (i : Nat) (f : Station → Station) (s : State) : (s.modStation i f).kept = s.kept := rfl
@[simp] theorem kept_setTrial (x : Option Trial) (s : State) :
    (s.modRoster fun r => { r with trial := x }).kept = s.kept := rfl
@[simp] theorem kept_raise (e : EventFlag) (s : State) : (s.raise e).kept = s.kept := rfl
@[simp] theorem kept_raiseIf (c : Bool) (e : EventFlag) (s : State) : (s.raiseIf c e).kept = s.kept := by
  cases c <;> rfl
@[simp] theorem kept_bump (s : State) : s.bump.kept = s.kept := rfl
@[simp] theorem kept_countStale (s : State) : s.countStale.kept = s.kept := rfl
@[simp] theorem kept_dropCommands (i : Nat) (h : Handle) (s : State) : (dropCommands i h s).kept = s.kept := rfl
@[simp] theorem kept_dropOffer (i : Nat) (h : Handle) (s : State) : (dropOffer i h s).kept = s.kept := rfl
@[simp] theorem kept_emptyQueue (i : Nat) (s : State) : (emptyQueue i s).kept = s.kept := rfl

/-- A record's top-up link set or cleared. -/
theorem kept_modRecord (n : Nat) (f : Reservation → Reservation) (hf : ∀ r, (f r).bare = r.bare) (s : State) :
    (s.modRecord n f).kept = s.kept := by
  have h : (tset s.book.slots (n - 1) { s.bookSlot n with record := (s.record? n).map f }).map BookSlot.bare =
      s.book.slots.map BookSlot.bare := by
    apply map_tset_self BookSlot.bare s.book.slots (n - 1) _ .initial
    change BookSlot.bare { s.bookSlot n with record := (s.bookSlot n).record.map f } = BookSlot.bare (s.bookSlot n)
    rcases s.bookSlot n with ⟨i, _ | r⟩ <;> simp [BookSlot.bare, hf]
  unfold State.modRecord State.setBookSlot
  simp only [State.kept, modBook_book, modBook_map, modBook_roster, modBook_solar, modBook_sanitise, modBook_clock,
    modBook_port, modBook_pending, modBook_admission]
  rw [h]

@[simp] theorem kept_clearTopUp (h : Handle) (s : State) : (clearTopUp h s).kept = s.kept := by
  unfold clearTopUp; split
  · apply kept_modRecord; intro r; rfl
  · rfl

@[simp] theorem kept_setTopUp (h l : Handle) (s : State) : (setTopUp h l s).kept = s.kept := by
  apply kept_modRecord; intro r; rfl

/-! ### Calm work -/

@[simp] theorem kept_place (i : Nat) (c : LinkCmd) (s : State) : (place i c s).kept = s.kept :=
  kept_of_calm (calm_place i c s)
@[simp] theorem kept_settle (b s : State) : (settle b s).kept = s.kept := kept_of_calm (calm_settle b s)
@[simp] theorem kept_settling (f : State → State) (s : State) : (settling f s).kept = (f s).kept := by simp [settling]
@[simp] theorem kept_putLease (n : Nat) (l : Lease) (s : State) : (putLease n l s).kept = s.kept :=
  kept_of_calm (calm_putLease n l s)
@[simp] theorem kept_beginRevoking (n : Nat) (l : Lease) (r : LeaseOutcome) (s : State) :
    (beginRevoking n l r s).kept = s.kept := kept_of_calm (calm_beginRevoking n l r s)
@[simp] theorem kept_testFinishing (n : Nat) (s : State) : (testFinishing n s).kept = s.kept :=
  kept_of_calm (calm_testFinishing n s)
@[simp] theorem kept_testFinishingUnlessSanitise (n : Nat) (s : State) :
    (testFinishingUnlessSanitise n s).kept = s.kept := kept_of_calm (calm_testFinishingUnlessSanitise n s)
@[simp] theorem kept_testOverlap (s : State) : (testOverlap s).kept = s.kept := kept_of_calm (calm_testOverlap s)
@[simp] theorem kept_callOffTrial (s : State) : (callOffTrial s).kept = s.kept := kept_of_calm (calm_callOffTrial s)
@[simp] theorem kept_callOffTrialOf (i : Nat) (s : State) : (callOffTrialOf i s).kept = s.kept :=
  kept_of_calm (calm_callOffTrialOf i s)
@[simp] theorem kept_closing (s : State) : (closing s).kept = s.kept := kept_of_calm (calm_closing s)
@[simp] theorem kept_stopTrial (s : State) : (stopTrial s).kept = s.kept := kept_of_calm (calm_stopTrial s)
@[simp] theorem kept_stopTrialOf (i : Nat) (s : State) : (stopTrialOf i s).kept = s.kept :=
  kept_of_calm (calm_stopTrialOf i s)
@[simp] theorem kept_resettle (b s : State) : (resettle b s).kept = s.kept := kept_of_calm (calm_resettle b s)
@[simp] theorem kept_afterRemovals (b s : State) : (afterRemovals b s).kept = s.kept :=
  kept_of_calm (calm_afterRemovals b s)
@[simp] theorem kept_announceHandover (b s : State) (n : Nat) : (announceHandover b s n).kept = s.kept :=
  kept_of_calm (calm_announceHandover b s n)
@[simp] theorem kept_tryTrial (s : State) : (tryTrial s).kept = s.kept := kept_of_calm (calm_tryTrial s)
@[simp] theorem kept_callOffHotTrial (s : State) : (callOffHotTrial s).kept = s.kept :=
  kept_of_calm (calm_callOffHotTrial s)
@[simp] theorem kept_followInlet (s : State) : (followInlet s).kept = s.kept := kept_of_calm (calm_followInlet s)
@[simp] theorem kept_takeAccept (i : Nat) (h : Handle) (rate : Nat) (s : State) :
    (takeAccept i h rate s).kept = s.kept := kept_of_calm (calm_takeAccept i h rate s)
@[simp] theorem kept_takeAck (i : Nat) (c : LinkCmd) (s : State) : (takeAck i c s).kept = s.kept :=
  kept_of_calm (calm_takeAck i c s)
@[simp] theorem kept_takeChange (i offer : Nat) (s : State) : (takeChange i offer s).kept = s.kept :=
  kept_of_calm (calm_takeChange i offer s)
@[simp] theorem kept_suspendAgain (i n : Nat) (s : State) : (suspendAgain i n s).kept = s.kept :=
  kept_of_calm (calm_suspendAgain i n s)
@[simp] theorem kept_keepSupply (i : Nat) (x : Temp) (s : State) : (keepSupply i x s).kept = s.kept := rfl
@[simp] theorem kept_revokeBelieved (i : Nat) (h : Handle) (s : State) : (revokeBelieved i h s).kept = s.kept :=
  kept_of_calm (calm_revokeBelieved i h s)
@[simp] theorem kept_recordFlags (i : Nat) (x : Byte) (s : State) : (recordFlags i x s).kept = s.kept := rfl
@[simp] theorem kept_setAside (x : Option Item) (s : State) : (setAside x s).kept = s.kept :=
  kept_of_calm (calm_setAside x s)

/-! ### Passes -/

@[simp] theorem kept_passStart (s : State) : (passStart s).kept = s.kept := by
  unfold passStart; repeat' split
  all_goals rfl

@[simp] theorem kept_noteEligible (b s : State) : (noteEligible b s).kept = s.kept := by
  unfold noteEligible; split <;> simp

@[simp] theorem kept_exceptRecord (n : Nat) (s : State) : (exceptRecord n s).kept = s.kept := rfl

@[simp] theorem kept_endPass (s : State) : (endPass s).kept = s.kept := by
  simp only [endPass]; split <;> simp

/-! ### Opening, revoking, retiring -/

theorem kept_openOffered {l : Lease} {s t : State} {h : Handle} (e : openOffered l s = some (h, t)) :
    t.kept = s.kept := by
  unfold openOffered at e
  split at e
  · cases e
  · dsimp only at e
    split at e
    · cases e
    · cases e; simp

@[simp] theorem kept_openSolar (s : State) : (openSolar s).kept = s.kept := by
  unfold openSolar; split
  · rfl
  · simp only [kept_setOrder, kept_modLease, kept_putLease]

@[simp] theorem kept_stopLoop (st : LoopState) (s : State) : (stopLoop st s).kept = s.kept := rfl

@[simp] theorem kept_tellOwner (k : LeaseKind) (out : LeaseOutcome) (s : State) :
    (tellOwner k out s).kept = s.kept := by
  unfold tellOwner; repeat' split
  · simp
  all_goals rfl

@[simp] theorem kept_freeLease (n : Nat) (l : Lease) (out : LeaseOutcome) (s : State) :
    (freeLease n l out s).kept = s.kept := rfl

/-- A retirement keeps what `Kept` holds (R84). -/
@[simp] theorem kept_dismiss (n : Nat) (out : LeaseOutcome) (s : State) : (dismiss n out s).kept = s.kept := by
  unfold dismiss; split
  · rfl
  · simp only [kept_tellOwner, kept_raise, kept_noteEligible, kept_freeLease]
    exact foldl_kept _ (by simp) _ s

@[simp] theorem kept_retire (n : Nat) (out : LeaseOutcome) (s : State) : (retire n out s).kept = s.kept := by
  unfold retire; split <;> simp

@[simp] theorem kept_beginEnding (n : Nat) (r : LeaseOutcome) (s : State) : (beginEnding n r s).kept = s.kept := by
  unfold beginEnding; repeat' split
  all_goals simp

@[simp] theorem kept_sendRevoking (n : Nat) (r : LeaseOutcome) (s : State) : (sendRevoking n r s).kept = s.kept := by
  unfold sendRevoking; repeat' split
  all_goals simp

@[simp] theorem kept_credit (n e : Nat) (s : State) : (credit n e s).kept = s.kept := by
  simp only [credit]; repeat' split
  all_goals simp

@[simp] theorem kept_removeServed (l r : Handle) (s : State) : (removeServed l r s).kept = s.kept := by
  simp only [removeServed]; repeat' split
  all_goals simp

@[simp] theorem kept_removeTopUp (n : Nat) (s : State) : (removeTopUp n s).kept = s.kept := by
  unfold removeTopUp; split
  · rfl
  · rw [kept_removeServed]; apply kept_modRecord; intro r; rfl

@[simp] theorem kept_leaveTopUp (n : Nat) (s : State) : (leaveTopUp n s).kept = s.kept := by
  unfold leaveTopUp; split <;> simp

@[simp] theorem kept_moveLease (n : Nat) (l : Lease) (i : Nat) (b : Option Nat) (s : State) :
    (moveLease n l i b s).kept = s.kept := by simp [moveLease]

@[simp] theorem kept_handOverOrEnd (n : Nat) (l : Lease) (s : State) : (handOverOrEnd n l s).kept = s.kept := by
  unfold handOverOrEnd; repeat' split
  all_goals simp

@[simp] theorem kept_endLost (n : Nat) (l : Lease) (s : State) : (endLost n l s).kept = s.kept := by
  unfold endLost; repeat' split
  all_goals simp

@[simp] theorem kept_dealWithLost (s : State) (i : Nat) : (dealWithLost s i).kept = s.kept := by
  unfold dealWithLost; repeat' split
  all_goals simp

/-! ### Top-up decisions -/

@[simp] theorem kept_join (n : Nat) (h : Handle) (x : Temp) (d : Nat) (s : State) : (join n h x d s).kept = s.kept := by
  unfold join
  extract_lets s1
  have h1 : s1.kept = s.kept := by simp [s1]
  clear_value s1
  split <;> simp [h1]

@[simp] theorem kept_openTopUp (i : Nat) (h : Handle) (x : Temp) (d : Nat) (s : State) :
    (openTopUp i h x d s).kept = s.kept := by
  unfold openTopUp; repeat' split
  · rfl
  · next e => rw [kept_setTopUp, kept_openOffered e]
  · rfl

theorem kept_decideTopUp (p : Pass) (acc : State × Bool) (r : PassRecord × Verdict) :
    (decideTopUp p acc r).1.kept = acc.1.kept := by
  simp only [decideTopUp]; repeat' split
  all_goals simp

/-! ### The roster -/

@[simp] theorem kept_succeedTrial (i : Nat) (s : State) : (succeedTrial i s).kept = s.kept := by
  simp [succeedTrial]

@[simp] theorem kept_reportToTrial (t : Trial) (e : Nat) (s : State) : (reportToTrial t e s).kept = s.kept := by
  simp only [reportToTrial]; split <;> simp

@[simp] theorem kept_countFailure (i : Nat) (s : State) : (countFailure i s).kept = s.kept := by
  simp only [countFailure]; split <;> simp

@[simp] theorem kept_failTrial (t : Trial) (s : State) : (failTrial t s).kept = s.kept := by simp [failTrial]

@[simp] theorem kept_markLost (s : State) (i : Nat) : (markLost s i).kept = s.kept := by simp [markLost]

@[simp] theorem kept_startForLost (b s : State) (i : Nat) : (startForLost b s i).kept = s.kept := by
  unfold startForLost; split <;> simp

@[simp] theorem kept_dealWithLeases (l : List Nat) (s : State) : (dealWithLeases l s).kept = s.kept := by
  simp only [dealWithLeases]
  rw [foldl_kept _ (kept_announceHandover s), kept_resettle, foldl_kept _ kept_dealWithLost]

/-- The loss of stations, with all that becomes of their leases (R128). -/
@[simp] theorem kept_loseEntries (l : List Nat) (s : State) : (loseEntries l s).kept = s.kept := by
  unfold loseEntries; split
  · rfl
  · rw [foldl_kept _ fun t i => kept_startForLost s t i, kept_raise, kept_dealWithLeases, foldl_kept _ kept_markLost]

@[simp] theorem kept_countMiss (i : Nat) (s : State) : (countMiss i s).kept = s.kept := by
  simp only [countMiss]; split <;> simp

@[simp] theorem kept_countGood (i : Nat) (s : State) : (countGood i s).kept = s.kept := rfl
@[simp] theorem kept_countBadIdentity (s : State) : (countBadIdentity s).kept = s.kept := rfl
@[simp] theorem kept_pairEntries (i j : Nat) (s : State) : (pairEntries i j s).kept = s.kept := rfl

@[simp] theorem kept_pairIfBase (i a : Nat) (d : Identity) (s : State) : (pairIfBase i a d s).kept = s.kept := by
  unfold pairIfBase; repeat' split
  all_goals simp

@[simp] theorem kept_takeDualMark (i a : Nat) (d : Identity) (s : State) : (takeDualMark i a d s).kept = s.kept := by
  unfold takeDualMark; repeat' split
  all_goals simp

@[simp] theorem kept_fillEntry (i a : Nat) (c : SourceClass) (d : Identity) (s : State) :
    (fillEntry i a c d s).kept = s.kept := by simp [fillEntry]

@[simp] theorem kept_createEntry (a : Nat) (c : SourceClass) (d : Identity) (s : State) :
    (createEntry a c d s).kept = s.kept := by
  unfold createEntry; split <;> simp

@[simp] theorem kept_reattach (i a : Nat) (c : SourceClass) (d : Identity) (s : State) :
    (reattach i a c d s).kept = s.kept := by
  unfold reattach; split <;> simp

@[simp] theorem kept_dissolvePair (i : Nat) (s : State) : (dissolvePair i s).kept = s.kept := by
  unfold dissolvePair; split <;> simp

@[simp] theorem kept_reidentify (i a : Nat) (c : SourceClass) (d : Identity) (s : State) :
    (reidentify i a c d s).kept = s.kept := by simp [reidentify]

@[simp] theorem kept_confirmIdentity (i a : Nat) (d : Identity) (s : State) :
    (confirmIdentity i a d s).kept = s.kept := by simp [confirmIdentity]

@[simp] theorem kept_takeIdentity (a : Nat) (d : Identity) (s : State) : (takeIdentity a d s).kept = s.kept := by
  unfold takeIdentity; repeat' split
  all_goals simp

@[simp] theorem kept_forgetEntry (s : State) (i : Nat) : (forgetEntry s i).kept = s.kept := by simp [forgetEntry]

@[simp] theorem kept_forgetEntries (l : List Nat) (s : State) : (forgetEntries l s).kept = s.kept := by
  unfold forgetEntries
  rw [foldl_kept _ fun t i => kept_startForLost s t i, foldl_kept _ kept_forgetEntry]

@[simp] theorem kept_takeLearnedStep (i : Nat) (s : State) : (takeLearnedStep i s).kept = s.kept := by
  simp [takeLearnedStep]

@[simp] theorem kept_noteLimited (n : Nat) (b : Bool) (s : State) : (noteLimited n b s).kept = s.kept := by
  unfold noteLimited; repeat' split
  all_goals simp

/-! ### Station answers -/

@[simp] theorem kept_setCooldown (i : Nat) (s : State) : (setCooldown i s).kept = s.kept := by
  unfold setCooldown; split <;> simp

@[simp] theorem kept_confirmLease (n e : Nat) (s : State) : (confirmLease n e s).kept = s.kept := by
  simp [confirmLease]

@[simp] theorem kept_takeDecline (i : Nat) (h : Handle) (s : State) : (takeDecline i h s).kept = s.kept := by
  unfold takeDecline; repeat' split
  all_goals simp [declineLease]

@[simp] theorem kept_endByStation (i n e : Nat) (s : State) : (endByStation i n e s).kept = s.kept := by
  unfold endByStation; repeat' split
  all_goals simp

@[simp] theorem kept_takeEnding (i : Nat) (h : Handle) (e : Nat) (s : State) : (takeEnding i h e s).kept = s.kept := by
  unfold takeEnding; split <;> simp

@[simp] theorem kept_takeRequest (i offer : Nat) (s : State) : (takeRequest i offer s).kept = s.kept := by
  unfold takeRequest; repeat' split
  · simp
  · rfl
  · next e => exact kept_openOffered e

@[simp] theorem kept_creditReport (i n e : Nat) (b : Bool) (s : State) : (creditReport i n e b s).kept = s.kept := by
  simp [creditReport]

@[simp] theorem kept_takeReport (i e : Nat) (x : Temp) (b : Bool) (s : State) :
    (takeReport i e x b s).kept = s.kept := by
  simp only [takeReport]; repeat' split
  all_goals simp

@[simp] theorem kept_routeItem (i : Nat) (x : Item) (s : State) : (routeItem i x s).kept = s.kept := by
  unfold routeItem; split <;> simp

@[simp] theorem kept_checkHandle (i : Nat) (h : Option Handle) (s : State) : (checkHandle i h s).kept = s.kept := by
  unfold checkHandle; repeat' split
  all_goals simp

@[simp] theorem kept_leaveIdentifying (i : Nat) (s : State) : (leaveIdentifying i s).kept = s.kept := by
  unfold leaveIdentifying; repeat' split
  all_goals simp

@[simp] theorem kept_takeStatus (i : Nat) (x : Byte) (h : Option Handle) (m : Option Item) (s : State) :
    (takeStatus i x h m s).kept = s.kept := by
  unfold takeStatus; split
  · simp
  · dsimp only; split <;> simp

end Sys2Proof.Machine
end

