-- ==== Sys2Proof/Laws/Grows.lean ====
section
/-! SUPPORT. What is raised stays raised and a pass in flight stays in flight, through all the shared work of the lease
table, the roster, the link and the loop (R41, R176). -/

namespace Sys2Proof.Machine

/-- A flag is set where its bit is. -/
theorem flag_bit (v : BitVec 16) (f : EventFlag) : (v &&& f.one != 0#16) = v.getLsbD f.bit := by
  have h : f.bit < 16 := by cases f <;> decide
  unfold EventFlag.one
  generalize f.bit = k at h
  rw [Bool.eq_iff_iff]
  simp only [bne_iff_ne, ne_eq]
  constructor
  · intro hne
    by_contra hb
    apply hne
    apply BitVec.eq_of_getLsbD_eq
    intro i hi
    simp only [BitVec.getLsbD_and, BitVec.getLsbD_shiftLeft, BitVec.getLsbD_zero, BitVec.getLsbD_one]
    by_cases hk : i = k
    · subst hk; simp [hb]
    · simp; intro _ _ _; omega
  · intro hb h0
    have := congrArg (fun x => x.getLsbD k) h0
    simp [h] at this
    rw [BitVec.getLsbD_eq_getElem h] at hb
    rw [this] at hb; cases hb

/-- Raising a flag sets it and leaves the others as they were (R176). -/
theorem flagged_raise (s : State) (f g : EventFlag) : (s.raise f).flagged g = (g == f || s.flagged g) := by
  simp only [State.flagged, State.raise, State.modPort, flag_bit, BitVec.getLsbD_or]
  rw [Bool.or_comm]; congr 1
  rw [← flag_bit]; cases f <;> cases g <;> decide

/-- A mark that stands: an event flag is set, or, for `none`, a pass is in flight. -/
def State.marked (e : Option EventFlag) (s : State) : Prop :=
  match e with
  | some f => s.flagged f = true
  | none => s.coverage.pass.isSome = true

variable {e : Option EventFlag} {s t : State}

theorem marked_of_eq (hp : t.port = s.port) (hc : t.coverage = s.coverage) (h : s.marked e) : t.marked e := by
  cases e <;> simpa [State.marked, State.flagged, hp, hc] using h

theorem marked_of_calm (hc : t.calm = s.calm) (h : s.marked e) : t.marked e := by
  obtain ⟨-, -, h3, -, -, -, -, -, h9, -⟩ := calm_eq_iff.mp hc
  exact marked_of_eq h9 h3 h

theorem foldl_marked {α : Type} (f : State → α → State) (hf : ∀ s a, s.marked e → (f s a).marked e) (l : List α)
    (s : State) (h : s.marked e) : (l.foldl f s).marked e := by
  induction l generalizing s with
  | nil => exact h
  | cons a l ih => exact ih _ (hf s a h)

/-! ### Block updates -/

@[simp] theorem marked_raise (f : EventFlag) (h : s.marked e) : (s.raise f).marked e := by
  cases e with
  | none => exact h
  | some g => simp only [State.marked] at h ⊢; rw [flagged_raise, h, Bool.or_true]

theorem raised (f : EventFlag) : (s.raise f).flagged f = true := by simp [flagged_raise]

@[simp] theorem marked_raiseIf (c : Bool) (f : EventFlag) (h : s.marked e) : (s.raiseIf c f).marked e := by
  cases c
  · exact h
  · exact marked_raise f h

/-- A pass start leaves a pass in flight in flight (R40, R41). -/
@[simp] theorem marked_passStart (h : s.marked e) : (passStart s).marked e := by
  unfold passStart; repeat' split
  all_goals cases e <;> first | exact h | rfl

/-- Under a VALID map a pass start leaves a pass in flight (R40, R41). -/
theorem passStart_inFlight (h : s.map.valid = true) : (passStart s).coverage.pass.isSome = true := by
  unfold passStart; rw [if_pos h]; split
  · rfl
  · next e => exact e ▸ rfl

@[simp] theorem marked_noteEligible (b : State) (h : s.marked e) : (noteEligible b s).marked e := by
  unfold noteEligible; split
  · exact h
  · exact marked_passStart h

@[simp] theorem marked_exceptRecord (n : Nat) (h : s.marked e) : (exceptRecord n s).marked e := by
  cases e with
  | some f => exact h
  | none =>
    simp only [State.marked] at h ⊢
    simpa [exceptRecord] using h

/-- The end of a pass leaves every flag. -/
theorem flagged_endPass (f : EventFlag) (h : s.flagged f = true) : (endPass s).flagged f = true := by
  simp only [endPass]; split
  · exact marked_passStart (e := some f) h
  · exact h

@[simp] theorem marked_modMap (f : StratumMap → StratumMap) (h : s.marked e) : (s.modMap f).marked e :=
  marked_of_eq rfl rfl h

@[simp] theorem marked_modBook (f : Book → Book) (h : s.marked e) : (s.modBook f).marked e :=
  marked_of_eq rfl rfl h

@[simp] theorem marked_modAdmission (f : Admission → Admission) (h : s.marked e) : (s.modAdmission f).marked e :=
  marked_of_eq rfl rfl h

@[simp] theorem marked_modRoster (f : Roster → Roster) (h : s.marked e) : (s.modRoster f).marked e :=
  marked_of_eq rfl rfl h

@[simp] theorem marked_modLink (f : Link → Link) (h : s.marked e) : (s.modLink f).marked e :=
  marked_of_eq rfl rfl h

@[simp] theorem marked_modSolar (f : Solar → Solar) (h : s.marked e) : (s.modSolar f).marked e :=
  marked_of_eq rfl rfl h

@[simp] theorem marked_modSanitise (f : Sanitise → Sanitise) (h : s.marked e) : (s.modSanitise f).marked e :=
  marked_of_eq rfl rfl h

@[simp] theorem marked_modEntry (i : Nat) (f : Entry → Entry) (h : s.marked e) : (s.modEntry i f).marked e :=
  marked_of_eq rfl rfl h

@[simp] theorem marked_setEntry (i : Nat) (x : Entry) (h : s.marked e) : (s.setEntry i x).marked e :=
  marked_of_eq rfl rfl h

@[simp] theorem marked_modLease (n : Nat) (f : Lease → Lease) (h : s.marked e) : (s.modLease n f).marked e :=
  marked_of_eq rfl rfl h

@[simp] theorem marked_setLeaseSlot (n : Nat) (x : LeaseSlot) (h : s.marked e) : (s.setLeaseSlot n x).marked e :=
  marked_of_eq rfl rfl h

@[simp] theorem marked_modStation (i : Nat) (f : Station → Station) (h : s.marked e) : (s.modStation i f).marked e :=
  marked_of_eq rfl rfl h

@[simp] theorem marked_modRecord (n : Nat) (f : Reservation → Reservation) (h : s.marked e) :
    (s.modRecord n f).marked e :=
  marked_of_eq rfl rfl h

@[simp] theorem marked_setBookSlot (n : Nat) (x : BookSlot) (h : s.marked e) : (s.setBookSlot n x).marked e :=
  marked_of_eq rfl rfl h

@[simp] theorem marked_bump (h : s.marked e) : (s.bump).marked e :=
  marked_of_eq rfl rfl h

@[simp] theorem marked_countStale (h : s.marked e) : (s.countStale).marked e :=
  marked_of_eq rfl rfl h

@[simp] theorem marked_dropCommands (i : Nat) (x : Handle) (h : s.marked e) : (dropCommands i x s).marked e :=
  marked_of_eq rfl rfl h

@[simp] theorem marked_dropOffer (i : Nat) (x : Handle) (h : s.marked e) : (dropOffer i x s).marked e :=
  marked_of_eq rfl rfl h

@[simp] theorem marked_emptyQueue (i : Nat) (h : s.marked e) : (emptyQueue i s).marked e :=
  marked_of_eq rfl rfl h

@[simp] theorem marked_setTopUp (x l : Handle) (h : s.marked e) : (setTopUp x l s).marked e :=
  marked_of_eq rfl rfl h

@[simp] theorem marked_freeLease (n : Nat) (l : Lease) (x : LeaseOutcome) (h : s.marked e) :
    (freeLease n l x s).marked e :=
  marked_of_eq rfl rfl h

@[simp] theorem marked_countGood (i : Nat) (h : s.marked e) : (countGood i s).marked e :=
  marked_of_eq rfl rfl h

@[simp] theorem marked_countBadIdentity (h : s.marked e) : (countBadIdentity s).marked e :=
  marked_of_eq rfl rfl h

@[simp] theorem marked_pairEntries (i j : Nat) (h : s.marked e) : (pairEntries i j s).marked e :=
  marked_of_eq rfl rfl h

@[simp] theorem marked_keepSupply (i : Nat) (x : Temp) (h : s.marked e) : (keepSupply i x s).marked e :=
  marked_of_eq rfl rfl h

@[simp] theorem marked_recordFlags (i : Nat) (x : Byte) (h : s.marked e) : (recordFlags i x s).marked e :=
  marked_of_eq rfl rfl h

/-! ### Calm work -/

@[simp] theorem marked_place (i : Nat) (c : LinkCmd) (h : s.marked e) : (place i c s).marked e :=
  marked_of_calm (calm_place i c s) h

@[simp] theorem marked_settle (b : State) (h : s.marked e) : (settle b s).marked e :=
  marked_of_calm (calm_settle b s) h

@[simp] theorem marked_putLease (n : Nat) (l : Lease) (h : s.marked e) : (putLease n l s).marked e :=
  marked_of_calm (calm_putLease n l s) h

@[simp] theorem marked_beginRevoking (n : Nat) (l : Lease) (r : LeaseOutcome) (h : s.marked e) :
    (beginRevoking n l r s).marked e :=
  marked_of_calm (calm_beginRevoking n l r s) h

@[simp] theorem marked_testFinishing (n : Nat) (h : s.marked e) : (testFinishing n s).marked e :=
  marked_of_calm (calm_testFinishing n s) h

@[simp] theorem marked_testFinishingUnlessSanitise (n : Nat) (h : s.marked e) :
    (testFinishingUnlessSanitise n s).marked e :=
  marked_of_calm (calm_testFinishingUnlessSanitise n s) h

@[simp] theorem marked_testOverlap (h : s.marked e) : (testOverlap s).marked e :=
  marked_of_calm (calm_testOverlap s) h

@[simp] theorem marked_stopTrial (h : s.marked e) : (stopTrial s).marked e := marked_of_calm (calm_stopTrial s) h

@[simp] theorem marked_stopTrialOf (i : Nat) (h : s.marked e) : (stopTrialOf i s).marked e :=
  marked_of_calm (calm_stopTrialOf i s) h

@[simp] theorem marked_resettle (b : State) (h : s.marked e) : (resettle b s).marked e :=
  marked_of_calm (calm_resettle b s) h

@[simp] theorem marked_afterRemovals (b : State) (h : s.marked e) : (afterRemovals b s).marked e :=
  marked_of_calm (calm_afterRemovals b s) h

@[simp] theorem marked_announceHandover (b : State) (n : Nat) (h : s.marked e) : (announceHandover b s n).marked e :=
  marked_of_calm (calm_announceHandover b s n) h

@[simp] theorem marked_callOffTrial (h : s.marked e) : (callOffTrial s).marked e :=
  marked_of_calm (calm_callOffTrial s) h

@[simp] theorem marked_callOffTrialOf (i : Nat) (h : s.marked e) : (callOffTrialOf i s).marked e :=
  marked_of_calm (calm_callOffTrialOf i s) h

@[simp] theorem marked_closing (h : s.marked e) : (closing s).marked e :=
  marked_of_calm (calm_closing s) h

@[simp] theorem marked_tryTrial (h : s.marked e) : (tryTrial s).marked e :=
  marked_of_calm (calm_tryTrial s) h

@[simp] theorem marked_callOffHotTrial (h : s.marked e) : (callOffHotTrial s).marked e :=
  marked_of_calm (calm_callOffHotTrial s) h

@[simp] theorem marked_followInlet (h : s.marked e) : (followInlet s).marked e :=
  marked_of_calm (calm_followInlet s) h

@[simp] theorem marked_takeAccept (i : Nat) (x : Handle) (r : Nat) (h : s.marked e) : (takeAccept i x r s).marked e :=
  marked_of_calm (calm_takeAccept i x r s) h

@[simp] theorem marked_takeAck (i : Nat) (c : LinkCmd) (h : s.marked e) : (takeAck i c s).marked e :=
  marked_of_calm (calm_takeAck i c s) h

@[simp] theorem marked_takeChange (i r : Nat) (h : s.marked e) : (takeChange i r s).marked e :=
  marked_of_calm (calm_takeChange i r s) h

@[simp] theorem marked_suspendAgain (i n : Nat) (h : s.marked e) : (suspendAgain i n s).marked e :=
  marked_of_calm (calm_suspendAgain i n s) h

@[simp] theorem marked_revokeBelieved (i : Nat) (x : Handle) (h : s.marked e) : (revokeBelieved i x s).marked e :=
  marked_of_calm (calm_revokeBelieved i x s) h

@[simp] theorem marked_setAside (x : Option Item) (h : s.marked e) : (setAside x s).marked e :=
  marked_of_calm (calm_setAside x s) h

@[simp] theorem marked_settling (f : State → State) (h : (f s).marked e) : (settling f s).marked e := by
  unfold settling; exact marked_settle s h

/-! ### Opening, revoking, retiring -/

theorem marked_openOffered {l : Lease} {x : Handle} (he : openOffered l s = some (x, t)) (h : s.marked e) : t.marked e := by
  unfold openOffered at he
  split at he
  · cases he
  · dsimp only at he
    split at he
    · cases he
    · cases he; simp (maxDischargeDepth := 16) [h]

@[simp] theorem marked_openSolar (h : s.marked e) : (openSolar s).marked e := by
  simp only [openSolar]; repeat' split
  all_goals simp (maxDischargeDepth := 16) [h]

@[simp] theorem marked_stopLoop (x : LoopState) (h : s.marked e) : (stopLoop x s).marked e := by
  simp (maxDischargeDepth := 16) [stopLoop, h]

@[simp] theorem marked_tellOwner (k : LeaseKind) (x : LeaseOutcome) (h : s.marked e) : (tellOwner k x s).marked e := by
  simp only [tellOwner]; repeat' split
  all_goals simp (maxDischargeDepth := 16) [h]

@[simp] theorem marked_clearTopUp (x : Handle) (h : s.marked e) : (clearTopUp x s).marked e := by
  simp only [clearTopUp]; repeat' split
  all_goals simp (maxDischargeDepth := 16) [h]

/-- A retirement (R84). -/
@[simp] theorem marked_dismiss (n : Nat) (x : LeaseOutcome) (h : s.marked e) : (dismiss n x s).marked e := by
  unfold dismiss; split
  · exact h
  · next l _ =>
    have h1 : (l.serve.foldl (fun t r => passStart (clearTopUp r t)) s).marked e :=
      foldl_marked _ (fun s a h => by simp [h]) _ s h
    simp (maxDischargeDepth := 16) [h1]

/-- A retirement raises LEASE_RETIRED (R84). -/
theorem dismiss_raises (n : Nat) (x : LeaseOutcome) (h : s.lease? n ≠ none) :
    (dismiss n x s).flagged .leaseRetired = true := by
  unfold dismiss; split
  · contradiction
  · have h1 : ∀ u : State, (u.raise .leaseRetired).marked (some .leaseRetired) := fun u => raised _
    exact marked_tellOwner (e := some .leaseRetired) _ _ (h1 _)

@[simp] theorem marked_retire (n : Nat) (x : LeaseOutcome) (h : s.marked e) : (retire n x s).marked e := by
  unfold retire; split
  · exact h
  · exact marked_resettle s (marked_dismiss n x h)

theorem retire_raises (n : Nat) (x : LeaseOutcome) (h : s.lease? n ≠ none) :
    (retire n x s).flagged .leaseRetired = true := by
  unfold retire; split
  · contradiction
  · exact marked_resettle (e := some .leaseRetired) s (dismiss_raises n x h)

@[simp] theorem marked_beginEnding (n : Nat) (r : LeaseOutcome) (h : s.marked e) : (beginEnding n r s).marked e := by
  simp only [beginEnding]; repeat' split
  all_goals simp (maxDischargeDepth := 16) [h]

@[simp] theorem marked_sendRevoking (n : Nat) (r : LeaseOutcome) (h : s.marked e) : (sendRevoking n r s).marked e := by
  simp only [sendRevoking]; repeat' split
  all_goals simp (maxDischargeDepth := 16) [h]

@[simp] theorem marked_credit (n x : Nat) (h : s.marked e) : (credit n x s).marked e := by
  simp only [credit]; repeat' split
  all_goals simp (maxDischargeDepth := 16) [h]

@[simp] theorem marked_removeServed (l r : Handle) (h : s.marked e) : (removeServed l r s).marked e := by
  simp only [removeServed]; repeat' split
  all_goals simp (maxDischargeDepth := 16) [h]

@[simp] theorem marked_removeTopUp (n : Nat) (h : s.marked e) : (removeTopUp n s).marked e := by
  simp only [removeTopUp]; repeat' split
  all_goals simp (maxDischargeDepth := 16) [h]

@[simp] theorem marked_leaveTopUp (n : Nat) (h : s.marked e) : (leaveTopUp n s).marked e := by
  unfold leaveTopUp; split
  · exact h
  · exact marked_afterRemovals s (marked_removeTopUp n h)

@[simp] theorem marked_moveLease (n : Nat) (l : Lease) (i : Nat) (b : Option Nat) (h : s.marked e) :
    (moveLease n l i b s).marked e := by
  simp (maxDischargeDepth := 16) [moveLease, h]

@[simp] theorem marked_handOverOrEnd (n : Nat) (l : Lease) (h : s.marked e) : (handOverOrEnd n l s).marked e := by
  unfold handOverOrEnd; repeat' split
  all_goals simp (maxDischargeDepth := 16) [h]

@[simp] theorem marked_endLost (n : Nat) (l : Lease) (h : s.marked e) : (endLost n l s).marked e := by
  unfold endLost; repeat' split
  all_goals simp (maxDischargeDepth := 16) [h]

@[simp] theorem marked_dealWithLost (i : Nat) (h : s.marked e) : (dealWithLost s i).marked e := by
  simp only [dealWithLost]; repeat' split
  all_goals simp (maxDischargeDepth := 16) [h]

/-! ### Top-up decisions -/

@[simp] theorem marked_join (n : Nat) (x : Handle) (y : Temp) (d : Nat) (h : s.marked e) :
    (join n x y d s).marked e := by
  unfold join
  extract_lets s1
  have h1 : s1.marked e := by simp (maxDischargeDepth := 16) [s1, h]
  clear_value s1
  split <;> simp (maxDischargeDepth := 16) [h1]

@[simp] theorem marked_openTopUp (i : Nat) (x : Handle) (y : Temp) (d : Nat) (h : s.marked e) :
    (openTopUp i x y d s).marked e := by
  unfold openTopUp; repeat' split
  · exact h
  · next he => exact marked_setTopUp _ _ (marked_openOffered he h)
  · exact h

theorem marked_decideTopUp (p : Pass) (acc : State × Bool) (r : PassRecord × Verdict) (h : acc.1.marked e) :
    (decideTopUp p acc r).1.marked e := by
  simp only [decideTopUp]; repeat' split
  all_goals simp [h]

@[simp] theorem marked_writeVerdict (p : Pass) (r : PassRecord × Verdict) (h : s.marked e) :
    (writeVerdict p s r).marked e := by
  unfold writeVerdict; split
  · exact h
  · simp (maxDischargeDepth := 16) [h]

@[simp] theorem marked_writeClaims (l : Layer) (h : s.marked e) : (writeClaims s l).marked e := marked_of_eq rfl rfl h

/-- The end of a pass leaves every flag that was set. -/
theorem flagged_completePass (p : Pass) (f : EventFlag) (h : s.flagged f = true) : (completePass p s).flagged f = true := by
  have key : ∀ (l : List (PassRecord × Verdict)) (acc : State × Bool), acc.1.marked (some f) →
      (l.foldl (decideTopUp p) acc).1.marked (some f) := by
    intro l
    induction l with
    | nil => exact fun _ h => h
    | cons a l ih => exact fun acc h => ih _ (marked_decideTopUp p acc a h)
  simp only [completePass]
  refine foldl_marked (e := some f) _ (fun s n h => marked_testFinishingUnlessSanitise n h) _ _ (flagged_endPass f (key _ _ ?_))
  refine foldl_marked (e := some f) _ (fun s l h => marked_writeClaims l h) _ _ ?_
  exact foldl_marked (e := some f) _ (fun s r h => marked_writeVerdict p r h) _ _ h

/-! ### The roster -/

@[simp] theorem marked_succeedTrial (i : Nat) (h : s.marked e) : (succeedTrial i s).marked e := by
  simp (maxDischargeDepth := 16) [succeedTrial, h]

@[simp] theorem marked_reportToTrial (x : Trial) (n : Nat) (h : s.marked e) : (reportToTrial x n s).marked e := by
  simp only [reportToTrial]; repeat' split
  all_goals simp (maxDischargeDepth := 16) [h]

@[simp] theorem marked_countFailure (i : Nat) (h : s.marked e) : (countFailure i s).marked e := by
  simp only [countFailure]; repeat' split
  all_goals simp (maxDischargeDepth := 16) [h]

@[simp] theorem marked_failTrial (x : Trial) (h : s.marked e) : (failTrial x s).marked e := by
  simp (maxDischargeDepth := 16) [failTrial, h]

@[simp] theorem marked_markLost (i : Nat) (h : s.marked e) : (markLost s i).marked e := by
  simp (maxDischargeDepth := 16) [markLost, h]

@[simp] theorem marked_startForLost (b : State) (i : Nat) (h : s.marked e) : (startForLost b s i).marked e := by
  simp only [startForLost]; repeat' split
  all_goals simp (maxDischargeDepth := 16) [h]

@[simp] theorem marked_dealWithLeases (l : List Nat) (h : s.marked e) : (dealWithLeases l s).marked e := by
  simp only [dealWithLeases]
  refine foldl_marked _ (fun t n h => marked_announceHandover _ n h) _ _ (marked_resettle _ ?_)
  exact foldl_marked _ (fun s i h => marked_dealWithLost i h) _ _ h

/-- The loss of stations, with all that becomes of their leases (R128). -/
@[simp] theorem marked_loseEntries (l : List Nat) (h : s.marked e) : (loseEntries l s).marked e := by
  unfold loseEntries; split
  · exact h
  · refine foldl_marked _ (fun t i h => marked_startForLost _ i h) _ _ (marked_raise _ (marked_dealWithLeases _ ?_))
    exact foldl_marked _ (fun s i h => marked_markLost i h) _ _ h

@[simp] theorem marked_countMiss (i : Nat) (h : s.marked e) : (countMiss i s).marked e := by
  simp only [countMiss]; repeat' split
  all_goals simp (maxDischargeDepth := 16) [h]

@[simp] theorem marked_pairIfBase (i a : Nat) (d : Identity) (h : s.marked e) : (pairIfBase i a d s).marked e := by
  simp only [pairIfBase]; repeat' split
  all_goals simp (maxDischargeDepth := 16) [h]

@[simp] theorem marked_takeDualMark (i a : Nat) (d : Identity) (h : s.marked e) : (takeDualMark i a d s).marked e := by
  simp only [takeDualMark]; repeat' split
  all_goals simp (maxDischargeDepth := 16) [h]

@[simp] theorem marked_fillEntry (i a : Nat) (c : SourceClass) (d : Identity) (h : s.marked e) :
    (fillEntry i a c d s).marked e := by
  simp (maxDischargeDepth := 16) [fillEntry, h]

@[simp] theorem marked_createEntry (a : Nat) (c : SourceClass) (d : Identity) (h : s.marked e) :
    (createEntry a c d s).marked e := by
  simp only [createEntry]; repeat' split
  all_goals simp (maxDischargeDepth := 16) [h]

@[simp] theorem marked_reattach (i a : Nat) (c : SourceClass) (d : Identity) (h : s.marked e) :
    (reattach i a c d s).marked e := by
  simp only [reattach]; split <;> simp (maxDischargeDepth := 16) [h]

@[simp] theorem marked_dissolvePair (i : Nat) (h : s.marked e) : (dissolvePair i s).marked e := by
  simp only [dissolvePair]; repeat' split
  all_goals simp (maxDischargeDepth := 16) [h]

@[simp] theorem marked_reidentify (i a : Nat) (c : SourceClass) (d : Identity) (h : s.marked e) :
    (reidentify i a c d s).marked e := by
  simp (maxDischargeDepth := 16) [reidentify, h]

@[simp] theorem marked_confirmIdentity (i a : Nat) (d : Identity) (h : s.marked e) :
    (confirmIdentity i a d s).marked e := by
  simp (maxDischargeDepth := 16) [confirmIdentity, h]

@[simp] theorem marked_takeIdentity (a : Nat) (d : Identity) (h : s.marked e) : (takeIdentity a d s).marked e := by
  simp only [takeIdentity]; repeat' split
  all_goals simp (maxDischargeDepth := 16) [h]

@[simp] theorem marked_forgetEntry (i : Nat) (h : s.marked e) : (forgetEntry s i).marked e := by
  simp (maxDischargeDepth := 16) [forgetEntry, h]

@[simp] theorem marked_forgetEntries (l : List Nat) (h : s.marked e) : (forgetEntries l s).marked e := by
  unfold forgetEntries
  refine foldl_marked _ (fun s i h => marked_startForLost _ i h) _ _ ?_
  exact foldl_marked _ (fun s i h => marked_forgetEntry i h) _ _ h

@[simp] theorem marked_takeLearnedStep (i : Nat) (h : s.marked e) : (takeLearnedStep i s).marked e := by
  simp (maxDischargeDepth := 16) [takeLearnedStep, h]

@[simp] theorem marked_noteLimited (n : Nat) (b : Bool) (h : s.marked e) : (noteLimited n b s).marked e := by
  simp only [noteLimited]; repeat' split
  all_goals simp (maxDischargeDepth := 16) [h]

/-! ### Station answers -/

@[simp] theorem marked_setCooldown (i : Nat) (h : s.marked e) : (setCooldown i s).marked e := by
  simp only [setCooldown]; repeat' split
  all_goals simp (maxDischargeDepth := 16) [h]

@[simp] theorem marked_confirmLease (n x : Nat) (h : s.marked e) : (confirmLease n x s).marked e := by
  simp (maxDischargeDepth := 16) [confirmLease, h]

@[simp] theorem marked_takeDecline (i : Nat) (x : Handle) (h : s.marked e) : (takeDecline i x s).marked e := by
  simp only [takeDecline, declineLease]; repeat' split
  all_goals simp (maxDischargeDepth := 16) [h]

@[simp] theorem marked_endByStation (i n x : Nat) (h : s.marked e) : (endByStation i n x s).marked e := by
  simp only [endByStation]; repeat' split
  all_goals simp (maxDischargeDepth := 16) [h]

@[simp] theorem marked_takeEnding (i : Nat) (x : Handle) (n : Nat) (h : s.marked e) :
    (takeEnding i x n s).marked e := by
  simp only [takeEnding]; repeat' split
  all_goals simp (maxDischargeDepth := 16) [h]

@[simp] theorem marked_takeRequest (i r : Nat) (h : s.marked e) : (takeRequest i r s).marked e := by
  unfold takeRequest; repeat' split
  · exact marked_place _ _ h
  · exact h
  · next he => exact marked_openOffered he h

@[simp] theorem marked_creditReport (i n x : Nat) (b : Bool) (h : s.marked e) : (creditReport i n x b s).marked e := by
  simp (maxDischargeDepth := 16) [creditReport, h]

@[simp] theorem marked_takeReport (i x : Nat) (y : Temp) (b : Bool) (h : s.marked e) :
    (takeReport i x y b s).marked e := by
  simp only [takeReport]; repeat' split
  all_goals simp (maxDischargeDepth := 16) [h]

@[simp] theorem marked_routeItem (i : Nat) (x : Item) (h : s.marked e) : (routeItem i x s).marked e := by
  simp only [routeItem]; repeat' split
  all_goals simp (maxDischargeDepth := 16) [h]

@[simp] theorem marked_checkHandle (i : Nat) (x : Option Handle) (h : s.marked e) : (checkHandle i x s).marked e := by
  simp only [checkHandle]; repeat' split
  all_goals simp (maxDischargeDepth := 16) [h]

@[simp] theorem marked_leaveIdentifying (i : Nat) (h : s.marked e) : (leaveIdentifying i s).marked e := by
  simp only [leaveIdentifying]; repeat' split
  all_goals simp (maxDischargeDepth := 16) [h]

@[simp] theorem marked_takeStatus (i : Nat) (x : Byte) (y : Option Handle) (m : Option Item) (h : s.marked e) :
    (takeStatus i x y m s).marked e := by
  simp only [takeStatus]; repeat' split
  all_goals simp (maxDischargeDepth := 16) [h]

@[simp] theorem marked_handAnswer (i : Nat) (x : Exchange) (a : LinkAnswer) (h : s.marked e) :
    (handAnswer i x a s).marked e := by
  simp only [handAnswer]; repeat' split
  all_goals simp (maxDischargeDepth := 16) [h]

@[simp] theorem marked_countAnswer (i : Nat) (a : LinkAnswer) (h : s.marked e) : (countAnswer i a s).marked e := by
  simp only [countAnswer]; repeat' split
  all_goals simp (maxDischargeDepth := 16) [h]

/-! ### Exchanges -/

@[simp] theorem marked_endEnumeration (h : s.marked e) : (endEnumeration s).marked e := by
  simp (maxDischargeDepth := 16) [endEnumeration, h]

@[simp] theorem marked_afterEnumerated (x : Exchange) (h : s.marked e) : (afterEnumerated x s).marked e := by
  simp only [afterEnumerated]; repeat' split
  all_goals simp (maxDischargeDepth := 16) [h]

@[simp] theorem marked_giveSlots (i : Nat) (h : s.marked e) : (giveSlots i s).marked e := by
  simp only [giveSlots]; repeat' split
  all_goals simp (maxDischargeDepth := 16) [h]

@[simp] theorem marked_probePartner (i a : Nat) (h : s.marked e) : (probePartner i a s).marked e := by
  simp only [probePartner]; repeat' split
  all_goals simp (maxDischargeDepth := 16) [h]

@[simp] theorem marked_afterProbed (x : Exchange) (b : State) (h : s.marked e) : (afterProbed x b s).marked e := by
  simp only [afterProbed]; repeat' split
  all_goals simp (maxDischargeDepth := 16) [h]

@[simp] theorem marked_returnCommand (i : Nat) (x : Exchange) (h : s.marked e) : (returnCommand i x s).marked e := by
  simp only [returnCommand]; repeat' split
  all_goals simp (maxDischargeDepth := 16) [h]

@[simp] theorem marked_failExchange (x : Exchange) (h : s.marked e) : (failExchange x s).marked e := by
  simp only [failExchange]; repeat' split
  all_goals simp (maxDischargeDepth := 16) [h]

/-- A good exchange, whatever its answer brings. -/
@[simp] theorem marked_goodExchange (x : Exchange) (a : LinkAnswer) (h : s.marked e) :
    (goodExchange x a s).marked e := by
  unfold goodExchange
  extract_lets s1 s2
  have h1 : s1.marked e := h
  clear_value s1
  have h2 : s2.marked e := by
    simp only [s2]
    split
    · refine marked_countAnswer _ _ (marked_handAnswer _ _ _ ?_)
      split
      · exact h1
      · exact marked_countGood _ h1
    · exact marked_takeIdentity _ _ h1
    · exact h1
  clear_value s2
  exact marked_closing (marked_afterEnumerated _ (marked_afterProbed _ _ h2))

@[simp] theorem marked_takeAnswer (i : Nat) (a : LinkAnswer) (h : s.marked e) : (takeAnswer i a s).marked e := by
  simp only [takeAnswer]; repeat' split
  all_goals simp (maxDischargeDepth := 16) [h]

/-! ### The loop and the monitor -/

@[simp] theorem marked_endLoop (x : LoopState) (h : s.marked e) : (endLoop x s).marked e := by
  simp only [endLoop]; repeat' split
  all_goals simp (maxDischargeDepth := 16) [h]

@[simp] theorem marked_startPriming (h : s.marked e) : (startPriming s).marked e := by
  simp (maxDischargeDepth := 16) [startPriming, h]

@[simp] theorem marked_moveValve (v : Valve) (h : s.marked e) : (moveValve v s).marked e := by
  simp (maxDischargeDepth := 16) [moveValve, h]

@[simp] theorem marked_evaluateValve (h : s.marked e) : (evaluateValve s).marked e := by
  simp only [evaluateValve]; repeat' split
  all_goals simp (maxDischargeDepth := 16) [h]

@[simp] theorem marked_driveUpper (h : s.marked e) : (driveUpper s).marked e := by
  simp only [driveUpper]; repeat' split
  all_goals simp (maxDischargeDepth := 16) [h]

@[simp] theorem marked_startRecooling (h : s.marked e) : (startRecooling s).marked e := by
  simp (maxDischargeDepth := 16) [startRecooling, h]

@[simp] theorem marked_testOff (h : s.marked e) : (testOff s).marked e := by
  simp only [testOff]; repeat' split
  all_goals simp (maxDischargeDepth := 16) [h]

@[simp] theorem marked_toCharging (h : s.marked e) : (toCharging s).marked e := by
  simp (maxDischargeDepth := 16) [toCharging, h]

@[simp] theorem marked_tendStopTimer (h : s.marked e) : (tendStopTimer s).marked e := by
  simp (maxDischargeDepth := 16) [tendStopTimer, h]

@[simp] theorem marked_sweepRunning (h : s.marked e) : (sweepRunning s).marked e := by
  simp only [sweepRunning]; repeat' split
  all_goals simp (maxDischargeDepth := 16) [h]

theorem marked_sweepWithLease (go : State → State) (hg : s.marked e → (go s).marked e) (h : s.marked e) :
    (sweepWithLease go s).marked e := by
  unfold sweepWithLease; repeat' split
  all_goals simp [h, hg h]

@[simp] theorem marked_sweepStagnant (h : s.marked e) : (sweepStagnant s).marked e := by
  simp only [sweepStagnant]; repeat' split
  all_goals simp (maxDischargeDepth := 16) [h]

@[simp] theorem marked_sweepRecooling (h : s.marked e) : (sweepRecooling s).marked e := by
  simp only [sweepRecooling]; repeat' split
  all_goals simp (maxDischargeDepth := 16) [h]

/-- What a sweep-complete brings to the loop. -/
@[simp] theorem marked_solarSweep (h : s.marked e) : (solarSweep s).marked e := by
  unfold solarSweep
  extract_lets s1
  have h1 : s1.marked e := by simp [s1, h]
  clear_value s1
  split
  · exact marked_testOff h1
  · exact marked_sweepWithLease _ marked_evaluateValve h1
  · exact marked_sweepWithLease _ marked_sweepRunning h1
  · exact marked_sweepWithLease _ marked_sweepRunning h1
  · exact marked_sweepStagnant h1
  · exact marked_sweepRecooling h1
  · split <;> simp [h1]

@[simp] theorem marked_solarGuardChange (g : GuardState) (h : s.marked e) : (solarGuardChange g s).marked e := by
  simp only [solarGuardChange]; repeat' split
  all_goals simp (maxDischargeDepth := 16) [h]

@[simp] theorem marked_checkRecoolWindow (h : s.marked e) : (checkRecoolWindow s).marked e := by
  simp only [checkRecoolWindow]; repeat' split
  all_goals simp (maxDischargeDepth := 16) [h]

@[simp] theorem marked_revokeSanitise (r : LeaseOutcome) (h : s.marked e) : (revokeSanitise r s).marked e := by
  simp only [revokeSanitise]; repeat' split
  all_goals simp (maxDischargeDepth := 16) [h]

@[simp] theorem marked_satisfyHold (h : s.marked e) : (satisfyHold s).marked e := by
  simp (maxDischargeDepth := 16) [satisfyHold, h]

@[simp] theorem marked_sanitiseSweep (h : s.marked e) : (sanitiseSweep s).marked e := by
  simp only [sanitiseSweep]; repeat' split
  all_goals simp (maxDischargeDepth := 16) [h]

@[simp] theorem marked_openSanitise (i : Nat) (h : s.marked e) : (openSanitise i s).marked e := by
  unfold openSanitise; repeat' split
  · exact marked_raise _ h
  · next he => exact marked_openOffered he h
  · exact marked_raise _ h

@[simp] theorem marked_attempt (h : s.marked e) : (attempt s).marked e := by
  simp only [attempt]; repeat' split
  all_goals simp (maxDischargeDepth := 16) [h]

@[simp] theorem marked_tryAttempt (h : s.marked e) : (tryAttempt s).marked e := by
  simp only [tryAttempt]; repeat' split
  all_goals simp (maxDischargeDepth := 16) [h]

/-! ### The due minute -/

@[simp] theorem marked_processDue (n : Nat) (h : s.marked e) : (processDue s n).marked e := by
  simp only [processDue]; repeat' split
  all_goals simp (maxDischargeDepth := 16) [h]

@[simp] theorem marked_processDues (h : s.marked e) : (processDues s).marked e := by
  unfold processDues; split
  · exact h
  · exact marked_afterRemovals s (foldl_marked _ (fun _ n h => marked_processDue n h) _ s h)

end Sys2Proof.Machine
end

