-- ==== Sys2Proof/Laws/PerInstr.lean ====
section
/-! SUPPORT. What holds of every command as syntax, command by command. -/

namespace Sys2Proof.Laws

open Sys2Proof.Machine

/-- The fields of a well-formed request have the length that the catalogue allows for its code (§11.2), which the frame's
length byte can carry (§11.1). -/
def Catalogue.Statement (c : Instr) : Prop :=
  ∀ code, requestCode c = some code → c.wellFormed = true →
    requestLength code.toNat = some (requestFields c).length ∧ (requestFields c).length ≤ 60

/-- A request with a code and fields of a length that the catalogue allows. -/
theorem Catalogue.of_fields {c : Instr} {code : Byte} {n : Nat} (h : requestCode c = some code)
    (hn : requestLength code.toNat = some n) (h60 : n ≤ 60)
    (hf : c.wellFormed = true → (requestFields c).length = n) : Catalogue.Statement c := by
  intro d hd hw
  obtain rfl : code = d := by rw [h] at hd; exact Option.some.inj hd
  rw [hf hw]; exact ⟨hn, h60⟩

/-- A command that is no request of the host. -/
theorem Catalogue.of_none {c : Instr} (h : requestCode c = none) : Catalogue.Statement c := by
  intro d hd; rw [h] at hd; cases hd

/-- The fourteen bytes of a booking's terms. -/
theorem Catalogue.termsBytes_length (t : BookTerms) : (termsBytes t).length = 14 := by
  rcases t with ⟨_, _, _, _, _, _ | _, _ | _⟩ <;> rfl

/-- A mask byte and the fourteen bytes of an AMEND. -/
theorem Catalogue.amendBytes_length (t : AmendTerms) : (amendBytes t).length = 15 := by
  rcases t with ⟨_ | _, _ | _, _ | _, _ | _, _ | _ | _, _ | _ | _⟩ <;> rfl

theorem Catalogue.powerOn : Catalogue.Statement (.powerOn) :=
  of_none rfl
theorem Catalogue.requestWriteRejected : ∀ bytes, Catalogue.Statement (.requestWriteRejected bytes) :=
  fun _ => of_none rfl
theorem Catalogue.requestWriteWhileWorking : ∀ bytes, Catalogue.Statement (.requestWriteWhileWorking bytes) :=
  fun _ => of_none rfl
theorem Catalogue.answerRead : ∀ clocked, Catalogue.Statement (.answerRead clocked) :=
  fun _ => of_none rfl
theorem Catalogue.answerPlaced : Catalogue.Statement (.answerPlaced) :=
  of_none rfl
theorem Catalogue.identifyPart : Catalogue.Statement (.identifyPart) :=
  of_fields rfl rfl (by decide) fun _ => rfl
theorem Catalogue.setClock : ∀ day minute, Catalogue.Statement (.setClock day minute) :=
  fun _ _ => of_fields rfl rfl (by decide) fun _ => rfl
theorem Catalogue.readClock : Catalogue.Statement (.readClock) :=
  of_fields rfl rfl (by decide) fun _ => rfl
theorem Catalogue.setStratumVolume : ∀ number value, Catalogue.Statement (.setStratumVolume number value) :=
  fun _ _ => of_fields rfl rfl (by decide) fun _ => rfl
theorem Catalogue.setThetaMax : ∀ value, Catalogue.Statement (.setThetaMax value) :=
  fun _ => of_fields rfl rfl (by decide) fun _ => rfl
theorem Catalogue.setReserveLine : ∀ value, Catalogue.Statement (.setReserveLine value) :=
  fun _ => of_fields rfl rfl (by decide) fun _ => rfl
theorem Catalogue.setMargin : ∀ value, Catalogue.Statement (.setMargin value) :=
  fun _ => of_fields rfl rfl (by decide) fun _ => rfl
theorem Catalogue.setLeaseParameter : ∀ number value, Catalogue.Statement (.setLeaseParameter number value) :=
  fun _ _ => of_fields rfl rfl (by decide) fun _ => rfl
theorem Catalogue.setSitePowerBudget : ∀ value, Catalogue.Statement (.setSitePowerBudget value) :=
  fun _ => of_fields rfl rfl (by decide) fun _ => rfl
theorem Catalogue.setSolarRating : ∀ value, Catalogue.Statement (.setSolarRating value) :=
  fun _ => of_fields rfl rfl (by decide) fun _ => rfl
theorem Catalogue.setAutoCap : ∀ value, Catalogue.Statement (.setAutoCap value) :=
  fun _ => of_fields rfl rfl (by decide) fun _ => rfl
theorem Catalogue.setLoopParameter : ∀ number value, Catalogue.Statement (.setLoopParameter number value) :=
  fun _ _ => of_fields rfl rfl (by decide) fun _ => rfl
theorem Catalogue.setSanitiseSetting : ∀ number value, Catalogue.Statement (.setSanitiseSetting number value) :=
  fun _ _ => of_fields rfl rfl (by decide) fun _ => rfl
theorem Catalogue.readParameter : ∀ number, Catalogue.Statement (.readParameter number) :=
  fun _ => of_fields rfl rfl (by decide) fun _ => rfl
theorem Catalogue.readStrata : Catalogue.Statement (.readStrata) :=
  of_fields rfl rfl (by decide) fun _ => rfl
theorem Catalogue.book : ∀ terms, Catalogue.Statement (.book terms) :=
  fun terms => of_fields rfl rfl (by decide) fun _ => termsBytes_length terms
theorem Catalogue.amend : ∀ h terms, Catalogue.Statement (.amend h terms) :=
  fun _ terms => of_fields rfl rfl (by decide) fun _ => by simp [requestFields, reservationBytes, amendBytes_length]
theorem Catalogue.withdraw : ∀ h, Catalogue.Statement (.withdraw h) :=
  fun _ => of_fields rfl rfl (by decide) fun _ => rfl
theorem Catalogue.release : ∀ h, Catalogue.Statement (.release h) :=
  fun _ => of_fields rfl rfl (by decide) fun _ => rfl
theorem Catalogue.lookupReservation : ∀ h, Catalogue.Statement (.lookupReservation h) :=
  fun _ => of_fields rfl rfl (by decide) fun _ => rfl
theorem Catalogue.listReservations : Catalogue.Statement (.listReservations) :=
  of_fields rfl rfl (by decide) fun _ => rfl
theorem Catalogue.openBoost : ∀ index ceiling minutes budget, Catalogue.Statement (.openBoost index ceiling minutes budget) :=
  fun _ _ _ budget => of_fields rfl rfl (by decide) fun _ => by cases budget <;> rfl
theorem Catalogue.revokeLease : ∀ h, Catalogue.Statement (.revokeLease h) :=
  fun _ => of_fields rfl rfl (by decide) fun _ => rfl
theorem Catalogue.lookupLease : ∀ h, Catalogue.Statement (.lookupLease h) :=
  fun _ => of_fields rfl rfl (by decide) fun _ => rfl
theorem Catalogue.listLeases : Catalogue.Statement (.listLeases) :=
  of_fields rfl rfl (by decide) fun _ => rfl
theorem Catalogue.readStation : ∀ index, Catalogue.Statement (.readStation index) :=
  fun _ => of_fields rfl rfl (by decide) fun _ => rfl
theorem Catalogue.setStation : ∀ index capAction cap rankAction rank, Catalogue.Statement (.setStation index capAction cap rankAction rank) :=
  fun _ _ _ _ _ => of_fields rfl rfl (by decide) fun _ => rfl
theorem Catalogue.clearBar : ∀ index, Catalogue.Statement (.clearBar index) :=
  fun _ => of_fields rfl rfl (by decide) fun _ => rfl
theorem Catalogue.relearn : ∀ index, Catalogue.Statement (.relearn index) :=
  fun _ => of_fields rfl rfl (by decide) fun _ => rfl
theorem Catalogue.forget : ∀ index, Catalogue.Statement (.forget index) :=
  fun _ => of_fields rfl rfl (by decide) fun _ => rfl
theorem Catalogue.discover : Catalogue.Statement (.discover) :=
  of_fields rfl rfl (by decide) fun _ => rfl
theorem Catalogue.setSchedule : ∀ slots, Catalogue.Statement (.setSchedule slots) :=
  fun slots => of_fields (n := 32) rfl rfl (by decide) fun h => by
    simp [Instr.wellFormed] at h; simp [requestFields, h.1]
theorem Catalogue.readSchedule : Catalogue.Statement (.readSchedule) :=
  of_fields rfl rfl (by decide) fun _ => rfl
theorem Catalogue.readSolar : Catalogue.Statement (.readSolar) :=
  of_fields rfl rfl (by decide) fun _ => rfl
theorem Catalogue.remeasure : Catalogue.Statement (.remeasure) :=
  of_fields rfl rfl (by decide) fun _ => rfl
theorem Catalogue.readEvents : Catalogue.Statement (.readEvents) :=
  of_fields rfl rfl (by decide) fun _ => rfl
theorem Catalogue.setMask : ∀ mask, Catalogue.Statement (.setMask mask) :=
  fun _ => of_fields rfl rfl (by decide) fun _ => rfl
theorem Catalogue.readCounters : Catalogue.Statement (.readCounters) :=
  of_fields rfl rfl (by decide) fun _ => rfl
theorem Catalogue.halt : Catalogue.Statement (.halt) :=
  of_fields rfl rfl (by decide) fun _ => rfl
theorem Catalogue.resumeAll : Catalogue.Statement (.resumeAll) :=
  of_fields rfl rfl (by decide) fun _ => rfl
theorem Catalogue.reset : Catalogue.Statement (.reset) :=
  of_fields rfl rfl (by decide) fun _ => rfl
theorem Catalogue.sweepStart : Catalogue.Statement (.sweepStart) :=
  of_none rfl
theorem Catalogue.sweepComplete : ∀ readings, Catalogue.Statement (.sweepComplete readings) :=
  fun _ => of_none rfl
theorem Catalogue.passComplete : Catalogue.Statement (.passComplete) :=
  of_none rfl
theorem Catalogue.clockMinuteAdvance : Catalogue.Statement (.clockMinuteAdvance) :=
  of_none rfl
theorem Catalogue.durationExpiry : ∀ h, Catalogue.Statement (.durationExpiry h) :=
  fun _ => of_none rfl
theorem Catalogue.finishingHoldExpiry : ∀ h, Catalogue.Statement (.finishingHoldExpiry h) :=
  fun _ => of_none rfl
theorem Catalogue.revokeTimeout : ∀ h, Catalogue.Statement (.revokeTimeout h) :=
  fun _ => of_none rfl
theorem Catalogue.learnedCapStepTimerExpiry : ∀ h, Catalogue.Statement (.learnedCapStepTimerExpiry h) :=
  fun _ => of_none rfl
theorem Catalogue.declineCooldownExpiry : ∀ index, Catalogue.Statement (.declineCooldownExpiry index) :=
  fun _ => of_none rfl
theorem Catalogue.retryTimerExpiry : ∀ index, Catalogue.Statement (.retryTimerExpiry index) :=
  fun _ => of_none rfl
theorem Catalogue.trialWindowEnd : Catalogue.Statement (.trialWindowEnd) :=
  of_none rfl
theorem Catalogue.arbiterDecision : ∀ released, Catalogue.Statement (.arbiterDecision released) :=
  fun _ => of_none rfl
theorem Catalogue.identity : ∀ addr fields, Catalogue.Statement (.identity addr fields) :=
  fun _ _ => of_none rfl
theorem Catalogue.status : ∀ addr flags handle item, Catalogue.Statement (.status addr flags handle item) :=
  fun _ _ _ _ => of_none rfl
theorem Catalogue.accept : ∀ addr h, Catalogue.Statement (.accept addr h) :=
  fun _ _ => of_none rfl
theorem Catalogue.decline : ∀ addr h, Catalogue.Statement (.decline addr h) :=
  fun _ _ => of_none rfl
theorem Catalogue.ack : ∀ addr kind, Catalogue.Statement (.ack addr kind) :=
  fun _ _ => of_none rfl
theorem Catalogue.answerRejected : ∀ bytes, Catalogue.Statement (.answerRejected bytes) :=
  fun _ => of_none rfl
theorem Catalogue.answerWindowExpiry : Catalogue.Statement (.answerWindowExpiry) :=
  of_none rfl
theorem Catalogue.broadcastExchangeEnd : Catalogue.Statement (.broadcastExchangeEnd) :=
  of_none rfl
theorem Catalogue.discoveryTimerExpiry : Catalogue.Statement (.discoveryTimerExpiry) :=
  of_none rfl
theorem Catalogue.callLineLow : Catalogue.Statement (.callLineLow) :=
  of_none rfl
theorem Catalogue.callIgnoreExpiry : Catalogue.Statement (.callIgnoreExpiry) :=
  of_none rfl
theorem Catalogue.flowPulse : Catalogue.Statement (.flowPulse) :=
  of_none rfl
theorem Catalogue.primeTimerExpiry : Catalogue.Statement (.primeTimerExpiry) :=
  of_none rfl
theorem Catalogue.solarStepTimerExpiry : Catalogue.Statement (.solarStepTimerExpiry) :=
  of_none rfl
theorem Catalogue.stopTimerExpiry : Catalogue.Statement (.stopTimerExpiry) :=
  of_none rfl
theorem Catalogue.remeasureTimerExpiry : Catalogue.Statement (.remeasureTimerExpiry) :=
  of_none rfl

end Sys2Proof.Laws
end

