-- ==== Sys2Proof/Laws/Queue.lean ====
section
/-! SUPPORT. The work on one station's queue: what stays of it and how long it becomes (R142, R143). -/

namespace Sys2Proof.Machine

variable {bears p : LinkCmd → Bool} {v : LeaseView} {c : LinkCmd} {h : Handle} {age rate : Nat} {x : Queued}
  {q : List Queued}

/-! ### Parts of a queue -/

/-- A replacement leaves as many commands as there were. -/
@[simp] theorem length_replaceFirst (q : List Queued) : (replaceFirst p c q).length = q.length := by
  induction q with
  | nil => rfl
  | cons y ys ih => simp only [replaceFirst]; split <;> simp [ih]

theorem sublist_removeFirst (q : List Queued) : (removeFirst p q).Sublist q := by
  induction q with
  | nil => exact .slnil
  | cons y ys ih =>
    simp only [removeFirst]
    split
    · exact List.sublist_cons_self y ys
    · exact ih.cons_cons y

theorem sublist_removeAll (q : List Queued) : (removeAll p q).Sublist q := List.filter_sublist

theorem length_removeAll_le (q : List Queued) : (removeAll p q).length ≤ q.length := (sublist_removeAll q).length_le

/-- Where one waits, its removal shortens the queue. -/
theorem length_removeFirst_lt (hw : anyWaiting p q = true) : (removeFirst p q).length < q.length := by
  induction q with
  | nil => simp [anyWaiting] at hw
  | cons y ys ih =>
    simp only [removeFirst]
    split
    · simp
    · next hp =>
      have : anyWaiting p ys = true := by simpa [anyWaiting, hp] using hw
      simpa using ih this

/-- A command that the test does not accept stays. -/
theorem mem_removeFirst (hx : x ∈ q) (hp : p x.cmd = false) : x ∈ removeFirst p q := by
  induction q with
  | nil => simp at hx
  | cons y ys ih =>
    simp only [removeFirst]
    rcases List.mem_cons.mp hx with e | e
    · subst e; simp [hp]
    · split
      · exact e
      · exact List.mem_cons_of_mem _ (ih e)

/-! ### Room (R142) -/

theorem sublist_makeRoom (q : List Queued) : (makeRoom bears q).Sublist q := by
  unfold makeRoom
  split
  · exact .refl q
  · split
    · exact sublist_removeFirst q
    · exact List.tail_sublist q

/-- There is room for one more. -/
theorem length_makeRoom_lt (hq : q.length ≤ 4) : (makeRoom bears q).length < 4 := by
  unfold makeRoom
  split
  · assumption
  · split
    · next hw => exact Nat.lt_of_lt_of_le (length_removeFirst_lt hw) hq
    · simp only [List.length_tail]; omega

/-- A full queue in which fewer than four bear a lease holds a command that does not. -/
theorem waits_unleased (hq : 4 ≤ q.length) (hb : (q.filter fun y => bears y.cmd).length < 4) :
    anyWaiting (fun c => !bears c) q = true := by
  by_contra hn
  have : q.filter (fun y => bears y.cmd) = q := by
    simp only [anyWaiting, List.any_eq_true, Bool.not_eq_true', not_exists, not_and, Bool.not_eq_false] at hn
    exact List.filter_eq_self.mpr hn
  rw [this] at hb
  omega

/-- Where fewer than four bear a lease, each of them stays as room is made. -/
theorem mem_makeRoom (hb : (q.filter fun y => bears y.cmd).length < 4) (hx : x ∈ q) (hl : bears x.cmd = true) :
    x ∈ makeRoom bears q := by
  unfold makeRoom
  split
  · exact hx
  · next hlen =>
    rw [if_pos (waits_unleased (by omega) hb)]
    exact mem_removeFirst hx (by simp [hl])

/-! ### A command placed (R142, R143) -/

theorem length_enqueue_le (hq : q.length ≤ 4) : (enqueue bears x q).length ≤ 4 := by
  unfold enqueue
  split
  · simpa using hq
  · simpa using length_makeRoom_lt (bears := bears) hq

theorem length_replaceOrEnqueue_le (hq : q.length ≤ 4) : (replaceOrEnqueue bears p x q).length ≤ 4 := by
  unfold replaceOrEnqueue
  split
  · simpa using hq
  · exact length_enqueue_le hq

theorem length_placeSetRate_le (hq : q.length ≤ 4) : (placeSetRate bears h rate age q).length ≤ 4 := by
  unfold placeSetRate
  split
  · simpa using (length_removeAll_le q).trans hq
  · exact length_replaceOrEnqueue_le hq

theorem length_placeSuspend_le (hq : q.length ≤ 4) : (placeSuspend bears v h age q).length ≤ 4 := by
  have h1 := (length_removeAll_le (p := (·.isSetRate h)) q).trans hq
  have h2 := (length_removeAll_le (p := (·.isResume h)) (removeAll (·.isSetRate h) q)).trans h1
  simp only [placeSuspend]
  split
  · split
    · exact h2
    · exact length_replaceOrEnqueue_le h2
  · exact length_replaceOrEnqueue_le h1

theorem length_placeResume_le (hq : q.length ≤ 4) : (placeResume bears v h rate age q).length ≤ 4 := by
  have h1 := (length_removeAll_le (p := (·.isSuspend h)) q).trans hq
  simp only [placeResume]
  split
  · split
    · exact h1
    · exact length_placeSetRate_le h1
  · exact length_replaceOrEnqueue_le hq

theorem length_placeRevoke_le (hq : q.length ≤ 4) : (placeRevoke bears h age q).length ≤ 4 := by
  have h1 := (length_removeAll_le (p := fun c => c.handle? == some h && !c.isRevoke h) q).trans hq
  simp only [placeRevoke]
  split
  · exact h1
  · exact length_enqueue_le h1

theorem length_placeQualify_le (hq : q.length ≤ 4) : (placeQualify bears rate age q).length ≤ 4 := by
  unfold placeQualify
  split
  · exact (length_removeAll_le q).trans hq
  · exact length_replaceOrEnqueue_le hq

/-- A queue never grows past its four places. -/
theorem length_coalesce_le (hq : q.length ≤ 4) : (coalesce bears v c age q).length ≤ 4 := by
  cases c with
  | setRate => exact length_placeSetRate_le hq
  | amend => exact length_replaceOrEnqueue_le hq
  | suspend => exact length_placeSuspend_le hq
  | resume => exact length_placeResume_le hq
  | revoke => exact length_placeRevoke_le hq
  | qualify => exact length_placeQualify_le hq
  | refuse => exact length_replaceOrEnqueue_le hq
  | grant => exact length_enqueue_le hq
  | identify => exact length_enqueue_le hq
  | poll => exact length_enqueue_le hq
  | linkClear => exact length_enqueue_le hq
  | allStop => exact length_enqueue_le hq

end Sys2Proof.Machine
end

