-- ==== Sys2Proof/Laws/Shelf.lean ====
section
/-! SUPPORT. The lease slots and the admission order under the arbiter, the finishing tests and the overlap test: which
lease stands where, whose it is, what it was given and what it has delivered stay; and a slot that such work does not name
keeps all of its lease but the rates. -/

namespace Sys2Proof.Machine

/-! ### Reading a lease slot after writing one -/

/-- The slot written reads as written. -/
theorem leaseSlot_modLease (n : Nat) (f : Lease → Lease) (s : State) :
    (s.modLease n f).leaseSlot n = { s.leaseSlot n with lease := (s.lease? n).map f } := by
  by_cases h : n - 1 < 8
  · exact tget_tset_self s.admission.leases (n - 1) _ .initial h
  · have e : s.leaseSlot n = .initial := tget_of_le _ _ _ (by omega)
    have e2 : (s.modLease n f).leaseSlot n = .initial := tget_of_le _ _ _ (by omega)
    rw [e2]; simp [State.lease?, e, LeaseSlot.initial]

/-- Every other slot reads as before. -/
theorem leaseSlot_modLease_ne {n m : Nat} (h : m - 1 ≠ n - 1) (f : Lease → Lease) (s : State) :
    (s.modLease m f).leaseSlot n = s.leaseSlot n := tget_tset_ne _ _ _ _ _ h

theorem leaseSlot_setLeaseSlot {n : Nat} (h : n - 1 < 8) (x : LeaseSlot) (s : State) :
    (s.setLeaseSlot n x).leaseSlot n = x := tget_tset_self s.admission.leases (n - 1) _ .initial h

theorem leaseSlot_setLeaseSlot_ne {n m : Nat} (h : m - 1 ≠ n - 1) (x : LeaseSlot) (s : State) :
    (s.setLeaseSlot m x).leaseSlot n = s.leaseSlot n := tget_tset_ne _ _ _ _ _ h

@[simp] theorem lease_modLease (n : Nat) (f : Lease → Lease) (s : State) :
    (s.modLease n f).lease? n = (s.lease? n).map f := by simp [State.lease?, leaseSlot_modLease]

theorem lease_modLease_ne {n m : Nat} (h : m - 1 ≠ n - 1) (f : Lease → Lease) (s : State) :
    (s.modLease m f).lease? n = s.lease? n := by simp [State.lease?, leaseSlot_modLease_ne h]

/-! ### What stays of every lease -/

def LeaseSlot.root (x : LeaseSlot) : LeaseSlot := { x with lease := x.lease.map Lease.root }

structure Shelf where
  roots : Vector LeaseSlot 8
  order : List Handle
  marks : Vector (Option StatusRecord × Option Temp) 8

/-- The roots of the leases, the admission order, and what each station was last heard to say. -/
def State.shelf (s : State) : Shelf :=
  { roots := s.admission.leases.map LeaseSlot.root, order := s.admission.order
    marks := s.link.stations.map fun x => (x.status, x.supply) }

theorem foldl_shelf {α : Type} (f : State → α → State) (h : ∀ s a, (f s a).shelf = s.shelf) (l : List α) (s : State) :
    (l.foldl f s).shelf = s.shelf := foldl_keeps State.shelf f h l s

theorem shelf_modLease (n : Nat) (f : Lease → Lease) (hf : ∀ l, (f l).root = l.root) (s : State) :
    (s.modLease n f).shelf = s.shelf := by
  have h : (tset s.admission.leases (n - 1) { s.leaseSlot n with lease := (s.lease? n).map f }).map LeaseSlot.root =
      s.admission.leases.map LeaseSlot.root := by
    apply map_tset_self LeaseSlot.root s.admission.leases (n - 1) _ .initial
    change LeaseSlot.root { s.leaseSlot n with lease := (s.leaseSlot n).lease.map f } = LeaseSlot.root (s.leaseSlot n)
    rcases s.leaseSlot n with ⟨i, _ | l⟩ <;> simp [LeaseSlot.root, hf]
  unfold State.modLease State.setLeaseSlot
  simp only [State.shelf, modAdmission_admission, modAdmission_link]
  rw [h]

theorem shelf_modStation (i : Nat) (f : Station → Station) (hf : ∀ x, (f x).status = x.status ∧ (f x).supply = x.supply)
    (s : State) : (s.modStation i f).shelf = s.shelf := by
  have h : (tset s.link.stations i (f (s.station i))).map (fun x => (x.status, x.supply)) =
      s.link.stations.map fun x => (x.status, x.supply) := by
    apply map_tset_self (fun x : Station => (x.status, x.supply)) s.link.stations i _ .initial
    simp [hf, State.station]
  unfold State.modStation
  simp only [State.shelf, modLink_admission, modLink_link]
  rw [h]

@[simp] theorem shelf_setExchange (s : State) (f : Exchange → Exchange) :
    (s.modLink fun k => { k with exchange := k.exchange.map f }).shelf = s.shelf := rfl
@[simp] theorem shelf_bump (s : State) : s.bump.shelf = s.shelf := rfl
@[simp] theorem shelf_modRoster (f : Roster → Roster) (s : State) : (s.modRoster f).shelf = s.shelf := rfl
@[simp] theorem shelf_modSolar (f : Solar → Solar) (s : State) : (s.modSolar f).shelf = s.shelf := rfl

@[simp] theorem shelf_markOvertaken (i : Nat) (c : LinkCmd) (s : State) : (markOvertaken i c s).shelf = s.shelf := by
  unfold markOvertaken; split <;> rfl

@[simp] theorem shelf_place (i : Nat) (c : LinkCmd) (s : State) : (place i c s).shelf = s.shelf := by
  unfold place; split
  · rfl
  · rw [shelf_markOvertaken]; apply shelf_modStation; intro x; exact ⟨rfl, rfl⟩

@[simp] theorem shelf_takePower (s : State) (n : Nat) : (takePower s n).shelf = s.shelf := by
  (apply shelf_modLease; intro _; rfl)

@[simp] theorem shelf_stopTrial (s : State) : (stopTrial s).shelf = s.shelf := by
  simp only [stopTrial]; repeat' split
  all_goals simp

@[simp] theorem shelf_removeExcess (s : State) : (removeExcess s).shelf = s.shelf := by
  have h := foldl_shelf takePower shelf_takePower s.removalOrder s
  simp only [removeExcess]; split <;> simp [h]

@[simp] theorem shelf_givePower (s : State) (n : Nat) : (givePower s n).shelf = s.shelf := by
  simp only [givePower]; repeat' split
  · rfl
  · rfl
  · (apply shelf_modLease; intro _; rfl)

@[simp] theorem shelf_restorePower (s : State) : (restorePower s).shelf = s.shelf :=
  foldl_shelf givePower shelf_givePower _ s

@[simp] theorem shelf_followEntitlement (s : State) (n : Nat) : (followEntitlement s n).shelf = s.shelf := by
  (apply shelf_modLease; intro _; rfl)

@[simp] theorem shelf_followDemand (b s : State) (n : Nat) : (followDemand b s n).shelf = s.shelf := by
  unfold followDemand; repeat' split
  · rfl
  all_goals (apply shelf_modLease; intro _; rfl)

@[simp] theorem shelf_enterRate (b s : State) (n : Nat) : (enterRate b s n).shelf = s.shelf := by
  exact (shelf_modLease n (fun l => { l with state := settledState s.map.valid l }) (fun _ => rfl) _).trans (by simp)

@[simp] theorem shelf_publishRate (b s : State) (n : Nat) : (publishRate b s n).shelf = s.shelf := by
  have h : (s.modLease n fun l => { l with state := settledState s.map.valid l }).shelf = s.shelf := by
    apply shelf_modLease; intro _; rfl
  unfold publishRate; split
  · rfl
  · dsimp only
    split <;> simp [h]

@[simp] theorem shelf_settle (b s : State) : (settle b s).shelf = s.shelf := by
  simp only [settle]
  rw [foldl_shelf _ (shelf_publishRate b), shelf_restorePower]
  split <;> simp [foldl_shelf _ (shelf_followDemand b), foldl_shelf _ shelf_followEntitlement]

@[simp] theorem shelf_freeRates (b s : State) : (freeRates b s).shelf = s.shelf := by
  simp only [freeRates]
  rw [foldl_shelf _ (shelf_followDemand b), foldl_shelf _ shelf_followEntitlement]

@[simp] theorem shelf_settling (f : State → State) (s : State) : (settling f s).shelf = (f s).shelf := by
  simp [settling]

@[simp] theorem shelf_beginRevoking (n : Nat) (l : Lease) (r : LeaseOutcome) (s : State) :
    (beginRevoking n l r s).shelf = s.shelf := by
  unfold beginRevoking; rw [shelf_place]; (apply shelf_modLease; intro _; rfl)

@[simp] theorem shelf_beginFinishing (n : Nat) (s : State) : (beginFinishing n s).shelf = s.shelf := by
  (apply shelf_modLease; intro _; rfl)

@[simp] theorem shelf_endZeroHold (n : Nat) (s : State) : (endZeroHold n s).shelf = s.shelf := by
  unfold endZeroHold; repeat' split
  all_goals simp

@[simp] theorem shelf_recharge (n : Nat) (s : State) : (recharge n s).shelf = s.shelf := by
  unfold recharge
  extract_lets s1
  have h : s1.shelf = s.shelf := by
    rw [shelf_settling]; (apply shelf_modLease; intro _; rfl)
  clear_value s1
  split <;> simp [h]

@[simp] theorem shelf_testFinishing (n : Nat) (s : State) : (testFinishing n s).shelf = s.shelf := by
  unfold testFinishing; repeat' split
  all_goals simp

@[simp] theorem shelf_testFinishingUnlessSanitise (n : Nat) (s : State) :
    (testFinishingUnlessSanitise n s).shelf = s.shelf := by
  unfold testFinishingUnlessSanitise; split <;> simp

@[simp] theorem shelf_beginSuspension (s : State) (n : Nat) : (beginSuspension s n).shelf = s.shelf := by
  unfold beginSuspension; split
  · rfl
  · rw [shelf_place]; (apply shelf_modLease; intro _; rfl)

@[simp] theorem shelf_beginResumption (s : State) (n : Nat) : (beginResumption s n).shelf = s.shelf := by
  simp only [beginResumption]; repeat' split
  · rfl
  · rfl
  · rw [shelf_beginRevoking]; apply shelf_modLease; intro _; rfl
  · apply shelf_modLease; intro _; rfl
  · rw [shelf_place]; apply shelf_modLease; intro _; rfl

@[simp] theorem shelf_announceResume (s : State) (n : Nat) : (announceResume s n).shelf = s.shelf := by
  unfold announceResume; repeat' split
  all_goals simp

@[simp] theorem shelf_actOnOverlap (b s : State) : (actOnOverlap b s).shelf = s.shelf := by
  simp only [actOnOverlap]
  rw [foldl_shelf _ fun s n => shelf_testFinishing n s, foldl_shelf _ shelf_announceResume, shelf_settle,
    foldl_shelf _ shelf_beginResumption, foldl_shelf _ shelf_beginSuspension]

@[simp] theorem shelf_testOverlap (s : State) : (testOverlap s).shelf = s.shelf := by
  unfold testOverlap; split <;> simp

/-- Bringing every rate up to date, with the overlap test, leaves the roots and the admission order alone. -/
@[simp] theorem shelf_resettle (b s : State) : (resettle b s).shelf = s.shelf := by
  simp only [resettle]; split <;> simp

@[simp] theorem shelf_afterRemovals (b s : State) : (afterRemovals b s).shelf = s.shelf := by
  simp only [afterRemovals]
  rw [foldl_shelf _ fun s n => ?_, shelf_resettle]
  unfold testShrunk; split <;> simp

@[simp] theorem shelf_callOffTrial (s : State) : (callOffTrial s).shelf = s.shelf := by simp [callOffTrial]

@[simp] theorem shelf_callOffTrialOf (i : Nat) (s : State) : (callOffTrialOf i s).shelf = s.shelf := by
  unfold callOffTrialOf; split <;> simp

@[simp] theorem shelf_callOffEvicted (s : State) : (callOffEvicted s).shelf = s.shelf := by
  unfold callOffEvicted; repeat' split
  all_goals simp

/-- What closes a step leaves the roots of the leases, the admission order and the stations' last words alone. -/
@[simp] theorem shelf_closing (s : State) : (closing s).shelf = s.shelf := by simp [closing]

@[simp] theorem shelf_tryTrial (s : State) : (tryTrial s).shelf = s.shelf := by
  unfold tryTrial; repeat' split
  all_goals simp [startTrial]

/-! ### What a lease keeps while the work is about others -/

/-- A lease without its rates; ADMITTED stands for THROTTLED too. -/
def Lease.core (l : Lease) : Lease :=
  { l with
    entitlement := 0, granted := 0, waiting := false, state := if l.state.isRunning then .admitted else l.state }

/-- Slot `n` with its lease's core. -/
def State.core (s : State) (n : Nat) : LeaseSlot := { s.leaseSlot n with lease := (s.lease? n).map Lease.core }

theorem foldl_core {α : Type} (n : Nat) (f : State → α → State) (l : List α) (P : α → Prop)
    (h : ∀ s a, P a → (f s a).core n = s.core n) (hl : ∀ a ∈ l, P a) (s : State) :
    (l.foldl f s).core n = s.core n := by
  induction l generalizing s with
  | nil => rfl
  | cons a l ih =>
    rw [List.foldl_cons, ih fun x hx => hl x (List.mem_cons_of_mem _ hx)]
    exact h s a (hl a List.mem_cons_self)

theorem core_modLease (n m : Nat) (f : Lease → Lease) (hf : ∀ l, (f l).core = l.core) (s : State) :
    (s.modLease m f).core n = s.core n := by
  by_cases h : m - 1 = n - 1
  · have e : ∀ t : State, t.core m = t.core n := by intro t; simp [State.core, State.leaseSlot, State.lease?, h]
    rw [← e, ← e]
    rcases hx : s.lease? m with _ | l <;> simp [State.core, leaseSlot_modLease, hx, hf]
  · simp [State.core, leaseSlot_modLease_ne h, lease_modLease_ne h]

theorem core_modLease_ne {n m : Nat} (h : m - 1 ≠ n - 1) (f : Lease → Lease) (s : State) :
    (s.modLease m f).core n = s.core n := by simp [State.core, leaseSlot_modLease_ne h, lease_modLease_ne h]

@[simp] theorem core_modLink (n : Nat) (f : Link → Link) (s : State) : (s.modLink f).core n = s.core n := rfl
@[simp] theorem core_modStation (n i : Nat) (f : Station → Station) (s : State) :
    (s.modStation i f).core n = s.core n := rfl
@[simp] theorem core_modRoster (n : Nat) (f : Roster → Roster) (s : State) : (s.modRoster f).core n = s.core n := rfl
@[simp] theorem core_modEntry (n i : Nat) (f : Entry → Entry) (s : State) : (s.modEntry i f).core n = s.core n := rfl
@[simp] theorem core_modSolar (n : Nat) (f : Solar → Solar) (s : State) : (s.modSolar f).core n = s.core n := rfl
@[simp] theorem core_modMap (n : Nat) (f : StratumMap → StratumMap) (s : State) :
    (s.modMap f).core n = s.core n := rfl
@[simp] theorem core_modBook (n : Nat) (f : Book → Book) (s : State) : (s.modBook f).core n = s.core n := rfl
@[simp] theorem core_modCoverage (n : Nat) (f : Coverage → Coverage) (s : State) :
    (s.modCoverage f).core n = s.core n := rfl
@[simp] theorem core_modPort (n : Nat) (f : Port → Port) (s : State) : (s.modPort f).core n = s.core n := rfl
@[simp] theorem core_raise (n : Nat) (e : EventFlag) (s : State) : (s.raise e).core n = s.core n := rfl
@[simp] theorem core_raiseIf (n : Nat) (c : Bool) (e : EventFlag) (s : State) : (s.raiseIf c e).core n = s.core n := by
  cases c <;> rfl
@[simp] theorem core_bump (n : Nat) (s : State) : s.bump.core n = s.core n := rfl
@[simp] theorem core_countStale (n : Nat) (s : State) : s.countStale.core n = s.core n := rfl

@[simp] theorem core_markOvertaken (n i : Nat) (c : LinkCmd) (s : State) :
    (markOvertaken i c s).core n = s.core n := by
  unfold markOvertaken; split <;> rfl

@[simp] theorem core_place (n i : Nat) (c : LinkCmd) (s : State) : (place i c s).core n = s.core n := by
  unfold place; split <;> simp

@[simp] theorem core_stopTrial (n : Nat) (s : State) : (stopTrial s).core n = s.core n := by
  simp only [stopTrial]; repeat' split
  all_goals simp

theorem foldl_core_all {α : Type} (n : Nat) (f : State → α → State) (h : ∀ s a, (f s a).core n = s.core n)
    (l : List α) (s : State) : (l.foldl f s).core n = s.core n :=
  foldl_keeps (State.core · n) f h l s

/-- The arbiter changes no more of a lease than its rates and whether it is THROTTLED. -/
@[simp] theorem core_settle (n : Nat) (b s : State) : (settle b s).core n = s.core n := by
  have h1 : ∀ s m, (takePower s m).core n = s.core n := fun s m => by (apply core_modLease; intro _; rfl)
  have h2 : ∀ s m, (givePower s m).core n = s.core n := by
    intro s m; simp only [givePower]; repeat' split
    · rfl
    · rfl
    · (apply core_modLease; intro _; rfl)
  have h3 : ∀ s m, (followEntitlement s m).core n = s.core n := fun s m => by (apply core_modLease; intro _; rfl)
  have h4 : ∀ s m, (followDemand b s m).core n = s.core n := by
    intro s m; unfold followDemand; repeat' split
    · rfl
    all_goals (apply core_modLease; intro _; rfl)
  have h5 : ∀ s m, (publishRate b s m).core n = s.core n := by
    intro s m
    have h : (s.modLease m fun l => { l with state := settledState s.map.valid l }).core n = s.core n := by
      apply core_modLease
      intro l
      cases h1 : s.map.valid && l.granted == l.entitlement <;>
        rcases hs : l.state <;> simp [Lease.core, settledState, hs, LeaseState.isRunning, h1]
    unfold publishRate; split
    · rfl
    · dsimp only
      split <;> simp [h]
  have h6 : ∀ s, (removeExcess s).core n = s.core n := by
    intro s
    have h := foldl_core_all n takePower h1 s.removalOrder s
    simp only [removeExcess]; split <;> simp [h]
  simp only [settle]
  rw [foldl_core_all n _ h5, restorePower, foldl_core_all n _ h2]
  split <;> simp [foldl_core_all n _ h4, foldl_core_all n _ h3, h6]

@[simp] theorem core_freeRates (n : Nat) (b s : State) : (freeRates b s).core n = s.core n := by
  simp only [freeRates]
  rw [foldl_core_all n _ fun s m => ?_, foldl_core_all n _ fun s m => ?_]
  · apply core_modLease; intro _; rfl
  · unfold followDemand; repeat' split
    · rfl
    all_goals (apply core_modLease; intro _; rfl)

@[simp] theorem core_settling (n : Nat) (f : State → State) (s : State) :
    (settling f s).core n = (f s).core n := by simp [settling]

section other

variable {n m : Nat} (h : m - 1 ≠ n - 1)

include h

theorem core_beginRevoking_ne (l : Lease) (r : LeaseOutcome) (s : State) :
    (beginRevoking m l r s).core n = s.core n := by
  unfold beginRevoking; rw [core_place]; exact core_modLease_ne h _ _

theorem core_endZeroHold_ne (s : State) : (endZeroHold m s).core n = s.core n := by
  unfold endZeroHold; repeat' split
  all_goals simp [core_beginRevoking_ne h]

theorem core_recharge_ne (s : State) : (recharge m s).core n = s.core n := by
  unfold recharge
  extract_lets s1
  have e : s1.core n = s.core n := by rw [core_settling]; exact core_modLease_ne h _ _
  clear_value s1
  split <;> simp [e]

theorem core_testFinishing_ne (s : State) : (testFinishing m s).core n = s.core n := by
  unfold testFinishing; repeat' split
  · rfl
  · rw [core_endZeroHold_ne h, core_settling]; exact core_modLease_ne h _ _
  · exact core_recharge_ne h s
  · rfl

theorem core_beginSuspension_ne (s : State) : (beginSuspension s m).core n = s.core n := by
  unfold beginSuspension; split
  · rfl
  · rw [core_place]; exact core_modLease_ne h _ _

theorem core_beginResumption_ne (s : State) : (beginResumption s m).core n = s.core n := by
  simp only [beginResumption]; repeat' split
  all_goals simp [core_beginRevoking_ne h, core_modLease_ne h]

end other

@[simp] theorem core_announceResume (n : Nat) (s : State) (m : Nat) : (announceResume s m).core n = s.core n := by
  unfold announceResume; repeat' split
  all_goals simp

/-- A slot whose lease neither heats nor is SUSPENDED, or that is free. -/
def State.atRest (s : State) (n : Nat) : Prop :=
  ∀ l, s.lease? n = some l → l.state.isHeating = false ∧ l.state ≠ .suspended

theorem atRest_of_core {s t : State} {n : Nat} (h : t.core n = s.core n) (hs : s.atRest n) : t.atRest n := by
  intro l hl
  have e : (t.lease? n).map Lease.core = (s.lease? n).map Lease.core := congrArg LeaseSlot.lease h
  rw [hl] at e
  rcases hq : s.lease? n with _ | q
  · simp [hq] at e
  · have hr := hs q hq
    simp only [hq, Option.map_some, Option.some.injEq] at e
    have es := congrArg Lease.state e
    revert hr es
    rcases h1 : l.state <;> rcases h2 : q.state <;>
      simp [Lease.core, h1, h2, LeaseState.isRunning, LeaseState.isHeating]

/-- Acting on the overlap leaves such a slot's core alone. -/
theorem core_actOnOverlap {n : Nat} (hn : 1 ≤ n) (b : State) {s : State} (hs : s.atRest n) :
    (actOnOverlap b s).core n = s.core n := by
  have h8 : ∀ m ∈ upTo8, 1 ≤ m := by decide
  have ha : ∀ m ∈ s.toSuspend, m - 1 ≠ n - 1 := by
    intro m hm e
    obtain ⟨h1, h2⟩ := List.mem_filter.mp hm
    have : m = n := by have := h8 m h1; omega
    subst this
    rcases hl : s.lease? m with _ | l
    · simp [hl] at h2
    · simp [hl, (hs l hl).1] at h2
  have hb : ∀ m ∈ s.toResume, m - 1 ≠ n - 1 := by
    intro m hm e
    obtain ⟨h1, h2⟩ := List.mem_filter.mp hm
    have : m = n := by have := h8 m h1; omega
    subst this
    rcases hl : s.lease? m with _ | l
    · simp [hl] at h2
    · simp [hl, (hs l hl).2] at h2
  simp only [actOnOverlap]
  rw [foldl_core n _ _ (fun m => m - 1 ≠ n - 1) (fun t m hm => core_testFinishing_ne hm t) hb,
    foldl_core_all n _ (core_announceResume n), core_settle,
    foldl_core n _ _ (fun m => m - 1 ≠ n - 1) (fun t m hm => core_beginResumption_ne hm t) hb,
    foldl_core n _ _ (fun m => m - 1 ≠ n - 1) (fun t m hm => core_beginSuspension_ne hm t) ha]

theorem core_testOverlap {n : Nat} (hn : 1 ≤ n) {s : State} (hs : s.atRest n) : (testOverlap s).core n = s.core n := by
  unfold testOverlap; split
  · rfl
  · exact core_actOnOverlap hn s hs

/-- Bringing every rate up to date, with the overlap test, leaves such a slot's core alone. -/
theorem core_resettle {n : Nat} (hn : 1 ≤ n) (b : State) {s : State} (hs : s.atRest n) :
    (resettle b s).core n = s.core n := by
  have e := core_freeRates n b s
  simp only [resettle]; split
  · rw [core_settle, e]
  · rw [core_actOnOverlap hn b (atRest_of_core e hs), e]

@[simp] theorem core_callOffTrial (n : Nat) (s : State) : (callOffTrial s).core n = s.core n := by simp [callOffTrial]

@[simp] theorem core_callOffEvicted (n : Nat) (s : State) : (callOffEvicted s).core n = s.core n := by
  unfold callOffEvicted; repeat' split
  all_goals simp

/-- What closes a step leaves such a slot's core alone. -/
theorem core_closing {n : Nat} (hn : 1 ≤ n) {s : State} (hs : s.atRest n) : (closing s).core n = s.core n := by
  simp only [closing, core_bump, core_callOffEvicted]
  exact core_testOverlap hn hs

@[simp] theorem core_tryTrial (n : Nat) (s : State) : (tryTrial s).core n = s.core n := by
  unfold tryTrial; repeat' split
  all_goals simp [startTrial]

@[simp] theorem core_passStart (n : Nat) (s : State) : (passStart s).core n = s.core n := by
  unfold passStart; repeat' split
  all_goals rfl

@[simp] theorem core_noteEligible (n : Nat) (b s : State) : (noteEligible b s).core n = s.core n := by
  unfold noteEligible; split <;> simp

end Sys2Proof.Machine
end

