-- ==== Sys2Proof/Laws/Requests.lean ====
section
/-! SUPPORT. A request of the host in its two cases: the port at work on another, and the port free to take it. -/

namespace Sys2Proof.Machine

/-- A request written while another is in work changes nothing (R175). -/
theorem request_working {code : Byte} {work : State → Reply} {s : State} (h : s.isWorking = true) :
    request code work s = s := by simp [request, h]

/-- A request taken: its work done and closed, and its answer in work. -/
theorem request_idle {code : Byte} {work : State → Reply} {s : State} (h : s.isWorking = false) :
    request code work s =
      (if (work s).status = .ok then closing (work s).state else (work s).state).answering code (work s).status
        (work s).fields := by simp [request, h]

/-- A request refused without effect. -/
theorem request_refused {code : Byte} {work : State → Reply} {s : State} {st : Status} (h : s.isWorking = false)
    (hw : work s = .no st s) (hst : st ≠ .ok) : request code work s = s.replies st code [] := by
  simp only [request_idle h, hw, Reply.no, if_neg hst]; rfl

/-- A request taken with an answer OK. -/
theorem request_ok {code : Byte} {work : State → Reply} {s t : State} {fields : List Byte} (h : s.isWorking = false)
    (hw : work s = .okWith fields t) : request code work s = (closing t).answering code .ok fields := by
  simp only [request_idle h, hw, Reply.okWith, if_true]

theorem query_working {code : Byte} {f : State → Status × List Byte} {s : State} (h : s.isWorking = true) :
    query code f s = s := by simp [query, h]

/-- A reading request taken. -/
theorem query_idle {code : Byte} {f : State → Status × List Byte} {s : State} (h : s.isWorking = false) :
    query code f s = s.replies (f s).1 code (f s).2 := by simp only [query, h]; rfl

theorem portRequest_working {code : Byte} {r : State → List Byte} {f : State → State} {s : State}
    (h : s.isWorking = true) : portRequest code r f s = s := by simp [portRequest, h]

theorem portRequest_idle {code : Byte} {r : State → List Byte} {f : State → State} {s : State}
    (h : s.isWorking = false) : portRequest code r f s = (f s).answering code .ok (r s) := by simp [portRequest, h]

section answering

variable (code : Byte) (st : Status) (fields : List Byte) (s : State)

@[simp] theorem answering_map : (s.answering code st fields).map = s.map := rfl
@[simp] theorem answering_book : (s.answering code st fields).book = s.book := rfl
@[simp] theorem answering_coverage : (s.answering code st fields).coverage = s.coverage := rfl
@[simp] theorem answering_admission : (s.answering code st fields).admission = s.admission := rfl
@[simp] theorem answering_roster : (s.answering code st fields).roster = s.roster := rfl
@[simp] theorem answering_link : (s.answering code st fields).link = s.link := rfl
@[simp] theorem answering_solar : (s.answering code st fields).solar = s.solar := rfl
@[simp] theorem answering_sanitise : (s.answering code st fields).sanitise = s.sanitise := rfl
@[simp] theorem answering_clock : (s.answering code st fields).clock = s.clock := rfl
@[simp] theorem answering_port : (s.answering code st fields).port = s.port.takes st code fields := rfl
@[simp] theorem answering_pending : (s.answering code st fields).pending = s.pending := rfl

end answering

/-- What a request taken OK leaves outside the port is what its work left, closed. -/
theorem answered_of_ok {code : Byte} {work : State → Reply} {s t : State} {fields : List Byte}
    (h : s.isWorking = false) (hw : work s = .okWith fields t) :
    ∃ u, request code work s = u ∧ u.port = t.port.takes .ok code fields ∧
      { u with port := t.port }.calm = t.calm ∧ { u with port := t.port }.shelf = t.shelf := by
  have hc := calm_eq_iff.mp (calm_closing t)
  refine ⟨_, rfl, ?_, ?_, ?_⟩
  · rw [request_ok h hw, answering_port, hc.2.2.2.2.2.2.2.2.1]
  · rw [request_ok h hw]
    rw [calm_eq_iff]
    exact ⟨hc.1, hc.2.1, hc.2.2.1, hc.2.2.2.1, hc.2.2.2.2.1, hc.2.2.2.2.2.1, hc.2.2.2.2.2.2.1, hc.2.2.2.2.2.2.2.1, rfl,
      hc.2.2.2.2.2.2.2.2.2⟩
  · rw [request_ok h hw]; exact shelf_closing t

end Sys2Proof.Machine
end

