-- ==== Sys2Proof/Tests/Slice0.lean ====
section
/-! SUPPORT. Tests: ill-formed operands, figures and frames the manual works out, and for every statement that has
hypotheses a state and operands that meet them. -/

-- One theorem at a time: each waits for the kernel, and a thread that waits keeps its stack.
set_option Elab.async false

namespace Sys2Proof.Tests

open Sys2Proof Sys2Proof.Machine

/-! ### Ill-formed operands are refused -/

def anIdentity : Identity := { signature := 0xD64E, serial := 7, classCode := 3, inlet := 5, cap := 3050,
                               dual := false }

def aBooking : BookTerms :=
  { dueDay := 812, dueMinute := 420, volume := 40, thetaMin := 450, lead := 90, repeatDays := none, preferred := none }

def aReading : Readings :=
  { s1 := 150, s2 := 200, s3 := 280, s4 := 360, s5 := 430, s6 := 490, s7 := 550, s8 := 580, collector := 700
    loopReturn := 300 }

theorem test_wellFormed_refuses_port_operands :
    ([.requestWriteRejected [0x00#8], .requestWriteWhileWorking [], .setClock 65536 0, .setClock 0 65536,
      .readParameter 256, .readStation 256, .setStation 0 256 0 0 0, .setStation 256 0 0 0 0, .setStation 0 0 65536 0 0,
      .setStation 0 0 0 256 0, .setStation 0 0 0 0 256, .clearBar 256, .relearn 256, .forget 256, .setSchedule [1],
      .setSchedule (List.replicate 32 256)] : List Instr).all (fun c => !c.wellFormed) = true := by decide +kernel

theorem test_wellFormed_refuses_parameters :
    ([.setStratumVolume 0 25, .setStratumVolume 9 25, .setStratumVolume 1 32768, .setThetaMax 32768,
      .setReserveLine (-32769),
      .setMargin 32768, .setLeaseParameter 15 1, .setLeaseParameter 19 1, .setLeaseParameter 16 32768,
      .setSitePowerBudget 32768, .setSolarRating 32768, .setAutoCap 32768, .setLoopParameter 31 1,
        .setLoopParameter 44 1,
      .setLoopParameter 32 32768, .setSanitiseSetting 47 1, .setSanitiseSetting 54 1,
      .setSanitiseSetting 48 32768] : List Instr).all (fun c => !c.wellFormed) = true := by decide +kernel

theorem test_wellFormed_refuses_book_and_lease_operands :
    ([.book { aBooking with dueDay := 65536 }, .book { aBooking with dueMinute := 65536 },
      .book { aBooking with volume := 65536 }, .book { aBooking with thetaMin := 32768 },
      .book { aBooking with lead := 65536 }, .book { aBooking with repeatDays := some 256 },
      .book { aBooking with preferred := some 256 },
      .amend { slot := 256, issue := 0 } ⟨none, none, none, none, none, none⟩,
      .amend { slot := 1, issue := 0 } ⟨some (65536, 0), none, none, none, none, none⟩,
      .amend { slot := 1, issue := 0 } ⟨some (0, 65536), none, none, none, none, none⟩,
      .amend { slot := 1, issue := 0 } ⟨none, some 65536, none, none, none, none⟩,
      .amend { slot := 1, issue := 0 } ⟨none, none, some 32768, none, none, none⟩,
      .amend { slot := 1, issue := 0 } ⟨none, none, none, some 65536, none, none⟩,
      .amend { slot := 1, issue := 0 } ⟨none, none, none, none, some (some 256), none⟩,
      .amend { slot := 1, issue := 0 } ⟨none, none, none, none, none, some (some 256)⟩,
      .withdraw { slot := 0, issue := 256 }, .release { slot := 256, issue := 0 },
      .lookupReservation { slot := 256, issue := 0 }, .openBoost 256 500 20 none, .openBoost 1 32768 20 none,
      .openBoost 1 500 65536 none, .openBoost 1 500 20 (some 4294967296), .revokeLease { slot := 16, issue := 0 },
      .lookupLease { slot := 0, issue := 16 }] : List Instr).all (fun c => !c.wellFormed) = true := by decide +kernel

theorem test_wellFormed_refuses_event_operands :
    ([.sweepComplete { aReading with s5 := 32768 }, .durationExpiry { slot := 16, issue := 0 },
      .finishingHoldExpiry { slot := 16, issue := 0 }, .revokeTimeout { slot := 16, issue := 0 },
      .learnedCapStepTimerExpiry { slot := 16, issue := 0 }, .declineCooldownExpiry 0, .declineCooldownExpiry 8,
      .retryTimerExpiry 0, .retryTimerExpiry 8, .identity 0 anIdentity, .identity 31 anIdentity,
      .identity 4 { anIdentity with signature := 65536 }, .identity 4 { anIdentity with serial := 4294967296 },
      .identity 4 { anIdentity with classCode := 256 }, .identity 4 { anIdentity with inlet := 256 },
      .identity 4 { anIdentity with cap := 65536 }, .status 31 0#8 none none,
      .status 4 0#8 (some { slot := 0, issue := 0 }) none, .status 4 0#8 none (some (.request 65536)),
      .status 4 0#8 none (some (.change 65536)), .status 4 0#8 none (some (.report 65536 0 false)),
      .status 4 0#8 none (some (.report 0 32768 false)), .status 4 0#8 none (some (.retire { slot := 16,
                                                                                             issue := 0 } 0)),
      .status 4 0#8 none (some (.confirm { slot := 1, issue := 0 } 65536)), .accept 31 { slot := 1, issue := 0 },
      .accept 4 { slot := 16, issue := 0 }, .decline 31 { slot := 1, issue := 0 }, .decline 4 { slot := 1,
                                                                                                issue := 16 },
      .ack 31 0x12#8] : List Instr).all (fun c => !c.wellFormed) = true := by decide +kernel

/-! ### Figures and frames that the manual works out -/

/-- The POLL to address 3 (§8.1). -/
theorem test_poll_frame : commandFrame 0 3 .poll = [0xA3#8, 0x02#8, 0x00#8, 0xDF#8] := by decide +kernel

/-- A STATUS with a REPORT as its bytes come (§8.2). -/
theorem test_status_bytes :
    answerOfBytes (sealed [0x44#8, 0x82#8, 0x08#8, 0x02#8, 0x12#8, 0x03#8, 0x00#8, 0x64#8, 0x02#8, 0x0C#8, 0x01#8]) =
      some (4, .status 0x02#8 (some { slot := 2, issue := 1 }) (some (.report 100 524 true))) := by decide +kernel

/-- The request frame of SET PARAMETER 11 at 6.0 K, read back (§11.2). -/
theorem test_request_frame : examine (requestFrame (.setMargin 60)) = .taken (.setMargin 60) := by decide +kernel

/-- S6 lost and recovered (§1.2): its probe at each of the sweeps n+1 to n+7. -/
theorem test_probe_lost_and_recovered :
    let at2 := Probe.file stratumRange 1634 { state := .valid, history := [522, 528, 525] }
    let at4 := Probe.file stratumRange 1710 (at2.file stratumRange 530)
    let at6 := (at4.file stratumRange 531).file stratumRange 529
    at2 = { state := .faulted, history := [] } ∧ at4 = { state := .faulted, history := [] } ∧
      at6 = { state := .faulted, history := [531, 529] } ∧
      at6.file stratumRange 532 = { state := .valid, history := [531, 529, 532] } ∧
      filtered [531, 529, 532] = 531 ∧ filtered [526, 522, 528] = 526 := by decide +kernel

/-- S1, S2 and S7 faulted (§1.2): S7 takes S6's temperature, S1 and S2 take S3's. -/
theorem test_strata_filled :
    (upTo8.map fun n => fillSource (fun k => !([1, 2, 7].contains k)) n) =
      [some 3, some 3, some 3, some 4, some 5, some 6, some 6, some 8] := by decide +kernel

theorem test_guard_bands :
    guardOf true 819 850 = .clear ∧ guardOf true 820 850 = .half ∧ guardOf true 849 850 = .half ∧
      guardOf true 850 850 = .shut ∧ guardOf false 300 850 = .shut := by decide +kernel

/-! ### A small part -/

/-- The temperatures of the pass of 06:10, S1 to S8 (§3.6). -/
def morning : List Temp := [150, 200, 280, 360, 430, 490, 550, 580]

/-- A READY heat pump at an address, with its inlet at S5. -/
def aPump (addr : Nat) : Entry :=
  { Entry.absent with
    state := .ready, address := addr, serial := 7, cls := .heatPump, inlet := 5, declared := 3000, learned := some 3000
    rank := some 1 }

/-- A part with its clock set, a VALID map, and a heat pump at address 4 as entry 1; nothing is booked or leased. -/
def part : State :=
  { State.reset with
    map :=
      { StratumMap.initial with
        valid := true, guard := .clear, swept := true
        strata := Vector.ofFn fun i : Fin 8 =>
          { Stratum.initial with temp := morning.getD i.val 0
                                 probe := { state := .valid, history := [morning.getD i.val 0] } } }
    admission := { Admission.initial with guard := .clear }
    roster := { Roster.initial with entries := tset Roster.initial.entries 1 (aPump 4) }
    link := { Link.initial with linkClear := false, enumeration := .idle }
    clock := { set := true, day := 812, minute := 370, second := 0 }
    port := { Port.initial with flags := 0#16 } }

def aHandle : Handle := { slot := 1, issue := 0 }

/-- A TOPUP lease on entry 1, ADMITTED at 3,000 W. -/
def aLease : Lease :=
  { Lease.fresh .topUp .part 1 5 550 with
    state := .admitted, entitlement := 3000, granted := 3000, budget := some 200, limit := some 7200,
      timer := some 14400
    serve := [aHandle], handovers := some 0, grantSent := true }

/-- The part with a lease in slot 1. -/
def leased (l : Lease) : State := part.setLeaseSlot 1 { issue := 0, lease := some l }

/-- A record as it stands after a verdict. -/
def aRecord (st : ResState) : Reservation :=
  { Reservation.booked aBooking with state := st }

/-- The part with a record in slot 1 of its book. -/
def booked (st : ResState) : State := part.setBookSlot 1 { issue := 0, record := some (aRecord st) }

/-- The part with its loop in a state, and the SOLAR lease of one that has it. -/
def looping (st : LoopState) : State :=
  ((leased { Lease.fresh .solar .part 0 1 850 with state := .throttled, entitlement := 4000 }).modSolar fun v =>
    { v with state := st, pump := 100, prime := some 5, step := some 5, stop := some 5,
             target := some 60 }).modAdmission
    fun a => { a with order := [aHandle] }

/-- The part with a command to entry 1 in flight. -/
def sending (c : LinkCmd) (s : State) : State :=
  s.modLink fun k =>
    { k with exchange := some { addr := 4, cmd := c, source := .queue 0 3, bore := false, overtaken := false } }

/-- The part with a request in work. -/
def busy : State := part.replies .ok 0x10#8 [1#8, 0#8]

/-- The verdicts and claims of the pass of 06:10 (§3.6). -/
theorem test_two_passes_first :
    let day (slot v m : Nat) (t : Temp) : PassRecord :=
      { handle := { slot := slot, issue := 0 }, terms := { aBooking with volume := v, dueMinute := m, thetaMin := t } }
    let out := judgeAll 5 50 part.layers [day 3 40 420 450, day 1 30 450 500, day 5 60 1140 400]
    out.1.map (·.2) =
        [⟨false, 40, 7, 0, 0, false, true⟩, ⟨true, 10, 6, 20, 140, false, false⟩, ⟨true, 30, 3, 30, 59, true, false⟩] ∧
      out.2.map (fun l => (l.no, l.claimed)) =
        [(8, 25), (7, 25), (6, 25), (5, 25), (4, 25), (3, 5), (2, 0), (1, 0)] := by decide +kernel

/-- One lease's commands (§8.4): SET RATE, AMEND and SUSPEND as they are placed, and the RESUME that finds the SUSPEND
waiting. -/
theorem test_one_leases_commands :
    let h : Handle := { slot := 2, issue := 0 }
    let v : LeaseView := { ackRate := some 3000, runView := some .running, resumeInFlight := false }
    let put := fun c q => coalesce (fun _ => true) v c 9 q
    let q3 := put (.suspend h) (put (.amend h 570 (some 384)) (put (.setRate h 1000) (put (.setRate h 2000) [])))
    q3.map (·.cmd) = [.amend h 570 (some 384), .suspend h] ∧
      (put (.resume h 1000) q3).map (·.cmd) = [.amend h 570 (some 384), .setRate h 1000] ∧
      (put (.resume h 3000) q3).map (·.cmd) = [.amend h 570 (some 384)] ∧
      (put (.revoke h) [{ cmd := .resume h 1500, age := 4 }]).map (·.cmd) = [.revoke h] := by decide +kernel

/-- The automatic target at the end of priming (§9.4): half of 42.0 K. -/
theorem test_automatic_target :
    (part.modMap fun m =>
      { m with collector := { m.collector with temp := 620 }
               strata := tset m.strata 0 { Stratum.initial with temp := 200 } }).autoTarget = 210 := by decide +kernel

/-- A booking and an impatient host (§11.3): BUSY names the BOOK in work, and its answer is the new handle. -/
theorem test_impatient_host :
    (Port.read 4 busy.port).dataOut = sealed [0x0B#8, 0x01#8, 0x10#8] ∧
      (Port.read 6 (Port.placeAnswer busy.port)).dataOut = sealed [0x00#8, 0x03#8, 0x10#8, 0x01#8, 0x00#8] ∧
      (Port.read 5 (Port.placeAnswer busy.port)).ready = true ∧
      (Port.read 6 (Port.placeAnswer busy.port)).ready = false := by decide +kernel

/-! ### The hypotheses of the statements are met -/

/-- A property of the numbers 1 to `m`, from its instances. -/
theorem each {m : Nat} {p : Nat → Prop} (h : ∀ k : Fin m, p (k.val + 1)) : ∀ n, 1 ≤ n → n ≤ m → p n := by
  intro n h1 h2
  have e : n - 1 + 1 = n := by omega
  have := h ⟨n - 1, by omega⟩
  simpa [e] using this

theorem test_meets_queue_and_step :
    ({ part with pending := [.identifyPart] } : State).pending = .identifyPart :: [] ∧ part.pending = [] ∧
      part.map.sweepIn ≤ 1 ∧ (leased { aLease with timer := some 2 }).pending = [] ∧
      (leased { aLease with timer := some 2 }).lease? 1 = some { aLease with timer := some 2 } ∧
      (leased { aLease with state := .finishing, hold := some 1 }).lease? 1 =
        some { aLease with state := .finishing, hold := some 1 } ∧
      (leased { aLease with state := .revoking, revokeTime := some 1 }).lease? 1 =
        some { aLease with state := .revoking, revokeTime := some 1 } := by decide +kernel

theorem test_meets_port :
    busy.port.state = .working { status := .ok, code := 0x10#8, fields := [1#8, 0#8] } ∧
      part.isWorking = false ∧ (requestCode .readEvents).isSome = true ∧ isReading .readStrata = true ∧
      (Port.placeAnswer busy.port).state = .held { status := .ok, code := 0x10#8, fields := [1#8, 0#8] } ∧
      part.port.state = .empty ∧ part.parameter? 9 = some 850 ∧ part.parameter? 53 = some 180 ∧
      ([0x10#8, 0x00#8].headD 0#8 : Byte) ≠ 0#8 ∧ (Instr.setMargin 60).wellFormed = true ∧
      Instr.readEvents ≠ .reset ∧ (part.raise .served).flagged .served = true ∧
      examine (requestFrame .halt) = .taken .halt ∧ examine (requestFrame .readEvents) = .taken .readEvents := by
  decide +kernel

/-- The port's three checks fail on a bad CRC, on a code outside the catalogue and on a length that it does not allow.
-/
theorem test_meets_bad_request :
    let sound : List Byte → Prop := fun b => b.length = (b.getD 1 0#8).toNat + 3 ∧ (b.getD 1 0#8).toNat ≤ 60 ∧
      b.getLast? = some (crc8 b.dropLast)
    ¬sound [0x10#8, 0x00#8, 0x00#8] ∧ sound (sealed [0x0B#8, 0x00#8]) ∧ requestLength 0x0B = none ∧
      sound (sealed [0x10#8, 0x00#8]) ∧ requestLength 0x10 = some 14 := by decide +kernel

/-- Handles outside the table, of another issue, of a free slot and of a live record or lease. -/
theorem test_meets_handles :
    (booked .booked).isWorking = false ∧ (booked .booked).resolveReservation { slot := 25, issue := 0 } = .badField ∧
      (booked .booked).resolveReservation { slot := 24, issue := 0 } = .noSuch ∧
      (booked .booked).resolveReservation { slot := 1, issue := 1 } = .stale ∧
      (booked .booked).resolveReservation aHandle = .live ∧ (leased aLease).resolveLease aHandle = .live ∧
      (leased aLease).resolveLease { slot := 8, issue := 0 } = .noSuch ∧
      (leased aLease).resolveLease { slot := 9, issue := 0 } = .badField ∧
      (leased aLease).resolveLease { slot := 1, issue := 15 } = .stale ∧ (part.entry 2).state = .absent ∧
      (part.entry 1).state ≠ .absent ∧ (booked .booked).record? 1 = some (aRecord .booked) ∧
      (leased aLease).lease? 1 = some aLease := by decide +kernel

/-- A sweep in flight over a map that a fault invalidates, and over one that it leaves VALID. -/
theorem test_meets_sweep :
    let s := part.modMap fun m => { m with sweeping := true }
    let bad := { aReading with s1 := 2000, s2 := 2000, s3 := 2000, s4 := 2000, s5 := 2000, s6 := 2000, s7 := 2000,
                               s8 := 2000 }
    s.map.sweeping = true ∧ part.map.sweeping = false ∧ (s.map.afterSweep aReading).valid = true ∧
      (s.map.afterSweep bad).valid = false ∧ s.map.valid = true ∧ State.reset.map.swept = false ∧
      (∃ p ∈ s.map.probes.zip (s.map.afterSweep bad).probes, p.1.state = .valid ∧ p.2.state = .faulted) := by
  decide +kernel

/-- A probe of each state at both ends of its range and beyond, and a map with a FAULTED stratum between VALID ones. -/
theorem test_meets_readings :
    stratumRange.accepts 1100 = true ∧ stratumRange.accepts 1101 = false ∧ stratumRange.accepts (-100) = true ∧
      (Probe.initial.history.length ≤ 3) ∧
      (let m := part.map.filedProbe { aReading with s7 := 2000 }
       (m 6).state = .valid ∧ (m 7).state = .faulted ∧ (m 8).state = .valid) := by decide +kernel

/-- A hold that counts and one that is satisfied. -/
theorem test_meets_hold :
    let s := (part.modMap fun m => { m with sweeping := true }).modSanitise fun m =>
      { m with interval := some 7, floor := 8, temp := 570, hold := 10, accumulator := 590 }
    s.map.sweeping = true ∧ s.sanitise.interval ≠ none ∧ s.sanitise.lastDay ≠ some s.clock.day ∧
      (s.map.afterSweep aReading).valid = true ∧ s.sanitise.temp ≤ ((s.map.afterSweep aReading).stratum 8).temp ∧
      60 * s.sanitise.hold ≤ s.sanitise.accumulator + 10 ∧ 570 + 10 < 60 * s.sanitise.hold := by decide +kernel

theorem test_meets_cylinder_parameters :
    part.isWorking = false ∧ (part.stratum 8).volume ≠ Int.toNat 125 ∧ part.map.thetaMax ≠ 950 ∧
      part.map.reserveLine ≠ 2 ∧ part.map.reserveLine < 8 ∧ part.sanitise.floor < 8 ∧ part.map.margin ≠ 20 ∧
      guardOf part.map.valid (part.temp 8) 600 ≠ part.map.guard ∧ part.map.valid = true := by decide +kernel

/-- The record's volume still fits after one stratum shrinks. -/
theorem test_meets_volume_fits :
    ∀ k r, 1 ≤ k → k ≤ 24 → (booked .booked).record? k = some r → r.state.isOpen = true →
      r.terms.volume ≤ ((booked .booked).map.withVolume 1 5).cylinderVolume := by
  have h : ∀ k : Fin 24, ((booked .booked).record? (k.val + 1)).all fun r => decide
      (r.terms.volume ≤ ((booked .booked).map.withVolume 1 5).cylinderVolume) := by decide +kernel
  intro k r h1 h2 hr _
  have := each (p := fun k => ((booked .booked).record? k).all fun r => decide
      (r.terms.volume ≤ ((booked .booked).map.withVolume 1 5).cylinderVolume)) h k h1 h2
  simpa [hr] using this

/-- A booking that is placed, and the checks that refuse one. -/
theorem test_meets_booking :
    part.isWorking = false ∧ part.bookFault aBooking = none ∧ aBooking.volume ≤ part.map.cylinderVolume ∧
      part.clock.now < dueOf aBooking ∧ part.record? 1 = none ∧ State.reset.clock.set = false ∧
      bookFieldsOk aBooking = true ∧ bookFieldsOk { aBooking with lead := 361 } = false ∧
      dueOf { aBooking with dueMinute := 370 } ≤ part.clock.now ∧
      part.map.cylinderVolume < ({ aBooking with volume := 201 } : BookTerms).volume := by decide +kernel

/-- A full book. -/
theorem test_meets_full_book :
    let s := part.modBook fun b => { b with slots := Vector.replicate 24 { issue := 0,
                                                                           record := some (aRecord .booked) } }
    (∀ n, 1 ≤ n → n ≤ 24 → s.record? n ≠ none) ∧ s.clock.set = true := by
  exact ⟨each (by decide +kernel), rfl⟩

/-- An AMEND without effect, one with, and records in open and terminal states. -/
theorem test_meets_book_requests :
    let s := booked .atRisk
    let same : AmendTerms := ⟨some (812, 420), none, none, none, none, none⟩
    let other : AmendTerms := ⟨none, some 41, none, none, some (some 1), none⟩
    let wide : AmendTerms := ⟨none, some 201, none, none, none, none⟩
    let late : AmendTerms := ⟨some (812, 370), none, none, none, none, none⟩
    s.isWorking = false ∧ s.resolveReservation aHandle = .live ∧ s.amendFault (aRecord .atRisk) same = none ∧
      amendedTerms same aBooking = aBooking ∧ s.amendFault (aRecord .atRisk) other = none ∧
      amendedTerms other aBooking ≠ aBooking ∧ (aRecord .atRisk).state.isOpen = true ∧
      s.map.cylinderVolume < wide.volume.getD 0 ∧ (late.due.map fun d => d.1 * 1440 + d.2) = some s.clock.now ∧
      (booked .missed).resolveReservation aHandle = .live ∧ (aRecord .missed).state.isOpen = false := by decide +kernel

/-- Dues of one-off and repeating records, in window and at the clock's last days. -/
theorem test_meets_due :
    dueOf aBooking ≤ 812 * 1440 + 420 ∧ (aRecord .covered).state.isOpen = true ∧
      ((aRecord .booked).afterDue (812 * 1440 + 420)).state = .missed ∧
      (Reservation.afterDue (812 * 1440 + 420)
        { aRecord .covered with terms := { aBooking with repeatDays := some 2 } }).terms.dueDay = 814 ∧
      (Reservation.afterDue (65535 * 1440 + 420)
        { aRecord .covered with terms := { aBooking with dueDay := 65535, repeatDays := some 1 } }).state = .served ∧
      inWindow (812 * 1440 + 330) aBooking = true ∧ inWindow (812 * 1440 + 329) aBooking = false := by decide +kernel

theorem test_meets_clock :
    part.clock.legal ∧ part.isWorking = false ∧ part.clock.set = true ∧
    (part.clock.day < 65535 ∨ part.clock.minute < 1439) ∧
      State.reset.clock.legal ∧ State.reset.clock.set = false ∧
      ({ set := true, day := 65535, minute := 1439, second := 59 } : Clock).legal := by
  refine ⟨?_, by decide +kernel, by decide +kernel, by decide +kernel, ?_, by decide +kernel, ?_⟩ <;>
    (unfold Clock.legal; decide +kernel)

/-- Walks over the morning's layers that end in COVERED and in AT_RISK. -/
theorem test_meets_walks :
    (∀ l ∈ part.layers, l.claimed ≤ l.volume) ∧ (coverageWalk 450 40 part.layers).need = 0 ∧
      0 < (coverageWalk 500 60 part.layers).need ∧ 0 < (accountingWalk 201 part.layers).need ∧
      (coverageWalk 700 40 part.layers).taken = [] := by decide +kernel

theorem test_meets_selection :
    part.eligibleSet = [1] ∧ part.selectStation (some 1) 8 = some 1 ∧ part.selectStation (some 2) 8 = some 1 ∧
    part.selectStation none 3 = some 1 ∧
      State.reset.eligibleSet = [] := by decide +kernel

/-- A pass in flight over one record. -/
theorem test_meets_pass :
    let s := (booked .booked).modCoverage fun c => { c with pass := some (booked .booked).snapshot, rerun := true }
    s.coverage.legal ∧ s.coverage.pass = some (booked .booked).snapshot ∧ s.coverage.rerun = true ∧
      s.map.valid = true ∧ ((booked .booked).snapshot.results.1.all fun rv =>
        s.passRecord? (booked .booked).snapshot rv.1 == some (aRecord .booked)) = true ∧
      (booked .booked).snapshot.records.length = 1 := by
  refine ⟨?_, by decide +kernel⟩
  intro p hp
  obtain rfl : (booked .booked).snapshot = p := Option.some.inj hp
  decide +kernel

theorem test_meets_boost :
    part.isWorking = false ∧ part.admission.halted = false ∧ part.map.valid = true ∧ part.eligible 1 = true ∧
      500 ≤ part.unallocated ∧ part.lease? 1 = none ∧ (550 : Temp) ≤ part.map.thetaMax ∧
      (part.modAdmission fun a => { a with siteBudget := 400 }).unallocated < 500 ∧ part.eligible 2 = false ∧
      State.reset.map.valid = false := by decide +kernel

/-- Leases that the host revokes, that a timer ends, and that a revoke time ends. -/
theorem test_meets_ends_of_leases :
    let off := leased { aLease with state := .offered, grantSent := false }
    let fin := leased { aLease with state := .finishing, hold := some 0 }
    let rev := leased { aLease with state := .revoking, reason := some .revoked, revokeTime := some 0 }
    (leased aLease).isWorking = false ∧ (leased aLease).resolveLease aHandle = .live ∧
      off.resolveLease aHandle = .live ∧ off.lease? 1 = some { aLease with state := .offered, grantSent := false } ∧
      (looping .charging).lease? 1 ≠ none ∧ (looping .charging).slotOfKind .solar = some 1 ∧
      fin.resolveLease aHandle = .live ∧ rev.resolveLease aHandle = .live ∧ aLease.holder ≤ 7 ∧
      aLease.timer = some 14400 ∧ part.resolveLease aHandle ≠ .live ∧
      (leased { aLease with kind := .sanitise }).resolveLease aHandle = .live := by decide +kernel

theorem test_meets_lost_budget :
    let s := (leased aLease).modAdmission fun a => { a with order := [aHandle], siteBudget := 1000 }
    (∀ n, 1 ≤ n → n ≤ 8 → s.holdsAllocation n = true → s.leaseState? n ≠ some .offered →
      ∃ h ∈ s.admission.order, h.slot = n) ∧ s.admission.siteBudget < s.allocated := by
  exact ⟨each (by decide +kernel), by decide +kernel⟩

theorem test_meets_halt_and_resume :
    let halted := part.modAdmission fun a => { a with halted := true }
    (leased aLease).admission.halted = false ∧ (leased aLease).lease? 1 = some aLease ∧ halted.admission.halted = true ∧
      halted.isWorking = false ∧ (looping .recooling).admission.halted = false := by decide +kernel

/-- A suspended lease with its context, and one whose budget the free heat has covered. -/
theorem test_meets_suspension :
    let ctx : SavedContext :=
      { state := .admitted, rate := 3000, timer := some 14400, hold := none, freeMark := 0, deliveredMark := 0 }
    let l := { aLease with state := .suspended, granted := 0, saved := some ctx }
    (leased aLease).lease? 1 = some aLease ∧ (leased l).lease? 1 = some l ∧
      ((leased l).modAdmission fun a => { a with freeHeat := 200 }).satisfiedByFree l ctx = true ∧
      (leased l).satisfiedByFree l ctx = false ∧
      (leased { aLease with waiting := true }).lease? 1 = some { aLease with waiting := true } := by decide +kernel

/-- A lease that waits for budget in FINISHING with 1,500 W of entitlement, whose finishing rate is 300 W (R110). -/
theorem test_waiting_in_finishing :
    let l := { aLease with state := .finishing, entitlement := 1500, granted := 0, waiting := true }
    ((givePower (leased l) 1).lease? 1).map (fun l => (l.granted, l.waiting)) = some (300, false) ∧
      ((givePower ((leased l).modAdmission fun a => { a with siteBudget := 499 }) 1).lease? 1) = some l := by
  decide +kernel

/-- The part is in order. -/
theorem test_part_is_legal : part.legal := by
  refine ⟨by unfold Clock.legal; decide +kernel, ⟨each (by decide +kernel), by decide +kernel⟩, ?_, ?_,
    ⟨by decide +kernel, ?_⟩, ?_,
    by unfold Admission.legal; decide +kernel, each (by decide +kernel)⟩
  · refine ⟨by decide +kernel, by decide +kernel, by decide +kernel, by decide +kernel, by decide +kernel,
    by decide +kernel,
      by decide +kernel, by decide +kernel, ?_, by decide +kernel⟩
    intro t h; cases h
  · refine ⟨?_, by decide +kernel⟩
    intro k h; cases h
  · have h : ∀ k : Fin 24, (part.bookSlot (k.val + 1)).issue < 16 ∧ part.record? (k.val + 1) = none := by decide +kernel
    intro n h1 h2
    have e := each (p := fun n => (part.bookSlot n).issue < 16 ∧ part.record? n = none) h n h1 h2
    exact ⟨e.1, fun r hr => by rw [e.2] at hr; cases hr⟩
  · intro p h; cases h

/-- Loop and sanitise settings at the ends of their ranges, and a step that is taken. -/
theorem test_meets_settings :
    part.isWorking = false ∧ part.parameter? 32 ≠ some 200 ∧ part.solar.params.stopDiff + 20 ≤ 60 ∧
      part.parameter? 36 ≠ some 30 ∧ part.parameter? 48 = some 0 ∧ part.parameter? 51 ≠ some 8 ∧
      (looping .charging).solar.state = .charging ∧ (looping .recooling).solar.state = .recooling ∧
      (looping .recooling).solar.params.recooling = false := by decide +kernel

theorem test_meets_roster_requests :
    let barred := part.modEntry 1 fun e => { e with state := .barred }
    part.isWorking = false ∧ (part.entry 1).state ≠ .absent ∧ (part.entry 1).cls.isBought = true ∧
      (part.entry 1).learned ≠ none ∧ (barred.entry 1).state = .barred ∧ (part.entry 7).state = .absent ∧
      part.slotHeldBy 1 = none ∧ (part.entry 1).partner = none ∧ (leased aLease).slotHeldBy 1 = some 1 ∧
      ((part.modEntry 1 fun e => { e with learned := none }).entry 1).learned = none := by decide +kernel

theorem test_meets_roster_timers :
    let s := (part.modEntry 1 fun e => { e with cooldown := some 0, retry := some 0, failures := 6 }).modRoster fun r =>
      { r with trial := some { entry := 1, rate := 3000, energy := 0, window := some 0 } }
    let l := { aLease with limitMark := true, stepTimer := some 0 }
    (s.entry 1).cooldown ≠ none ∧ (s.entry 1).retry ≠ none ∧ (s.entry 1).failures = 6 ∧
      s.roster.trial = some { entry := 1, rate := 3000, energy := 0, window := some 0 } ∧ part.roster.trial = none ∧
      (part.entry 1).cooldown = none ∧ (part.entry 1).failures < 6 ∧ (leased l).resolveLease aHandle = .live ∧
      (leased l).lease? 1 = some l ∧ (leased aLease).lease? 1 = some aLease := by decide +kernel

theorem test_meets_link_requests :
    let clear : Exchange := { addr := 31, cmd := .linkClear, source := .broadcast, bore := false, overtaken := false }
    let s := part.modLink fun k => { k with exchange := some clear, enumeration := .due }
    part.link.enumeration = .idle ∧ s.link.enumeration ≠ .idle ∧ s.link.linkClear = false ∧
      s.link.exchange = some clear ∧ part.link.exchange = none ∧ (List.replicate 32 7).length = 32 ∧
      (sending .poll part).link.exchange ≠ none ∧
      (part.modLink fun k => { k with enumeration := .running 30 }).link.enumeration = .running 30 := by decide +kernel

/-- Decisions of each of the five steps. -/
theorem test_meets_arbiter :
    let queued := fun c => part.modStation 1 fun t => { t with queue := [{ cmd := c, age := 4 }] }
    let rolling := part.modLink fun k => { k with callLow := true, roll := some { cursor := 1, heard := false } }
    part.link.exchange = none ∧ part.link.allStop = false ∧ part.link.linkClear = false ∧
      ((queued (.revoke aHandle)).station 1).queue[0]? = some { cmd := .revoke aHandle, age := 4 } ∧
      (part.entry 1).state.isHeard = true ∧ (part.entry 2).state.isHeard = false ∧ rolling.link.roll ≠ none ∧
      part.unscheduled = none ∧ (part.modLink fun k => { k with schedule := tset k.schedule 31 1 }).nextSlot = some 32 ∧
      part.link.probeDue = false ∧ part.link.pairProbe = none ∧ part.link.discoveryCursor = 1 ∧
      (part.modLink fun k => { k with probeDue := true }).indexAt 1 = none ∧
      (queued (.refuse .halted)).unscheduled = some 1 ∧ (queued (.refuse .halted)).link.cursor = 1 ∧
      (part.modLink fun k => { k with callLow := true, ignoring := some 10 }).link.roll = none := by decide +kernel

theorem test_meets_identity :
    let s := sending .identify part
    let away := (sending .identify part).modLink fun k => { k with exchange := k.exchange.map fun x => { x with addr
        := 9 } }
    let lost := s.modEntry 1 fun e => { e with state := .lost }
    s.link.exchange = some { addr := 4, cmd := .identify, source := .queue 0 3, bore := false, overtaken := false } ∧
      s.indexAt 4 = some 1 ∧ away.indexAt 9 = none ∧ (away.entry 2).state = .absent ∧ (away.entry 1).state ≠ .absent ∧
      soundClass anIdentity = some .heatPump ∧ (lost.entry 1).serial = anIdentity.serial ∧ lost.indexAt 4 = some 1 ∧
      (lost.entry 1).state = .lost ∧ soundClass { anIdentity with inlet := 9 } = none := by decide +kernel

theorem test_meets_status :
    let s := sending .poll part
    let t := sending .poll (leased aLease)
    s.indexAt 4 = some 1 ∧ (s.entry 1).state ≠ .lost ∧ (0x07#8 : Byte).getLsbD 3 = false ∧ s.slotHeldBy 1 = none ∧
      t.slotHeldBy 1 = some 1 ∧ t.lease? 1 = some aLease ∧ t.roster.trial = none ∧
      ((s.modEntry 1 fun e => { e with state := .identifying }).entry 1).state = .identifying := by decide +kernel

theorem test_meets_accept_decline_ack :
    let l := { aLease with state := .offered }
    let s := sending (.grant aHandle .topUp 3000 550 (some 200)) (leased l)
    let q := (sending (.qualify 3000) part).modRoster fun r =>
      { r with trial := some { entry := 1, rate := 3000, energy := 0, window := none } }
    s.indexAt 4 = some 1 ∧ s.resolveLease aHandle = .live ∧ s.lease? 1 = some l ∧ l.holder = 1 ∧
      (sending (.setRate aHandle 2000) (leased aLease)).resolveLease aHandle = .live ∧ q.toSuspend = [] ∧
      q.toResume = [] ∧ q.roster.trial = some { entry := 1, rate := 3000, energy := 0,
                                                window := none } := by decide +kernel

theorem test_meets_failed_exchange :
    let s := sending (.refuse .notReady) part
    answerOfBytes [0x44#8] = none ∧ s.indexAt 4 = some 1 ∧ (s.entry 1).missed < 2 ∧ s.toSuspend = [] ∧ s.toResume = [] ∧
      s.roster.trial = none ∧ (s.station 1).queue.length < 4 ∧
      2 ≤ ((s.modEntry 1 fun e => { e with missed := 2 }).entry 1).missed ∧ (s.entry 1).state.isHeard = true ∧
      s.indexAt 9 = none := by decide +kernel

theorem test_meets_queues :
    let q : List Queued := [{ cmd := .setRate aHandle 100, age := 1 }, { cmd := .refuse .halted, age := 2 }]
    LinkCmd.handle? (.suspend aHandle) = some aHandle ∧ LinkCmd.code (.suspend aHandle) ≠ 0x10#8 ∧ q.length < 4 ∧
      ∀ k : Byte, (q.filter fun x => x.cmd.handle? == some aHandle && x.cmd.code == k).length ≤ 1 := by
  refine ⟨rfl, by decide, by decide, fun k => ?_⟩
  simp only [List.filter, LinkCmd.handle?]
  split <;> simp

/-- A loop in each state that a timer or REMEASURE acts on, and a pulse that is metered. -/
theorem test_meets_loop :
    (looping .priming).solar.state = .priming ∧ (looping .priming).solar.prime ≠ none ∧
      (looping .charging).solar.step ≠ none ∧ (looping .charging).solar.target = some 60 ∧
      (looping .regulating).solar.stop ≠ none ∧ (looping .charging).solar.params.fixedTarget = none ∧
      (looping .charging).solar.remeasure = none ∧ (looping .charging).isWorking = false ∧
      (looping .charging).slotOfKind .solar = some 1 ∧ (part.lease? 8) = none := by decide +kernel

/-- The meter at a return 4.0 K over S1 (R163): 40 × 10 × 1163 is 465,200, which credits 4 Wh and carries 65,200. -/
theorem test_pulse :
    let s := (looping .charging).modMap fun m => { m with loopReturn := { m.loopReturn with temp := 190 } }
    (takePulse s).solar.remainder = 65200 ∧ ((takePulse s).lease? 1).map (·.delivered) = some 4 := by decide +kernel

/-- A step from a state in order. -/
theorem test_meets_invariant : part.legal ∧ step part = .next (tick part) := ⟨test_part_is_legal, rfl⟩

/-! ### Lease tables in order -/

/-- A lease stands in order, as the kernel decides it. -/
def leaseOk (s : State) (n : Nat) (l : Lease) : Bool :=
  decide ((l.kind = .solar ↔ l.holder = 0) ∧ l.holder ≤ 7 ∧ (l.holder ≠ 0 → (s.entry l.holder).state = .ready)) &&
    (countTo 8).all (fun k => (s.lease? k).all fun l' => decide (l'.holder = l.holder → k = n)) &&
    decide ((s.entry l.holder).cls.isBought = l.kind.isBought ∧ (l.budget ≠ none → l.kind = .topUp ∨ l.kind = .boost)) &&
    decide ((l.reason ≠ none ↔ l.state = .revoking) ∧ (l.saved ≠ none ↔ l.state = .suspended)) &&
    l.saved.all (fun ctx => ctx.state.isHeating &&
      decide (ctx.hold ≠ none ↔ ctx.state = .finishing ∧ l.kind ≠ .sanitise)) &&
    decide ((l.hold ≠ none ↔ l.state = .finishing ∧ l.kind ≠ .sanitise) ∧
      (l.state = .finishing ∨ l.state = .suspended → l.kind.isBought = true)) &&
    decide (l.state.isHeating = true ∨ l.state = .suspended → s.leaseHandle n ∈ s.admission.order) &&
    (s.station l.holder).queue.all (fun x =>
      decide (x.cmd.handle? = some (s.leaseHandle n) → l.state.mayWait x.cmd = true)) &&
    decide ((l.kind ≠ .topUp → l.serve = []) ∧ l.serve.length ≤ 8 ∧ l.serve.Nodup) &&
    l.serve.all fun h => decide (1 ≤ h.slot ∧ h.slot ≤ 24) &&
      (s.recordOf? h).any fun x => decide (x.topUp = some (s.leaseHandle n))

/-- The commands that wait for an entry are in order, as the kernel decides it. -/
def queueOk (s : State) (i : Nat) : Bool :=
  let q := (s.station i).queue
  q.all (fun x => x.cmd.handle?.all fun h => decide (x.cmd = .revoke h ∨ s.bears i x.cmd = true)) &&
    decide (q.map fun x => (x.cmd.handle?, x.cmd.code)).Nodup &&
    q.all (fun x => q.all fun y => decide (x.cmd.handle? = y.cmd.handle? → x.cmd.code = 0x13#8 → y.cmd.code ≠ 0x14#8)) &&
    decide ((q.filter fun x => s.bears i x.cmd).length < 4)

/-- The lease table is in order, as the kernel decides it. -/
def tableOk (s : State) : Bool :=
  (countTo 8).all (fun n => (s.lease? n).all (leaseOk s n)) && decide s.admission.order.Nodup &&
    s.admission.order.all (fun h => (s.leaseOf? h).any fun l => decide (l.state ≠ .offered)) &&
    (countTo 24).all (fun n => (s.record? n).all fun x => x.topUp.all fun h =>
      x.state.isOpen && (s.leaseOf? h).any fun l => decide (s.bookHandle n ∈ l.serve)) &&
    decide ((countTo 8).any (fun n => (s.lease? n).any fun l => decide (l.kind = .solar)) = true ↔
      s.solar.state.hasLease = true) &&
    decide ((s.entry 0).cls = .solarThermal) &&
    s.roster.trial.all (fun y => decide (1 ≤ y.entry ∧ y.entry ≤ 7 ∧ (s.entry y.entry).state = .qualifying)) &&
    (countTo 7).all (queueOk s)

theorem mem_countTo {m n : Nat} : n ∈ countTo m ↔ 1 ≤ n ∧ n ≤ m := by
  simp only [countTo, List.mem_map, List.mem_range]
  exact ⟨by rintro ⟨k, h, rfl⟩; omega, fun h => ⟨n - 1, by omega, by omega⟩⟩

theorem queueInOrder_of (s : State) (i : Nat) (h : queueOk s i = true) : s.queueInOrder i := by
  simp only [queueOk, Bool.and_eq_true, decide_eq_true_eq, List.all_eq_true, Option.all_eq_true] at h
  obtain ⟨⟨⟨h1, h2⟩, h3⟩, h4⟩ := h
  exact ⟨fun x m a e => h1 x m a e, h2, fun x m y m' a r e e' => h3 x m y m' (by rw [e, e']; rfl) (by rw [e]; rfl)
    (by rw [e']; rfl), h4⟩

theorem tableInOrder_of (s : State) (h : tableOk s = true) : s.tableInOrder := by
  simp only [tableOk, leaseOk, Bool.and_eq_true, decide_eq_true_eq, List.all_eq_true, List.any_eq_true,
    Option.all_eq_true,
    Option.any_eq_true, mem_countTo, and_imp] at h
  obtain ⟨⟨⟨⟨⟨⟨⟨h1, h2⟩, h3⟩, h4⟩, h5⟩, h6⟩, h7⟩, h8⟩ := h
  refine ⟨fun n l a b e => ?_, h2, h3, fun n x h a b e e' => h4 n a b x e h e', ?_, h6, h7,
    fun i a b => queueInOrder_of s i (h8 i a b)⟩
  · obtain ⟨⟨⟨⟨⟨⟨⟨⟨⟨c1, c2⟩, c3⟩, c4⟩, c5⟩, c0⟩, c6⟩, c7⟩, c8⟩, c9⟩ := h1 n a b l e
    exact ⟨c1.1, c1.2.1, c1.2.2, fun k l' i j e2 => c2 k i j l' e2, c3.1, c3.2, c4.1, c4.2, c5, c0.1, c0.2, c6, fun _ => c7, c8.1,
      c8.2.1, c8.2.2, fun h m => ⟨(c9 h m).1.1, (c9 h m).1.2, (c9 h m).2⟩⟩
  · rw [← h5]
    exact ⟨fun ⟨n, l, a, b, e, k⟩ => ⟨n, ⟨a, b⟩, l, e, k⟩, fun ⟨n, ⟨a, b⟩, l, e, k⟩ => ⟨n, l, a, b, e, k⟩⟩

/-- The part with the lease in slot 1 that serves its one record. -/
def serving (l : Lease) : State :=
  ((((booked .atRisk).modRecord 1 fun r => { r with topUp := some aHandle }).setLeaseSlot 1
    { issue := 0, lease := some l }).modAdmission fun a =>
      { a with order := if l.state = .offered then [] else [aHandle] })

/-- A recovered source at address 8, with its inlet at S5. -/
def aSource : Entry := { aPump 8 with cls := .recovered, rank := none, learned := none }

/-- A FREE lease on entry 2. -/
def aFreeLease (st : LeaseState) : Lease :=
  { Lease.fresh .free .station 2 5 850 with state := st, offer := 2000, grantSent := true, entitlement := 2000 }

/-- A lease of the part with a FREE lease on entry 2 beside it, in slot 2. -/
def withFree (st : LeaseState) (s : State) : State :=
  (((s.setEntry 2 aSource).setLeaseSlot 2 { issue := 0, lease := some (aFreeLease st) }).modAdmission fun a =>
    { a with order := if st = .offered then a.order else a.order ++ [{ slot := 2, issue := 0 }] })

/-- A TOPUP lease SUSPENDED with what it had. -/
def aSuspended : Lease :=
  { aLease with state := .suspended, granted := 0
                saved := some { state := .admitted, rate := 3000, timer := some 14400, hold := none, freeMark := 0,
                                deliveredMark := 0 } }

/-- A command to the station at an address in flight. -/
def sendingTo (addr : Nat) (c : LinkCmd) (s : State) : State :=
  s.modLink fun k => { k with exchange := some { addr := addr, cmd := c, source := .schedule, bore := false,
                                                 overtaken := false } }

theorem test_tables_in_order :
    part.tableInOrder ∧ (serving aLease).tableInOrder ∧ (serving aSuspended).tableInOrder ∧
      (withFree .offered (serving aLease)).tableInOrder ∧ (withFree .admitted (serving aSuspended)).tableInOrder ∧
      (looping .charging).tableInOrder ∧ (looping .priming).tableInOrder ∧ (looping .regulating).tableInOrder :=
  ⟨tableInOrder_of _ (by decide +kernel), tableInOrder_of _ (by decide +kernel), tableInOrder_of _ (by decide +kernel),
    tableInOrder_of _ (by decide +kernel), tableInOrder_of _ (by decide +kernel), tableInOrder_of _ (by decide +kernel),
    tableInOrder_of _ (by decide +kernel), tableInOrder_of _ (by decide +kernel)⟩

/-- A candidate that joins the lease there is, one for which a lease is opened, and one for which no station is left. -/
theorem test_meets_top_up :
    let wide : Reservation := { aRecord .booked with terms := { aBooking with volume := 150 } }
    let want := fun s : State => (s.setBookSlot 2 { issue := 0, record := some wide })
    let taking := fun s : State => s.modCoverage fun c => { c with pass := some s.snapshot }
    let candidates := fun s : State => (s.snapshot.results.1.filter (s.isCandidate s.snapshot)).map (·.1.handle.slot)
    let open' := taking (want part)
    let join := taking (want (serving aLease))
    let stuck := taking (want (part.modEntry 1 fun e => { e with cooldown := some 9 }))
    candidates open' = [2] ∧ candidates join = [2] ∧ candidates stuck = [2] ∧
    open'.coverage.pass = some open'.snapshot ∧
      join.coverage.pass = some join.snapshot ∧ open'.joinTarget 5 3 = none ∧ join.joinTarget 5 3 = some 1 ∧
      open'.selectStation none 3 = some 1 ∧ stuck.selectStation none 3 = none ∧ tableOk open' ∧ tableOk join ∧
      tableOk stuck ∧ open'.lease? 1 = none ∧ 500 ≤ open'.unallocated := by decide +kernel

/-- A FREE lease whose ACCEPT begins to flow over a running TOPUP lease, one whose CHANGE ends the flow, and a minute
that brings a served reservation near its due. -/
theorem test_meets_overlap :
    let on := sendingTo 8 (.grant { slot := 2, issue := 0 } .free 2000 850 none) (withFree .offered (serving aLease))
    let off := sendingTo 8 .poll (withFree .admitted (serving aSuspended))
    let near := { withFree .admitted (serving aSuspended) with clock := { part.clock with minute := 404 } }
    on.indexAt 8 = some 2 ∧ on.resolveLease { slot := 2, issue := 0 } = .live ∧
    on.lease? 2 = some (aFreeLease .offered) ∧
      0 < on.demand { aFreeLease .offered with entitlement := on.entitlementOf (aFreeLease .offered) } ∧
      on.lease? 1 = some aLease ∧ aLease.inlet ≤ (aFreeLease .offered).inlet ∧ on.nearDue aLease = false ∧
      off.lease? 1 = some aSuspended ∧ off.satisfiedByFree aSuspended (aSuspended.saved.getD ⟨.admitted, 0, none,
        none, 0, 0⟩) = false ∧
      off.lease? 2 = some (aFreeLease .admitted) ∧ near.nearDue aSuspended = false ∧
      ({ near with clock := { near.clock with minute := 405 } } : State).nearDue aSuspended = true ∧
      near.clock.now + 1 < dueOf aBooking := by decide +kernel

/-- A TOPUP lease accepted below its entitlement while a FREE lease flows over it, which is suspended THROTTLED (R70,
R105, R107). -/
theorem test_meets_overlapped_accept :
    let offer := { aLease with state := .offered, granted := 2000 }
    let on := sendingTo 4 (.grant aHandle .topUp 2000 550 (some 200)) (withFree .admitted (serving offer))
    tableOk on ∧ on.indexAt 4 = some 1 ∧ on.resolveLease aHandle = .live ∧ on.lease? 1 = some offer ∧
      offer.entitlement = on.entitlementOf offer ∧ on.nearDue offer = false ∧ on.lease? 2 = some (aFreeLease .admitted) ∧
      0 < on.demand (aFreeLease .admitted) ∧ offer.inlet ≤ (aFreeLease .admitted).inlet ∧
      ((takeAccept 1 aHandle 2000 on).lease? 1).bind (·.saved.map fun c => (c.state, c.rate)) =
        some (.throttled, 2000) := by decide +kernel

/-- A free source that returns brings no attempt at a trial; a bought one does (R124, R129). -/
theorem test_return_and_trials :
    let s := (part.modEntry 1 fun e => { e with state := .qualifying }).setEntry 2 { aSource with state := .lost }
    (reattach 2 8 .recovered anIdentity s).roster.trial = none ∧
      ((reattach 2 8 .heatPump anIdentity s).roster.trial.map (·.entry)) = some 1 := by decide +kernel

/-- A station lost at its third missed exchange: with no other station eligible, with one that takes the lease over, and
with a lease that free heat has satisfied. -/
theorem test_meets_lost_holder :
    let third := fun s : State => sendingTo 4 .poll (s.modEntry 1 fun e => { e with missed := 2 })
    let alone := third (serving aLease)
    let other := third ((serving aLease).setEntry 2 { aPump 8 with rank := some 2 })
    let done := third (((serving aSuspended).setEntry 2 (aPump 8)).modAdmission fun a => { a with freeHeat := 200 })
    alone.indexAt 4 = some 1 ∧ (alone.entry 1).state.isHeard = true ∧ (alone.entry 1).partner = none ∧
      alone.lease? 1 = some aLease ∧ alone.eligibleSet = [] ∧ other.eligibleSet = [2] ∧ tableOk alone ∧ tableOk other ∧
      tableOk done ∧ done.eligibleSet = [2] ∧ done.lease? 1 = some aSuspended ∧
      (third (serving { aLease with state := .revoking, reason := some .completed, revokeTime := some 9 })).lease? 1 =
        some { aLease with state := .revoking, reason := some .completed, revokeTime := some 9 } := by decide +kernel

/-- Leases of each kind at the map's loss, and a FREE lease at its return. -/
theorem test_meets_maps_loss :
    let sweeping := fun s : State => s.modMap fun m => { m with sweeping := true }
    let bad := { aReading with s1 := 2000, s2 := 2000, s3 := 2000, s4 := 2000, s5 := 2000, s6 := 2000, s7 := 2000,
                               s8 := 2000 }
    let s := sweeping (withFree .admitted (serving aLease))
    let lost := (sweeping (withFree .throttled part)).modMap fun m =>
      { m with valid := false, guard := .shut
               strata := m.strata.map fun x => { x with probe := { x.probe with history := [x.temp, x.temp] } } }
    tableOk s ∧ tableOk lost ∧ s.map.valid = true ∧ (s.map.afterSweep bad).valid = false ∧ lost.map.valid = false ∧
      (lost.map.afterSweep aReading).valid = true ∧ tableOk (sweeping (looping .charging)) ∧
      tableOk (sweeping (serving { aLease with state := .offered, grantSent := false })) := by decide +kernel

/-- A loop that starts, stagnates, faults, recools, regulates, and one that a guard stops. -/
theorem test_meets_loop_at_a_sweep :
    let sweeping := fun s : State => s.modMap fun m => { m with sweeping := true }
    let starts := sweeping part
    let m := starts.map.afterSweep { aReading with collector := 900 }
    let hot := sweeping ((looping .regulating).modSolar fun v => { v with step := none })
    tableOk starts ∧ starts.solar.state = .off ∧ starts.solar.params.startDiff ≤ m.collector.temp - (m.stratum 1).temp ∧
      (m.stratum 8).temp < m.thetaMax - 30 ∧ starts.lease? 1 = none ∧ tableOk hot ∧ hot.solar.target = some 60 ∧
      60 + 10 ≤ (hot.map.afterSweep { aReading with collector := 900 }).collector.temp - 150 ∧
      hot.solar.params.stagnation ≤ (hot.map.afterSweep { aReading with collector := 1600 }).collector.temp ∧
      (hot.map.afterSweep { aReading with collector := 3000 }).collector.probe.state = .faulted ∧
      guardOf true (hot.temp 8) 600 ≠ hot.map.guard := by decide +kernel

/-- A STATUS from a station that holds a lease, one that names another, and a REQUEST that is taken. -/
theorem test_meets_status_items :
    let s := sendingTo 4 .poll (serving aLease)
    let t := sendingTo 8 .poll (part.setEntry 2 aSource)
    let u := sendingTo 8 .poll (withFree .admitted part)
    s.indexAt 4 = some 1 ∧ s.handleHeldBy 1 = some aHandle ∧ tableOk s ∧ s.lease? 1 = some aLease ∧
      s.toSuspend = [] ∧ s.toResume = [] ∧ s.roster.trial = none ∧ (s.entry 1).state ≠ .identifying ∧
    aLease.state ≠ .offered ∧
      aLease.reason = none ∧ aLease.delivered ≤ 4294967295 ∧ (0x07#8 : Byte).getLsbD 3 = false ∧
      t.handleHeldBy 2 = none ∧
      tableOk t ∧ t.indexAt 8 = some 2 ∧ (t.entry 2).state = .ready ∧ (t.entry 2).cls.isBought = false ∧
      t.lease? 1 = none ∧ tableOk u ∧ u.slotHeldBy 2 = some 2 ∧
      u.lease? 2 = some (aFreeLease .admitted) := by decide +kernel

/-- An entry that a trial can start for, and a trial that a REPORT ends. -/
theorem test_meets_trial :
    let s := part.modEntry 1 fun e => { e with state := .qualifying, retry := some 1 }
    let halted := (part.modEntry 1 fun e => { e with state := .qualifying }).modAdmission fun a => { a with halted :=
        true }
    let y : Trial := { entry := 1, rate := 3000, energy := 20, window := some 9 }
    let t := (sendingTo 4 .poll s).modRoster fun r => { r with trial := some y }
    tableOk s ∧ tableOk t ∧ tableOk halted ∧ (s.entry 1).retry ≠ none ∧ s.temp (s.entry 1).inlet < s.map.thetaMax - 30 ∧
      0 < s.effectiveCap 1 ∧ s.toSuspend = [] ∧ s.toResume = [] ∧ t.toSuspend = [] ∧ t.toResume = [] ∧
      t.indexAt 4 = some 1 ∧ y.energy + 30 = 50 ∧ halted.isWorking = false := by decide +kernel

/-- Another serial at a held address, a base with its pair's IDENTITY, and a dual mark that is refused. -/
theorem test_meets_identities :
    let s := sendingTo 4 .identify part
    let base := sendingTo 5 .identify (part.modEntry 1 fun e => { e with baseMark := true })
    tableOk s ∧ tableOk base ∧ s.indexAt 4 = some 1 ∧ (s.entry 1).serial ≠ 8 ∧ base.indexAt 5 = none ∧
      base.indexAt (5 - 1) = some 1 ∧ (base.entry 1).baseMark = true ∧ (base.entry 1).serial = anIdentity.serial ∧
      (base.entry 2).state = .absent ∧ (sendingTo 30 .identify part).indexAt 30 = none := by decide +kernel

/-- The last exchange of an enumeration, and a discovery probe that finds a base. -/
theorem test_meets_enumeration :
    let x : Exchange := { addr := 30, cmd := .identify, source := .enumeration, bore := false, overtaken := false }
    let s := part.modLink fun k => { k with exchange := some x, enumeration := .running 31 }
    let t := part.modLink fun k => { k with exchange := some { x with addr := 8, source := .discovery } }
    s.link.exchange = some x ∧ t.indexAt 8 = none ∧ (t.entry 2).state = .absent ∧ (t.entry 1).state ≠ .absent ∧
      2 ∉ t.link.schedule.toList := by decide +kernel

/-- A start minute with a station to take the attempt, one without, and a SANITISE lease whose revoke time ends. -/
theorem test_meets_daily_attempt :
    let s := part.modSanitise fun m => { m with interval := some 7, startMinute := 371, temp := 600 }
    let s1 : State := { s with clock := { s.clock with minute := 371 } }
    let ending := { aLease with kind := .sanitise, serve := [], budget := none, state := .revoking,
                                reason := some .sourceEnded, revokeTime := some 0 }
    tableOk s ∧ s.clock.set = true ∧ s.clock.minute < 1439 ∧ s.sanitise.lastDay = none ∧ s.sanitise.attempted = false ∧
      s.slotOfKind .sanitise = none ∧ s1.selectStation none s.sanitise.floor = some 1 ∧ s1.toSuspend = [] ∧
      s1.toResume = [] ∧ s.lease? 1 = none ∧ s.map.valid = true ∧ (leased ending).resolveLease aHandle = .live ∧
      tableOk (leased ending) ∧ State.reset.eligibleSet = [] := by decide +kernel

/-- Steps from a state whose table is in order, its allocations within the budget. -/
theorem test_meets_table_invariants :
    part.legal ∧ part.tableInOrder ∧ (serving aLease).allocated ≤ (serving aLease).admission.siteBudget ∧
      part.allocated ≤ part.admission.siteBudget ∧ step part = .next (tick part) :=
  ⟨test_part_is_legal, test_tables_in_order.1, by decide +kernel, by decide +kernel, rfl⟩

/-! ### Clauses at the edges of the statements on leases and the link -/

/-- A pass that ends with one candidate for the lease there is, whose holder's queue is full. -/
def joining : State :=
  let wide : Reservation := { aRecord .booked with terms := { aBooking with volume := 150 } }
  let full := ((serving aLease).setBookSlot 2 { issue := 0, record := some wide }).modStation 1 fun t =>
    { t with queue := [.setRate aHandle 3000, .refuse .halted, .qualify 0, .suspend aHandle].map fun c =>
                        { cmd := c, age := 1 } }
  full.modCoverage fun c => { c with pass := some full.snapshot }

/-- The candidate's AMEND waits afterwards, and the oldest command that bears no lease has made room (R55, R142). -/
theorem test_meets_join_of_a_full_queue :
    let p := joining.snapshot
    tableOk joining ∧ joining.coverage.pass = some p ∧
      (p.results.1.filter (joining.isCandidate p)).map (·.1.handle.slot) = [2] ∧ joining.joinTarget 5 3 = some 1 ∧
      (match exec .passComplete joining with
        | .next t => (t.station 1).queue.map (·.cmd.code)
        | .fault _ | .refused _ => []) = [0x12#8, 0x18#8, 0x13#8, 0x11#8] := by decide +kernel

theorem test_joining_is_legal : joining.legal := by
  refine ⟨test_part_is_legal.1, test_part_is_legal.2.1, test_part_is_legal.2.2.1, test_part_is_legal.2.2.2.1,
    ⟨by decide +kernel, ?_⟩, ?_, by unfold Admission.legal; decide +kernel, each (by decide +kernel)⟩
  · intro n h1 h2
    have h := each (p := fun n => (joining.bookSlot n).issue < 16 ∧ ((joining.record? n).all fun r =>
      bookFieldsOk r.terms && decide (r.terms.volume ≤ joining.map.cylinderVolume)) = true) (m := 24)
      (by decide +kernel) n h1 h2
    refine ⟨h.1, fun r e => ?_⟩
    have := h.2
    rw [e] at this
    simp only [Option.all_some, Bool.and_eq_true, decide_eq_true_eq] at this
    exact ⟨this.1, fun _ => this.2⟩
  · intro p e
    have h : joining.coverage.pass.all (fun p => decide ((p.records.map (·.handle.slot)).Nodup ∧
        (∀ r ∈ p.records, 1 ≤ r.handle.slot ∧ r.handle.slot ≤ 24) ∧ p.layers.map (·.no) = [8, 7, 6, 5, 4, 3, 2, 1])) =
        true := by decide +kernel
    rw [e] at h
    simpa using h

/-- A pair lost with one of its stations: a partner that is eligible takes no lease over, and one of a higher index that
holds a lease is lost with it (R128). -/
theorem test_meets_lost_pair :
    let pair := fun s : State => ((s.modEntry 1 fun e => { e with partner := some 2, missed := 2 }).modEntry 2 fun e =>
      { e with partner := some 1, address := 5 })
    let idle := sendingTo 4 .poll (pair ((serving aLease).setEntry 2 (aPump 5)))
    let holds := sendingTo 4 .poll (pair (withFree .admitted (serving aLease)))
    tableOk idle ∧ idle.indexAt 4 = some 1 ∧ (idle.entry 1).partner = some 2 ∧ idle.eligible 2 = true ∧
      idle.slotHeldBy 2 = none ∧ tableOk holds ∧ holds.slotHeldBy 2 = some 2 ∧
      ((idle.modEntry 2 fun e => { e with state := .lost }).eligibleSet = []) ∧
      (match exec .answerWindowExpiry idle with
        | .next t => (t.lease? 1, (t.entry 2).state)
        | .fault _ | .refused _ => (some aLease, .absent)) = (none, .lost) := by decide +kernel

/-- A SANITISE lease that runs, and one whose GRANT is unsent, at a sweep that satisfies the day (R170). -/
theorem test_meets_completed_sanitise :
    let l := { aLease with kind := .sanitise, serve := [], budget := none }
    let done := fun l' => (((serving aLease).setBookSlot 1 { issue := 0, record := none }).setLeaseSlot 1
      { issue := 0, lease := some l' }).modMap fun m => { m with sweeping := true }
    let s := fun l' => (done l').modSanitise fun m => { m with interval := some 7, accumulator := 60 * m.hold }
    let unsent := (s { l with state := .offered, grantSent := false }).modAdmission fun a => { a with order := [] }
    tableOk (s l) ∧ tableOk unsent ∧ (s l).slotOfKind .sanitise = some 1 ∧ unsent.slotOfKind .sanitise = some 1 ∧
      (s l).sanitise.lastDay = none ∧ (s l).map.valid = true ∧ ((s l).map.afterSweep aReading).valid = true ∧
      (match exec (.sweepComplete aReading) (s l) with
        | .next t => (t.lease? 1).bind (·.reason)
        | .fault _ | .refused _ => none) = some .completed := by decide +kernel

/-- A minimum raised under a REGULATING pump, and an upper inlet changed while the valve stands UPPER and LOWER. -/
theorem test_meets_loop_minimum_and_inlet :
    let upper := (looping .charging).modSolar fun v => { v with valve := .upper }
    let after := fun (number : Nat) (v : Int) (s : State) =>
      match exec (.setLoopParameter number v) s with
      | .next t => (t.solar.pump, (t.lease? 1).map (·.inlet))
      | .fault _ | .refused _ => (0, none)
    (looping .regulating).parameter? 35 ≠ some 60 ∧ upper.parameter? 39 ≠ some 7 ∧ upper.slotOfKind .solar = some 1 ∧
      after 35 60 (looping .regulating) = (60, some 1) ∧ after 39 7 upper = (100, some 7) ∧
      after 39 7 (looping .charging) = (100, some 1) := by decide +kernel

/-- A REPORT whose limited bit first sets the limit mark, and one that clears it (R100). -/
theorem test_meets_limit_mark :
    let after := fun (l : Lease) (limited : Bool) =>
      match exec (.status 4 0x07#8 (some aHandle) (some (.report 10 500 limited))) (sendingTo 4 .poll (serving l)) with
      | .next t => ((t.entry 1).learned, (t.lease? 1).map fun l' => (l'.limitMark, l'.stepTimer))
      | .fault _ | .refused _ => (none, none)
    let marked := { aLease with limitMark := true, stepTimer := some 9 }
    tableOk (sendingTo 4 .poll (serving marked)) ∧ after aLease true = (some 2900, some (true, some 60)) ∧
      after marked true = (some 3000, some (true, some 9)) ∧ after marked false = (some 3000, some (false, none)) := by
  decide +kernel

/-- A GRANT that returns, one whose lease has gone on, a SET RATE overtaken by one that waits, a command that a full
queue makes room for, and a LOST entry's miss (R128, R144). -/
theorem test_meets_returning_commands :
    let grant := LinkCmd.grant aHandle .topUp 3000 550 (some 200)
    let after := fun (c : LinkCmd) (q : List LinkCmd) (s : State) =>
      match exec .answerWindowExpiry (sending c (s.modStation 1 fun t =>
        { t with queue := q.map fun d => { cmd := d, age := 1 } })) with
      | .next t => ((t.station 1).queue.map (·.cmd.code), (t.entry 1).missed)
      | .fault _ | .refused _ => ([], 9)
    let other : Handle := { slot := 8, issue := 3 }
    after grant [] (serving { aLease with state := .offered }) = ([0x10#8], 1) ∧
      after grant [] (serving aLease) = ([], 1) ∧
      after (.setRate aHandle 500) [.refuse .halted, .setRate aHandle 900] (serving aLease) = ([0x19#8, 0x12#8], 1) ∧
      after (.refuse .halted) [.revoke aHandle, .revoke other, .qualify 0, .setRate other 5] part =
        ([0x19#8, 0x15#8, 0x18#8, 0x12#8], 1) ∧
      after (.refuse .halted) [] (part.modEntry 1 fun e => { e with state := .lost, missed := 3 }) = ([0x19#8], 3) := by
  decide +kernel

/-- A SUSPEND that finds a RESUME waiting for a station that has stopped and is not being told to start (R143). -/
theorem test_meets_suspend_of_a_stopped_station :
    let q : List Queued := [{ cmd := .resume aHandle 100, age := 1 }, { cmd := .refuse .halted, age := 2 }]
    coalesce (fun _ => true) { ackRate := none, runView := some .suspended, resumeInFlight := false } (.suspend aHandle)
      5 q = [{ cmd := .refuse .halted, age := 2 }] ∧
      coalesce (fun _ => true) { ackRate := none, runView := some .suspended, resumeInFlight := true }
        (.suspend aHandle) 5 q = [{ cmd := .refuse .halted, age := 2 }, { cmd := .suspend aHandle, age := 5 }] := by
  decide +kernel

/-- The end of a pass finds the condition of a running BOOST lease met, and leaves a SANITISE lease alone (R76, R78). -/
theorem test_finishing_at_pass_complete :
    let spent := { aLease with kind := .boost, serve := [], budget := some 100, delivered := 100 }
    let hot := { spent with kind := .sanitise, budget := none }
    let after := fun (l : Lease) =>
      let s := (leased l).modSanitise fun m => { m with temp := 100 }
      match exec .passComplete (s.modCoverage fun c => { c with pass := some s.snapshot }) with
      | .next t => (t.lease? 1).map fun l' => (l'.state, l'.hold)
      | .fault _ | .refused _ => none
    after spent = some (.finishing, some 300) ∧ after hot = some (.admitted, none) := by decide +kernel

end Sys2Proof.Tests
end

/-! What every piece of work keeps of the part's order: its parameters in their ranges, its records within the cylinder,
the pass in flight on each record once and each queue within its four places. -/

namespace Sys2Proof.Machine

/-- The part is in order, with the sanitise floor at or above the reserve line or `k`, whichever is lower: between the
writing of a raised line and the lifting of the floor, the floor still stands by the line as it was (R13). -/
structure State.InOrder (k : Nat) (s : State) : Prop where
  clock : s.clock.legal
  map : s.map.legal
  loop : s.solar.params.legal
  monitor : s.sanitise.legal (min k s.map.reserveLine)
  book : s.bookLegal
  coverage : s.coverage.legal
  admission : s.admission.legal
  queues : s.queuesInBounds

variable {k : Nat} {s t : State}

/-- No reserve line passes 8, so that `InOrder 8` is the part in order. -/
theorem legal_iff_inOrder : s.legal ↔ s.InOrder 8 := by
  have line (h : s.map.legal) : min 8 s.map.reserveLine = s.map.reserveLine := by
    obtain ⟨-, -, -, -, hr, -⟩ := h
    exact Nat.min_eq_right hr
  constructor
  · rintro ⟨hc, hm, hl, hs, hb, hv, ha, hq⟩
    exact ⟨hc, hm, hl, by rwa [line hm], hb, hv, ha, hq⟩
  · rintro ⟨hc, hm, hl, hs, hb, hv, ha, hq⟩
    exact ⟨hc, hm, hl, by rwa [line hm] at hs, hb, hv, ha, hq⟩

/-- A fold of changes each of which keeps the part in order keeps it so. -/
theorem foldl_inOrder {α : Type} (f : State → α → State) (hf : ∀ s a, s.InOrder k → (f s a).InOrder k) (l : List α)
    (s : State) (h : s.InOrder k) : (l.foldl f s).InOrder k := by
  induction l generalizing s with
  | nil => exact h
  | cons a l ih => exact ih _ (hf s a h)

/-! ### Block updates -/

@[simp] theorem inOrder_modRoster (f : Roster → Roster) (h : s.InOrder k) : (s.modRoster f).InOrder k := { h with }
@[simp] theorem inOrder_modPort (f : Port → Port) (h : s.InOrder k) : (s.modPort f).InOrder k := { h with }
@[simp] theorem inOrder_raise (f : EventFlag) (h : s.InOrder k) : (s.raise f).InOrder k := { h with }
@[simp] theorem inOrder_raiseIf (c : Bool) (f : EventFlag) (h : s.InOrder k) : (s.raiseIf c f).InOrder k := by
  cases c <;> exact { h with }
@[simp] theorem inOrder_bump (h : s.InOrder k) : s.bump.InOrder k := { h with }
@[simp] theorem inOrder_setEntry (i : Nat) (e : Entry) (h : s.InOrder k) : (s.setEntry i e).InOrder k := { h with }
@[simp] theorem inOrder_modEntry (i : Nat) (f : Entry → Entry) (h : s.InOrder k) : (s.modEntry i f).InOrder k :=
  { h with }
@[simp] theorem inOrder_setLeaseSlot (n : Nat) (x : LeaseSlot) (h : s.InOrder k) : (s.setLeaseSlot n x).InOrder k :=
  { h with }
@[simp] theorem inOrder_modLease (n : Nat) (f : Lease → Lease) (h : s.InOrder k) : (s.modLease n f).InOrder k :=
  { h with }

/-- The admission controller changed, its parameters in their ranges. -/
theorem inOrder_setAdmission {f : Admission → Admission} (hf : (f s.admission).legal) (h : s.InOrder k) :
    (s.modAdmission f).InOrder k := { h with admission := hf }

@[simp] theorem inOrder_modAdmission (f : Admission → Admission)
    (ht : (f s.admission).topUpLimit = s.admission.topUpLimit) (hh : (f s.admission).finishHold = s.admission.finishHold)
    (hr : (f s.admission).rating = s.admission.rating) (hb : (f s.admission).siteBudget = s.admission.siteBudget)
    (h : s.InOrder k) : (s.modAdmission f).InOrder k :=
  inOrder_setAdmission (by unfold Admission.legal; rw [ht, hh, hr, hb]; exact h.admission) h

@[simp] theorem inOrder_modLink (f : Link → Link) (hf : (f s.link).stations = s.link.stations) (h : s.InOrder k) :
    (s.modLink f).InOrder k := by
  have hq : (s.modLink f).queuesInBounds := by
    simpa only [State.queuesInBounds, State.station, modLink_link, hf] using h.queues
  exact { h with queues := hq }

@[simp] theorem inOrder_modSolar (f : Solar → Solar) (hf : (f s.solar).params = s.solar.params) (h : s.InOrder k) :
    (s.modSolar f).InOrder k :=
  { h with loop := by rw [modSolar_solar, hf]; exact h.loop }

theorem inOrder_modSanitise {f : Sanitise → Sanitise} (hf : (f s.sanitise).legal (min k s.map.reserveLine))
    (h : s.InOrder k) : (s.modSanitise f).InOrder k := { h with monitor := hf }

theorem inOrder_modCoverage {f : Coverage → Coverage} (hf : (f s.coverage).legal) (h : s.InOrder k) :
    (s.modCoverage f).InOrder k := { h with coverage := hf }

/-! ### The queues -/

/-- A station that is written reads as written, every other as before. -/
theorem station_modStation (i j : Nat) (f : Station → Station) (s : State) :
    ((s.modStation i f).station j = f (s.station j) ∧ i = j) ∨ (s.modStation i f).station j = s.station j := by
  by_cases hij : i = j
  · subst hij
    by_cases hi : i < 8
    · exact .inl ⟨tget_tset_self s.link.stations i _ _ hi, rfl⟩
    · right
      simp only [State.station, State.modStation, modLink_link, tset_of_le _ _ _ (Nat.not_lt.mp hi)]
  · exact .inr (tget_tset_ne s.link.stations i j _ _ hij)

/-- A change of a station that does not take its queue past four places. -/
theorem inOrder_modStation {i : Nat} {f : Station → Station}
    (hf : (s.station i).queue.length ≤ 4 → (f (s.station i)).queue.length ≤ 4) (h : s.InOrder k) :
    (s.modStation i f).InOrder k := by
  have hq : (s.modStation i f).queuesInBounds := by
    intro j h1 h7
    rcases station_modStation i j f s with ⟨e, rfl⟩ | e
    · rw [e]; exact hf (h.queues i h1 h7)
    · rw [e]; exact h.queues j h1 h7
  exact { h with queues := hq }

@[simp] theorem inOrder_clearStation (i : Nat) (h : s.InOrder k) : (s.modStation i fun _ => .initial).InOrder k :=
  inOrder_modStation (fun _ => Nat.zero_le 4) h

@[simp] theorem inOrder_dropCommands (i : Nat) (x : Handle) (h : s.InOrder k) : (dropCommands i x s).InOrder k :=
  inOrder_modStation (fun hq => (length_removeAll_le (p := fun c => c.handle? == some x) _).trans hq) h

@[simp] theorem inOrder_dropOffer (i : Nat) (x : Handle) (h : s.InOrder k) : (dropOffer i x s).InOrder k :=
  inOrder_modStation (fun hq => (length_removeAll_le (p := fun c => c.isGrant x || c.isRevoke x) _).trans hq) h

@[simp] theorem inOrder_emptyQueue (i : Nat) (h : s.InOrder k) : (emptyQueue i s).InOrder k :=
  inOrder_modStation (fun _ => Nat.zero_le 4) h

@[simp] theorem inOrder_keepSupply (i : Nat) (x : Temp) (h : s.InOrder k) : (keepSupply i x s).InOrder k :=
  inOrder_modStation (fun hq => hq) h

@[simp] theorem inOrder_countStale (h : s.InOrder k) : s.countStale.InOrder k := inOrder_modLink _ rfl h

@[simp] theorem inOrder_recordFlags (i : Nat) (x : Byte) (h : s.InOrder k) : (recordFlags i x s).InOrder k := by
  unfold recordFlags
  exact inOrder_modLink _ rfl (inOrder_modStation (fun hq => hq) h)

@[simp] theorem inOrder_markOvertaken (i : Nat) (c : LinkCmd) (h : s.InOrder k) : (markOvertaken i c s).InOrder k := by
  unfold markOvertaken; split
  · exact inOrder_modLink _ rfl h
  · exact h

@[simp] theorem inOrder_place (i : Nat) (c : LinkCmd) (h : s.InOrder k) : (place i c s).InOrder k := by
  unfold place; split
  · exact h
  · exact inOrder_markOvertaken i c (inOrder_modStation length_coalesce_le h)

/-! ### The book -/

/-- A slot of the book in order in a cylinder of a volume (§2.1, R12, R18). -/
def BookSlot.legal (volume : Nat) (b : BookSlot) : Prop :=
  b.issue < 16 ∧ ∀ r, b.record = some r → bookFieldsOk r.terms = true ∧ (r.state.isOpen = true → r.terms.volume ≤ volume)

/-- A slot that is written reads as written, every other as before; slot 0 is slot 1. -/
theorem bookSlot_setBookSlot (n m : Nat) (b : BookSlot) (s : State) :
    ((s.setBookSlot n b).bookSlot m = b ∧ s.bookSlot n = s.bookSlot m) ∨
      (s.setBookSlot n b).bookSlot m = s.bookSlot m := by
  by_cases hnm : n - 1 = m - 1
  · by_cases hn : n - 1 < 24
    · left
      have := tget_tset_self s.book.slots (n - 1) b .initial hn
      simpa only [State.bookSlot, State.setBookSlot, modBook_book, ← hnm, and_true] using this
    · right
      simp only [State.bookSlot, State.setBookSlot, modBook_book, tset_of_le _ _ _ (Nat.not_lt.mp hn)]
  · exact .inr (tget_tset_ne s.book.slots (n - 1) (m - 1) b _ hnm)

theorem bookLegal_iff : s.bookLegal ↔
    s.book.starved ≤ 65535 ∧ ∀ n, (s.bookSlot n).legal s.map.cylinderVolume := by
  refine and_congr_right fun _ => ⟨fun h n => ?_, fun h n _ _ => h n⟩
  by_cases h24 : n ≤ 24
  · by_cases h1 : 1 ≤ n
    · exact h n h1 h24
    · obtain rfl : n = 0 := by omega
      exact h 1 (by omega) (by omega)
  · have e : s.bookSlot n = .initial := tget_of_le _ _ _ (by omega)
    rw [e]
    exact ⟨by decide, fun r hr => by cases hr⟩

theorem inOrder_setBookSlot {n : Nat} {b : BookSlot} (hb : b.legal s.map.cylinderVolume) (h : s.InOrder k) :
    (s.setBookSlot n b).InOrder k := by
  obtain ⟨hs, hall⟩ := bookLegal_iff.mp h.book
  have hbook : (s.setBookSlot n b).bookLegal := by
    refine bookLegal_iff.mpr ⟨hs, fun m => ?_⟩
    rcases bookSlot_setBookSlot n m b s with ⟨e, -⟩ | e
    · rw [e]; exact hb
    · rw [e]; exact hall m
  exact { h with book := hbook }

/-- A record changed to one in order. -/
theorem inOrder_modRecord {n : Nat} {f : Reservation → Reservation}
    (hf : ∀ r, bookFieldsOk r.terms = true → (r.state.isOpen = true → r.terms.volume ≤ s.map.cylinderVolume) →
      s.record? n = some r → bookFieldsOk (f r).terms = true ∧
        ((f r).state.isOpen = true → (f r).terms.volume ≤ s.map.cylinderVolume)) (h : s.InOrder k) :
    (s.modRecord n f).InOrder k := by
  obtain ⟨hi, hr⟩ := (bookLegal_iff.mp h.book).2 n
  refine inOrder_setBookSlot ⟨hi, fun r he => ?_⟩ h
  obtain ⟨r0, h0, rfl⟩ := Option.map_eq_some_iff.mp he
  exact hf r0 (hr r0 h0).1 (hr r0 h0).2 h0

/-- A record changed outside its terms and its state. -/
@[simp] theorem inOrder_modRecord_same (n : Nat) (f : Reservation → Reservation) (ht : ∀ r, (f r).terms = r.terms)
    (hs : ∀ r, (f r).state = r.state) (h : s.InOrder k) : (s.modRecord n f).InOrder k :=
  inOrder_modRecord (fun r h1 h2 _ => by rw [ht, hs]; exact ⟨h1, h2⟩) h

@[simp] theorem inOrder_clearTopUp (x : Handle) (h : s.InOrder k) : (clearTopUp x s).InOrder k := by
  unfold clearTopUp; split <;> simp [h]

@[simp] theorem inOrder_setTopUp (x l : Handle) (h : s.InOrder k) : (setTopUp x l s).InOrder k := by
  simp [setTopUp, h]

/-! ### Passes -/

/-- Sorting keeps what the list holds. -/
theorem perm_insertBy {α : Type} (key : α → Nat) (x : α) (l : List α) : (insertBy key x l).Perm (x :: l) := by
  induction l with
  | nil => exact .refl _
  | cons y ys ih =>
    unfold insertBy
    split
    · exact (ih.cons y).trans (.swap x y ys)
    · exact .refl _

theorem perm_sortBy {α : Type} (key : α → Nat) (l : List α) : (sortBy key l).Perm l := by
  have grow : ∀ acc : List α, (l.foldl (fun acc x => insertBy key x acc) acc).Perm (acc ++ l) := by
    induction l with
    | nil => intro acc; simp
    | cons x xs ih =>
      intro acc
      exact (ih _).trans (((perm_insertBy key x acc).append_right xs).trans List.perm_middle.symm)
  exact grow []

/-- Each occupied slot of the book is listed once. -/
theorem slots_records (s : State) : (s.records.map (·.1)).Sublist (countTo 24) := by
  unfold State.records
  generalize countTo 24 = l
  induction l with
  | nil => exact .slnil
  | cons n l ih =>
    cases h : s.record? n with
    | none => simpa [List.filterMap_cons, h] using ih.cons n
    | some r => simpa [List.filterMap_cons, h] using ih.cons_cons n

/-- What a pass takes at its start is each open record once and each stratum once (R42). -/
theorem legal_snapshot (s : State) (c : Coverage) (hc : c.pass = some s.snapshot) : c.legal := by
  intro p hp
  obtain rfl : s.snapshot = p := by rw [hc] at hp; exact Option.some.inj hp
  have hperm : (s.openByDue.map (·.1)).Perm ((s.records.filter fun p => p.2.state.isOpen).map (·.1)) :=
    (perm_sortBy _ _).map _
  have hsub : ((s.records.filter fun p => p.2.state.isOpen).map (·.1)).Sublist (countTo 24) :=
    (List.filter_sublist.map _).trans (slots_records s)
  have hslots : s.snapshot.records.map (·.handle.slot) = s.openByDue.map (·.1) := by
    simp [State.snapshot, State.bookHandle, Function.comp_def]
  refine ⟨?_, fun r hr => ?_, rfl⟩
  · rw [hslots]
    exact hperm.nodup_iff.mpr (hsub.nodup (by decide))
  · have hm : r.handle.slot ∈ countTo 24 := by
      have : r.handle.slot ∈ s.snapshot.records.map (·.handle.slot) := List.mem_map_of_mem hr
      rw [hslots] at this
      exact hsub.subset (hperm.subset this)
    simp only [countTo, List.mem_map, List.mem_range] at hm
    omega

@[simp] theorem inOrder_passStart (h : s.InOrder k) : (passStart s).InOrder k := by
  unfold passStart; split
  · split
    · exact inOrder_modCoverage (legal_snapshot s _ rfl) h
    · exact inOrder_modCoverage h.coverage h
  · exact h

@[simp] theorem inOrder_noteEligible (b : State) (h : s.InOrder k) : (noteEligible b s).InOrder k := by
  unfold noteEligible; split <;> simp [h]

@[simp] theorem inOrder_exceptRecord (n : Nat) (h : s.InOrder k) : (exceptRecord n s).InOrder k := by
  refine inOrder_modCoverage (fun p hp => ?_) h
  obtain ⟨p0, h0, rfl⟩ := Option.map_eq_some_iff.mp hp
  exact h.coverage p0 h0

@[simp] theorem inOrder_endPass (h : s.InOrder k) : (endPass s).InOrder k := by
  have h1 : (s.modCoverage fun _ => { pass := none, rerun := false }).InOrder k :=
    inOrder_modCoverage (fun p hp => by cases hp) h
  simp only [endPass]; split <;> simp [h1]

end Sys2Proof.Machine

/-! The work of the lease table, its arbiter, the roster and the link keeps the part in order. -/

namespace Sys2Proof.Machine

variable {k : Nat} {s t : State}

/-! ### The arbiter -/

@[simp] theorem inOrder_stopTrial (h : s.InOrder k) : (stopTrial s).InOrder k := by
  simp only [stopTrial]; repeat' split
  all_goals simp (maxDischargeDepth := 16) [h]

@[simp] theorem inOrder_removeExcess (h : s.InOrder k) : (removeExcess s).InOrder k := by
  have h1 : (s.removalOrder.foldl takePower s).InOrder k := foldl_inOrder _ (fun _ n h => inOrder_modLease n _ h) _ s h
  simp only [removeExcess]; split <;> simp (maxDischargeDepth := 16) [h1]

@[simp] theorem inOrder_givePower (n : Nat) (h : s.InOrder k) : (givePower s n).InOrder k := by
  simp only [givePower]; repeat' split
  all_goals simp (maxDischargeDepth := 16) [h]

@[simp] theorem inOrder_followEntitlement (n : Nat) (h : s.InOrder k) : (followEntitlement s n).InOrder k := by
  simp (maxDischargeDepth := 16) [followEntitlement, h]

@[simp] theorem inOrder_followDemand (b : State) (n : Nat) (h : s.InOrder k) : (followDemand b s n).InOrder k := by
  unfold followDemand; repeat' split
  all_goals simp (maxDischargeDepth := 16) [h]

@[simp] theorem inOrder_enterRate (b : State) (n : Nat) (h : s.InOrder k) : (enterRate b s n).InOrder k := by
  simp (maxDischargeDepth := 16) [enterRate, h]

@[simp] theorem inOrder_publishRate (b : State) (n : Nat) (h : s.InOrder k) : (publishRate b s n).InOrder k := by
  simp only [publishRate]; repeat' split
  all_goals simp (maxDischargeDepth := 16) [h]

@[simp] theorem inOrder_freeRates (b : State) (h : s.InOrder k) : (freeRates b s).InOrder k :=
  foldl_inOrder _ (fun _ n h => inOrder_followDemand b n h) _ _ <|
    foldl_inOrder _ (fun _ n h => inOrder_followEntitlement n h) _ s h

/-- Every rate brought up to date, and the arbiter acting (R87, R96, R97). -/
@[simp] theorem inOrder_settle (b : State) (h : s.InOrder k) : (settle b s).InOrder k := by
  have h2 : (upTo8.foldl (followDemand b) (upTo8.foldl followEntitlement s)).InOrder k :=
    foldl_inOrder _ (fun _ n h => inOrder_followDemand b n h) _ _ <|
      foldl_inOrder _ (fun _ n h => inOrder_followEntitlement n h) _ s h
  refine foldl_inOrder _ (fun _ n h => inOrder_publishRate b n h) _ _ ?_
  refine foldl_inOrder _ (fun _ n h => inOrder_givePower n h) _ _ ?_
  split <;> simp (maxDischargeDepth := 16) [h2]

@[simp] theorem inOrder_settling (f : State → State) (h : (f s).InOrder k) : (settling f s).InOrder k :=
  inOrder_settle s h

/-! ### The lease table -/

@[simp] theorem inOrder_putLease (n : Nat) (l : Lease) (h : s.InOrder k) : (putLease n l s).InOrder k := by
  simp (maxDischargeDepth := 16) [putLease, h]

theorem inOrder_openOffered {l : Lease} {x : Handle} (e : openOffered l s = some (x, t)) (h : s.InOrder k) :
    t.InOrder k := by
  unfold openOffered at e
  split at e
  · cases e
  · dsimp only at e
    split at e
    · cases e
    · cases e; simp (maxDischargeDepth := 16) [h]

@[simp] theorem inOrder_openSolar (h : s.InOrder k) : (openSolar s).InOrder k := by
  simp only [openSolar]; split <;> simp (maxDischargeDepth := 16) [h]

@[simp] theorem inOrder_stopLoop (x : LoopState) (h : s.InOrder k) : (stopLoop x s).InOrder k := by
  simp (maxDischargeDepth := 16) [stopLoop, h]

@[simp] theorem inOrder_tellOwner (x : LeaseKind) (out : LeaseOutcome) (h : s.InOrder k) :
    (tellOwner x out s).InOrder k := by
  simp only [tellOwner]; repeat' split
  all_goals simp (maxDischargeDepth := 16) [h]

@[simp] theorem inOrder_freeLease (n : Nat) (l : Lease) (out : LeaseOutcome) (h : s.InOrder k) :
    (freeLease n l out s).InOrder k := by
  simp (maxDischargeDepth := 16) [freeLease, h]

/-- A retirement (R84). -/
@[simp] theorem inOrder_dismiss (n : Nat) (out : LeaseOutcome) (h : s.InOrder k) : (dismiss n out s).InOrder k := by
  unfold dismiss; split
  · exact h
  · next l _ =>
    have h1 : (l.serve.foldl (fun t r => passStart (clearTopUp r t)) s).InOrder k :=
      foldl_inOrder _ (fun _ _ h => by simp (maxDischargeDepth := 16) [h]) _ s h
    simp (maxDischargeDepth := 16) [h1]

@[simp] theorem inOrder_beginRevoking (n : Nat) (l : Lease) (r : LeaseOutcome) (h : s.InOrder k) :
    (beginRevoking n l r s).InOrder k := by
  simp (maxDischargeDepth := 16) [beginRevoking, h]

@[simp] theorem inOrder_beginEnding (n : Nat) (r : LeaseOutcome) (h : s.InOrder k) : (beginEnding n r s).InOrder k := by
  unfold beginEnding; repeat' split
  all_goals simp (maxDischargeDepth := 16) [h]

@[simp] theorem inOrder_credit (n e : Nat) (h : s.InOrder k) : (credit n e s).InOrder k := by
  simp only [credit]; repeat' split
  all_goals simp (maxDischargeDepth := 16) [h]

@[simp] theorem inOrder_beginFinishing (n : Nat) (h : s.InOrder k) : (beginFinishing n s).InOrder k := by
  simp (maxDischargeDepth := 16) [beginFinishing, h]

@[simp] theorem inOrder_endZeroHold (n : Nat) (h : s.InOrder k) : (endZeroHold n s).InOrder k := by
  unfold endZeroHold; repeat' split
  all_goals simp (maxDischargeDepth := 16) [h]

@[simp] theorem inOrder_recharge (n : Nat) (h : s.InOrder k) : (recharge n s).InOrder k := by
  unfold recharge
  extract_lets s1
  have h1 : s1.InOrder k := inOrder_settling _ (inOrder_modLease n _ h)
  clear_value s1
  split <;> simp (maxDischargeDepth := 16) [h1]

@[simp] theorem inOrder_testFinishing (n : Nat) (h : s.InOrder k) : (testFinishing n s).InOrder k := by
  unfold testFinishing; repeat' split
  all_goals simp (maxDischargeDepth := 16) [h]

@[simp] theorem inOrder_testFinishingUnlessSanitise (n : Nat) (h : s.InOrder k) :
    (testFinishingUnlessSanitise n s).InOrder k := by
  unfold testFinishingUnlessSanitise; split <;> simp (maxDischargeDepth := 16) [h]

/-! ### The overlap -/

@[simp] theorem inOrder_beginSuspension (n : Nat) (h : s.InOrder k) : (beginSuspension s n).InOrder k := by
  unfold beginSuspension; split <;> simp (maxDischargeDepth := 16) [h]

@[simp] theorem inOrder_beginResumption (n : Nat) (h : s.InOrder k) : (beginResumption s n).InOrder k := by
  simp only [beginResumption]; repeat' split
  all_goals simp (maxDischargeDepth := 16) [h]

@[simp] theorem inOrder_announceResume (n : Nat) (h : s.InOrder k) : (announceResume s n).InOrder k := by
  unfold announceResume; repeat' split
  all_goals simp (maxDischargeDepth := 16) [h]

/-- Leases suspended and resumed, and the arbiter acting after it (R105, R107, R109, R110). -/
@[simp] theorem inOrder_actOnOverlap (b : State) (h : s.InOrder k) : (actOnOverlap b s).InOrder k := by
  refine foldl_inOrder _ (fun _ n h => inOrder_testFinishing n h) _ _ ?_
  refine foldl_inOrder _ (fun _ n h => inOrder_announceResume n h) _ _ (inOrder_settle b ?_)
  refine foldl_inOrder _ (fun _ n h => inOrder_beginResumption n h) _ _ ?_
  exact foldl_inOrder _ (fun _ n h => inOrder_beginSuspension n h) _ s h

@[simp] theorem inOrder_testOverlap (h : s.InOrder k) : (testOverlap s).InOrder k := by
  unfold testOverlap; split <;> simp (maxDischargeDepth := 16) [h]

@[simp] theorem inOrder_resettle (b : State) (h : s.InOrder k) : (resettle b s).InOrder k := by
  simp only [resettle]; split <;> simp (maxDischargeDepth := 16) [h]

@[simp] theorem inOrder_retire (n : Nat) (out : LeaseOutcome) (h : s.InOrder k) : (retire n out s).InOrder k := by
  unfold retire; split <;> simp (maxDischargeDepth := 16) [h]

@[simp] theorem inOrder_sendRevoking (n : Nat) (r : LeaseOutcome) (h : s.InOrder k) :
    (sendRevoking n r s).InOrder k := by
  unfold sendRevoking; repeat' split
  all_goals simp (maxDischargeDepth := 16) [h]

@[simp] theorem inOrder_removeServed (l r : Handle) (h : s.InOrder k) : (removeServed l r s).InOrder k := by
  simp only [removeServed]; repeat' split
  all_goals simp (maxDischargeDepth := 16) [h]

@[simp] theorem inOrder_removeTopUp (n : Nat) (h : s.InOrder k) : (removeTopUp n s).InOrder k := by
  unfold removeTopUp; split <;> simp (maxDischargeDepth := 16) [h]

@[simp] theorem inOrder_testShrunk (b : State) (n : Nat) (h : s.InOrder k) : (testShrunk b s n).InOrder k := by
  unfold testShrunk; split <;> simp (maxDischargeDepth := 16) [h]

@[simp] theorem inOrder_afterRemovals (b : State) (h : s.InOrder k) : (afterRemovals b s).InOrder k :=
  foldl_inOrder _ (fun _ n h => inOrder_testShrunk b n h) _ _ (inOrder_resettle b h)

@[simp] theorem inOrder_leaveTopUp (n : Nat) (h : s.InOrder k) : (leaveTopUp n s).InOrder k := by
  unfold leaveTopUp; split <;> simp (maxDischargeDepth := 16) [h]

/-! ### Trials called off, and the closing of a step -/

@[simp] theorem inOrder_callOffTrial (h : s.InOrder k) : (callOffTrial s).InOrder k := by
  simp (maxDischargeDepth := 16) [callOffTrial, h]

@[simp] theorem inOrder_stopTrialOf (i : Nat) (h : s.InOrder k) : (stopTrialOf i s).InOrder k := by
  unfold stopTrialOf; split <;> simp (maxDischargeDepth := 16) [h]

@[simp] theorem inOrder_callOffTrialOf (i : Nat) (h : s.InOrder k) : (callOffTrialOf i s).InOrder k := by
  unfold callOffTrialOf; split <;> simp (maxDischargeDepth := 16) [h]

@[simp] theorem inOrder_callOffEvicted (h : s.InOrder k) : (callOffEvicted s).InOrder k := by
  unfold callOffEvicted; repeat' split
  all_goals simp (maxDischargeDepth := 16) [h]

@[simp] theorem inOrder_closing (h : s.InOrder k) : (closing s).InOrder k := by
  simp (maxDischargeDepth := 16) [closing, h]

/-! ### Handover -/

@[simp] theorem inOrder_moveLease (n : Nat) (l : Lease) (i : Nat) (b : Option Nat) (h : s.InOrder k) :
    (moveLease n l i b s).InOrder k := by
  simp (maxDischargeDepth := 16) [moveLease, h]

@[simp] theorem inOrder_handOverOrEnd (n : Nat) (l : Lease) (h : s.InOrder k) : (handOverOrEnd n l s).InOrder k := by
  unfold handOverOrEnd; repeat' split
  all_goals simp (maxDischargeDepth := 16) [h]

@[simp] theorem inOrder_endLost (n : Nat) (l : Lease) (h : s.InOrder k) : (endLost n l s).InOrder k := by
  unfold endLost; repeat' split
  all_goals simp (maxDischargeDepth := 16) [h]

@[simp] theorem inOrder_dealWithLost (i : Nat) (h : s.InOrder k) : (dealWithLost s i).InOrder k := by
  unfold dealWithLost; repeat' split
  all_goals simp (maxDischargeDepth := 16) [h]

@[simp] theorem inOrder_announceHandover (b : State) (n : Nat) (h : s.InOrder k) :
    (announceHandover b s n).InOrder k := by
  unfold announceHandover; repeat' split
  all_goals simp (maxDischargeDepth := 16) [h]

/-! ### Trials -/

@[simp] theorem inOrder_startTrial (i : Nat) (h : s.InOrder k) : (startTrial i s).InOrder k := by
  simp (maxDischargeDepth := 16) [startTrial, h]

@[simp] theorem inOrder_tryTrial (h : s.InOrder k) : (tryTrial s).InOrder k := by
  unfold tryTrial; repeat' split
  all_goals simp (maxDischargeDepth := 16) [h]

@[simp] theorem inOrder_succeedTrial (i : Nat) (h : s.InOrder k) : (succeedTrial i s).InOrder k := by
  simp (maxDischargeDepth := 16) [succeedTrial, h]

@[simp] theorem inOrder_reportToTrial (x : Trial) (e : Nat) (h : s.InOrder k) : (reportToTrial x e s).InOrder k := by
  simp only [reportToTrial]; split <;> simp (maxDischargeDepth := 16) [h]

@[simp] theorem inOrder_countFailure (i : Nat) (h : s.InOrder k) : (countFailure i s).InOrder k := by
  simp only [countFailure]; split <;> simp (maxDischargeDepth := 16) [h]

@[simp] theorem inOrder_failTrial (x : Trial) (h : s.InOrder k) : (failTrial x s).InOrder k := by
  simp (maxDischargeDepth := 16) [failTrial, h]

@[simp] theorem inOrder_callOffHotTrial (h : s.InOrder k) : (callOffHotTrial s).InOrder k := by
  unfold callOffHotTrial; split <;> simp (maxDischargeDepth := 16) [h]

/-! ### Stations lost, found and forgotten -/

@[simp] theorem inOrder_markLost (i : Nat) (h : s.InOrder k) : (markLost s i).InOrder k := by
  simp (maxDischargeDepth := 16) [markLost, h]

@[simp] theorem inOrder_startForLost (b : State) (i : Nat) (h : s.InOrder k) : (startForLost b s i).InOrder k := by
  unfold startForLost; split <;> simp (maxDischargeDepth := 16) [h]

@[simp] theorem inOrder_dealWithLeases (l : List Nat) (h : s.InOrder k) : (dealWithLeases l s).InOrder k :=
  foldl_inOrder _ (fun _ n h => inOrder_announceHandover s n h) _ _ <|
    inOrder_resettle _ (foldl_inOrder _ (fun _ i h => inOrder_dealWithLost i h) l s h)

/-- The loss of stations, with all that becomes of their leases (R128). -/
@[simp] theorem inOrder_loseEntries (l : List Nat) (h : s.InOrder k) : (loseEntries l s).InOrder k := by
  unfold loseEntries; split
  · exact h
  · refine foldl_inOrder _ (fun _ i h => inOrder_startForLost s i h) _ _ (inOrder_raise _ (inOrder_dealWithLeases l ?_))
    exact foldl_inOrder _ (fun _ i h => inOrder_markLost i h) l s h

@[simp] theorem inOrder_countMiss (i : Nat) (h : s.InOrder k) : (countMiss i s).InOrder k := by
  simp only [countMiss]; split <;> simp (maxDischargeDepth := 16) [h]

@[simp] theorem inOrder_countGood (i : Nat) (h : s.InOrder k) : (countGood i s).InOrder k := by
  simp (maxDischargeDepth := 16) [countGood, h]

@[simp] theorem inOrder_countBadIdentity (h : s.InOrder k) : (countBadIdentity s).InOrder k := by
  simp (maxDischargeDepth := 16) [countBadIdentity, h]

@[simp] theorem inOrder_pairEntries (i j : Nat) (h : s.InOrder k) : (pairEntries i j s).InOrder k := by
  simp (maxDischargeDepth := 16) [pairEntries, h]

@[simp] theorem inOrder_pairIfBase (i a : Nat) (d : Identity) (h : s.InOrder k) : (pairIfBase i a d s).InOrder k := by
  unfold pairIfBase; repeat' split
  all_goals simp (maxDischargeDepth := 16) [h]

@[simp] theorem inOrder_takeDualMark (i a : Nat) (d : Identity) (h : s.InOrder k) :
    (takeDualMark i a d s).InOrder k := by
  unfold takeDualMark; repeat' split
  all_goals simp (maxDischargeDepth := 16) [h]

@[simp] theorem inOrder_fillEntry (i a : Nat) (c : SourceClass) (d : Identity) (h : s.InOrder k) :
    (fillEntry i a c d s).InOrder k := by simp (maxDischargeDepth := 16) [fillEntry, h]

@[simp] theorem inOrder_createEntry (a : Nat) (c : SourceClass) (d : Identity) (h : s.InOrder k) :
    (createEntry a c d s).InOrder k := by
  unfold createEntry; split <;> simp (maxDischargeDepth := 16) [h]

@[simp] theorem inOrder_reattach (i a : Nat) (c : SourceClass) (d : Identity) (h : s.InOrder k) :
    (reattach i a c d s).InOrder k := by
  simp only [reattach]; split <;> simp (maxDischargeDepth := 16) [h]

@[simp] theorem inOrder_dissolvePair (i : Nat) (h : s.InOrder k) : (dissolvePair i s).InOrder k := by
  unfold dissolvePair; split <;> simp (maxDischargeDepth := 16) [h]

@[simp] theorem inOrder_reidentify (i a : Nat) (c : SourceClass) (d : Identity) (h : s.InOrder k) :
    (reidentify i a c d s).InOrder k := by
  simp (maxDischargeDepth := 16) [reidentify, h]

@[simp] theorem inOrder_confirmIdentity (i a : Nat) (d : Identity) (h : s.InOrder k) :
    (confirmIdentity i a d s).InOrder k := by simp (maxDischargeDepth := 16) [confirmIdentity, h]

@[simp] theorem inOrder_takeIdentity (a : Nat) (d : Identity) (h : s.InOrder k) : (takeIdentity a d s).InOrder k := by
  unfold takeIdentity; repeat' split
  all_goals simp (maxDischargeDepth := 16) [h]

@[simp] theorem inOrder_forgetEntry (i : Nat) (h : s.InOrder k) : (forgetEntry s i).InOrder k := by
  simp (maxDischargeDepth := 16) [forgetEntry, h]

@[simp] theorem inOrder_forgetEntries (l : List Nat) (h : s.InOrder k) : (forgetEntries l s).InOrder k :=
  foldl_inOrder _ (fun _ i h => inOrder_startForLost s i h) _ _ <|
    foldl_inOrder _ (fun _ i h => inOrder_forgetEntry i h) l s h

@[simp] theorem inOrder_takeLearnedStep (i : Nat) (h : s.InOrder k) : (takeLearnedStep i s).InOrder k := by
  simp (maxDischargeDepth := 16) [takeLearnedStep, h]

@[simp] theorem inOrder_noteLimited (n : Nat) (b : Bool) (h : s.InOrder k) : (noteLimited n b s).InOrder k := by
  unfold noteLimited; repeat' split
  all_goals simp (maxDischargeDepth := 16) [h]

/-! ### Station answers -/

@[simp] theorem inOrder_noteRunning (n rate : Nat) (h : s.InOrder k) : (noteRunning n rate s).InOrder k := by
  simp (maxDischargeDepth := 16) [noteRunning, h]

@[simp] theorem inOrder_setCooldown (i : Nat) (h : s.InOrder k) : (setCooldown i s).InOrder k := by
  unfold setCooldown; split <;> simp (maxDischargeDepth := 16) [h]

@[simp] theorem inOrder_admitLease (i n rate : Nat) (h : s.InOrder k) : (admitLease i n rate s).InOrder k := by
  simp only [admitLease]
  apply inOrder_endZeroHold
  repeat' split
  all_goals simp (maxDischargeDepth := 16) [h]

@[simp] theorem inOrder_takeAccept (i : Nat) (x : Handle) (rate : Nat) (h : s.InOrder k) :
    (takeAccept i x rate s).InOrder k := by
  unfold takeAccept; repeat' split
  all_goals simp (maxDischargeDepth := 16) [h]

@[simp] theorem inOrder_confirmLease (n e : Nat) (h : s.InOrder k) : (confirmLease n e s).InOrder k := by
  simp (maxDischargeDepth := 16) [confirmLease, h]

@[simp] theorem inOrder_takeDecline (i : Nat) (x : Handle) (h : s.InOrder k) : (takeDecline i x s).InOrder k := by
  unfold takeDecline; repeat' split
  all_goals simp (maxDischargeDepth := 16) [declineLease, h]

@[simp] theorem inOrder_modOwn (i : Nat) (x : Handle) (f : Lease → Lease) (h : s.InOrder k) :
    (modOwn i x f s).InOrder k := by
  unfold modOwn; split <;> simp (maxDischargeDepth := 16) [h]

@[simp] theorem inOrder_beginWindow (i : Nat) (h : s.InOrder k) : (beginWindow i s).InOrder k := by
  simp (maxDischargeDepth := 16) [beginWindow, h]

@[simp] theorem inOrder_takeAck (i : Nat) (c : LinkCmd) (h : s.InOrder k) : (takeAck i c s).InOrder k := by
  unfold takeAck; repeat' split
  all_goals simp (maxDischargeDepth := 16) [h]

@[simp] theorem inOrder_endByStation (i n e : Nat) (h : s.InOrder k) : (endByStation i n e s).InOrder k := by
  unfold endByStation; repeat' split
  all_goals simp (maxDischargeDepth := 16) [h]

@[simp] theorem inOrder_takeEnding (i : Nat) (x : Handle) (e : Nat) (h : s.InOrder k) :
    (takeEnding i x e s).InOrder k := by
  unfold takeEnding; split <;> simp (maxDischargeDepth := 16) [h]

@[simp] theorem inOrder_takeRequest (i offer : Nat) (h : s.InOrder k) : (takeRequest i offer s).InOrder k := by
  unfold takeRequest; repeat' split
  · exact inOrder_place _ _ h
  · exact h
  · next e => exact inOrder_openOffered e h

@[simp] theorem inOrder_takeChange (i offer : Nat) (h : s.InOrder k) : (takeChange i offer s).InOrder k := by
  unfold takeChange; repeat' split
  all_goals simp (maxDischargeDepth := 16) [h]

@[simp] theorem inOrder_suspendAgain (i n : Nat) (h : s.InOrder k) : (suspendAgain i n s).InOrder k := by
  unfold suspendAgain; repeat' split
  all_goals simp (maxDischargeDepth := 16) [h]

@[simp] theorem inOrder_creditReport (i n e : Nat) (b : Bool) (h : s.InOrder k) : (creditReport i n e b s).InOrder k := by
  simp (maxDischargeDepth := 16) [creditReport, h]

@[simp] theorem inOrder_takeReport (i e : Nat) (x : Temp) (b : Bool) (h : s.InOrder k) :
    (takeReport i e x b s).InOrder k := by
  simp only [takeReport]; repeat' split
  all_goals simp (maxDischargeDepth := 16) [h]

@[simp] theorem inOrder_routeItem (i : Nat) (x : Item) (h : s.InOrder k) : (routeItem i x s).InOrder k := by
  unfold routeItem; split <;> simp (maxDischargeDepth := 16) [h]

@[simp] theorem inOrder_revokeBelieved (i : Nat) (x : Handle) (h : s.InOrder k) : (revokeBelieved i x s).InOrder k := by
  unfold revokeBelieved; split <;> simp (maxDischargeDepth := 16) [h]

@[simp] theorem inOrder_checkHandle (i : Nat) (x : Option Handle) (h : s.InOrder k) : (checkHandle i x s).InOrder k := by
  unfold checkHandle; repeat' split
  all_goals simp (maxDischargeDepth := 16) [h]

@[simp] theorem inOrder_leaveIdentifying (i : Nat) (h : s.InOrder k) : (leaveIdentifying i s).InOrder k := by
  unfold leaveIdentifying; repeat' split
  all_goals simp (maxDischargeDepth := 16) [h]

@[simp] theorem inOrder_setAside (x : Option Item) (h : s.InOrder k) : (setAside x s).InOrder k := by
  unfold setAside; split <;> simp (maxDischargeDepth := 16) [h]

@[simp] theorem inOrder_takeStatus (i : Nat) (x : Byte) (y : Option Handle) (m : Option Item) (h : s.InOrder k) :
    (takeStatus i x y m s).InOrder k := by
  simp only [takeStatus]; repeat' split
  all_goals simp (maxDischargeDepth := 16) [h]

/-! ### Exchanges -/

@[simp] theorem inOrder_handAnswer (i : Nat) (x : Exchange) (a : LinkAnswer) (h : s.InOrder k) :
    (handAnswer i x a s).InOrder k := by
  unfold handAnswer; split <;> simp (maxDischargeDepth := 16) [h]

@[simp] theorem inOrder_countAnswer (i : Nat) (a : LinkAnswer) (h : s.InOrder k) : (countAnswer i a s).InOrder k := by
  unfold countAnswer; split <;> simp (maxDischargeDepth := 16) [h]

@[simp] theorem inOrder_afterEnumerated (x : Exchange) (h : s.InOrder k) : (afterEnumerated x s).InOrder k := by
  unfold afterEnumerated endEnumeration; split <;> simp (maxDischargeDepth := 16) [h]

@[simp] theorem inOrder_giveSlots (i : Nat) (h : s.InOrder k) : (giveSlots i s).InOrder k := by
  unfold giveSlots; split <;> simp (maxDischargeDepth := 16) [h]

@[simp] theorem inOrder_probePartner (i a : Nat) (h : s.InOrder k) : (probePartner i a s).InOrder k := by
  unfold probePartner; split <;> simp (maxDischargeDepth := 16) [h]

@[simp] theorem inOrder_afterProbed (x : Exchange) (b : State) (h : s.InOrder k) : (afterProbed x b s).InOrder k := by
  unfold afterProbed; repeat' split
  all_goals simp (maxDischargeDepth := 16) [h]

theorem length_insertAt (n : Nat) (x : Queued) (q : List Queued) : (insertAt n x q).length = q.length + 1 := by
  simp only [insertAt, List.length_append, List.length_cons, List.length_take, List.length_drop]
  omega

theorem length_clearedFor_le (c : LinkCmd) (q : List Queued) : (clearedFor c q).length ≤ q.length := by
  cases c
  case revoke x => exact length_removeAll_le (p := fun c => c.handle? == some x) q
  all_goals exact Nat.le_refl _

/-- A command that returns finds room (R142, R144). -/
@[simp] theorem inOrder_returnCommand (i : Nat) (x : Exchange) (h : s.InOrder k) : (returnCommand i x s).InOrder k := by
  unfold returnCommand; repeat' split
  · exact h
  · refine inOrder_modStation (fun hq => ?_) h
    have hroom := length_makeRoom_lt (bears := s.bears i) ((length_clearedFor_le x.cmd _).trans hq)
    simpa only [length_insertAt, Nat.succ_le_iff] using hroom
  all_goals exact h

@[simp] theorem inOrder_failExchange (x : Exchange) (h : s.InOrder k) : (failExchange x s).InOrder k := by
  simp only [failExchange]; split <;> simp (maxDischargeDepth := 16) [h]

@[simp] theorem inOrder_goodExchange (x : Exchange) (a : LinkAnswer) (h : s.InOrder k) :
    (goodExchange x a s).InOrder k := by
  unfold goodExchange
  extract_lets s1 s2
  have h1 : s1.InOrder k := inOrder_modLink _ rfl h
  clear_value s1
  have h2 : s2.InOrder k := by
    simp only [s2]; repeat' split
    all_goals simp (maxDischargeDepth := 16) [h1]
  clear_value s2
  simp (maxDischargeDepth := 16) [h2]

@[simp] theorem inOrder_takeAnswer (i : Nat) (a : LinkAnswer) (h : s.InOrder k) : (takeAnswer i a s).InOrder k := by
  unfold takeAnswer; repeat' split
  all_goals simp (maxDischargeDepth := 16) [h]

@[simp] theorem inOrder_takeAnswerBytes (l : List Byte) (h : s.InOrder k) : (takeAnswerBytes l s).InOrder k := by
  unfold takeAnswerBytes; repeat' split
  all_goals simp (maxDischargeDepth := 16) [h]

@[simp] theorem inOrder_expireWindow (h : s.InOrder k) : (expireWindow s).InOrder k := by
  unfold expireWindow; split <;> simp (maxDischargeDepth := 16) [h]

@[simp] theorem inOrder_endBroadcast (h : s.InOrder k) : (endBroadcast s).InOrder k := by
  unfold endBroadcast; repeat' split
  · exact h
  · exact inOrder_modLink _ (by split <;> rfl) h
  · exact h

/-! ### The link's decisions -/

@[simp] theorem inOrder_markSent (c : LinkCmd) (h : s.InOrder k) : (markSent c s).InOrder k := by
  unfold markSent; repeat' split
  all_goals simp (maxDischargeDepth := 16) [h]

@[simp] theorem inOrder_beginExchange (a : Nat) (c : LinkCmd) (x : Source) (b : Bool) (h : s.InOrder k) :
    (beginExchange a c x b s).InOrder k := by simp (maxDischargeDepth := 16) [beginExchange, h]

@[simp] theorem inOrder_sendQueued (i p : Nat) (h : s.InOrder k) : (sendQueued i p s).InOrder k := by
  unfold sendQueued; split
  · exact h
  · exact inOrder_beginExchange _ _ _ _
      (inOrder_modStation (fun hq => (List.length_eraseIdx_le (s.station i).queue p).trans hq) h)

@[simp] theorem inOrder_sendOwn (i : Nat) (c : LinkCmd) (x : Source) (h : s.InOrder k) : (sendOwn i c x s).InOrder k := by
  simp (maxDischargeDepth := 16) [sendOwn, h]

theorem inOrder_sendBroadcast (e : sendBroadcast s = some t) (h : s.InOrder k) : t.InOrder k := by
  unfold sendBroadcast at e
  split at e
  · cases e; simp (maxDischargeDepth := 16) [h]
  · split at e
    · cases e; simp (maxDischargeDepth := 16) [h]
    · cases e

theorem inOrder_pollNext (e : pollNext s = some t) (h : s.InOrder k) : t.InOrder k := by
  unfold pollNext at e
  split at e
  · cases e
  · obtain ⟨i, -, rfl⟩ := Option.map_eq_some_iff.mp e
    simp (maxDischargeDepth := 16) [h]

@[simp] theorem inOrder_sendProbe (a : Nat) (h : s.InOrder k) : (sendProbe a s).InOrder k := by
  simp (maxDischargeDepth := 16) [sendProbe, h]

theorem inOrder_sendIdentify (e : sendIdentify s = some t) (h : s.InOrder k) : t.InOrder k := by
  unfold sendIdentify at e
  split at e
  · cases e; simp (maxDischargeDepth := 16) [h]
  all_goals
    split at e
    · cases e; simp (maxDischargeDepth := 16) [h]
    · split at e
      · obtain ⟨a, -, rfl⟩ := Option.map_eq_some_iff.mp e
        simp (maxDischargeDepth := 16) [h]
      · cases e

@[simp] theorem inOrder_serveEntry (i : Nat) (h : s.InOrder k) : (serveEntry i s).InOrder k := by
  unfold serveEntry; repeat' split
  all_goals simp (maxDischargeDepth := 16) [h]

@[simp] theorem inOrder_serveSlot (n : Nat) (h : s.InOrder k) : (serveSlot n s).InOrder k := by
  simp (maxDischargeDepth := 16) [serveSlot, h]

@[simp] theorem inOrder_serveSchedule (h : s.InOrder k) : (serveSchedule s).InOrder k := by
  unfold serveSchedule; repeat' split
  all_goals simp (maxDischargeDepth := 16) [h]

@[simp] theorem inOrder_decideOrdinary (h : s.InOrder k) : (decideOrdinary s).InOrder k := by
  unfold decideOrdinary; repeat' split
  · next e => exact inOrder_pollNext e h
  · next e => exact inOrder_sendIdentify e h
  · exact inOrder_serveSchedule h

@[simp] theorem inOrder_decide5 (h : s.InOrder k) : (decide5 s).InOrder k := by
  unfold decide5; repeat' split
  · next e => exact inOrder_sendBroadcast e h
  · exact inOrder_sendQueued _ _ h
  · exact inOrder_decideOrdinary h

@[simp] theorem inOrder_examineLine (h : s.InOrder k) : (examineLine s).InOrder k := by
  unfold examineLine; repeat' split
  all_goals simp (maxDischargeDepth := 16) [endReleased, endStuck, h]

@[simp] theorem inOrder_beginRoll (h : s.InOrder k) : (beginRoll s).InOrder k := by
  unfold beginRoll; repeat' split
  all_goals simp (maxDischargeDepth := 16) [endStuck, h]

@[simp] theorem inOrder_arbitrate (b : Bool) (h : s.InOrder k) : (arbitrate b s).InOrder k := by
  unfold arbitrate; split <;> simp (maxDischargeDepth := 16) [h]

end Sys2Proof.Machine

/-! The loop, the monitor, the passes, the book, the map and the clock keep the part in order; so does every command. -/

namespace Sys2Proof.Machine

variable {k : Nat} {s t : State}

/-! ### The loop -/

@[simp] theorem inOrder_followInlet (h : s.InOrder k) : (followInlet s).InOrder k := by
  unfold followInlet; split <;> simp (maxDischargeDepth := 16) [h]

@[simp] theorem inOrder_endLoop (x : LoopState) (h : s.InOrder k) : (endLoop x s).InOrder k := by
  simp only [endLoop]; split <;> simp (maxDischargeDepth := 16) [h]

@[simp] theorem inOrder_startPriming (h : s.InOrder k) : (startPriming s).InOrder k := by
  simp (maxDischargeDepth := 16) [startPriming, h]

@[simp] theorem inOrder_moveValve (v : Valve) (h : s.InOrder k) : (moveValve v s).InOrder k := by
  simp (maxDischargeDepth := 16) [moveValve, h]

@[simp] theorem inOrder_evaluateValve (h : s.InOrder k) : (evaluateValve s).InOrder k := by
  unfold evaluateValve; repeat' split
  all_goals simp (maxDischargeDepth := 16) [h]

@[simp] theorem inOrder_driveUpper (h : s.InOrder k) : (driveUpper s).InOrder k := by
  unfold driveUpper; split <;> simp (maxDischargeDepth := 16) [h]

@[simp] theorem inOrder_startRecooling (h : s.InOrder k) : (startRecooling s).InOrder k := by
  simp (maxDischargeDepth := 16) [startRecooling, h]

@[simp] theorem inOrder_testOff (h : s.InOrder k) : (testOff s).InOrder k := by
  unfold testOff; repeat' split
  all_goals simp (maxDischargeDepth := 16) [h]

@[simp] theorem inOrder_toCharging (h : s.InOrder k) : (toCharging s).InOrder k := by
  simp (maxDischargeDepth := 16) [toCharging, h]

@[simp] theorem inOrder_tendStopTimer (h : s.InOrder k) : (tendStopTimer s).InOrder k := by
  simp (maxDischargeDepth := 16) [tendStopTimer, h]

@[simp] theorem inOrder_sweepRunning (h : s.InOrder k) : (sweepRunning s).InOrder k := by
  simp only [sweepRunning]; split <;> simp (maxDischargeDepth := 16) [h]

theorem inOrder_sweepWithLease (go : State → State) (hg : s.InOrder k → (go s).InOrder k) (h : s.InOrder k) :
    (sweepWithLease go s).InOrder k := by
  unfold sweepWithLease; repeat' split
  all_goals simp (maxDischargeDepth := 16) [h, hg h]

@[simp] theorem inOrder_sweepStagnant (h : s.InOrder k) : (sweepStagnant s).InOrder k := by
  unfold sweepStagnant; repeat' split
  all_goals simp (maxDischargeDepth := 16) [h]

@[simp] theorem inOrder_sweepRecooling (h : s.InOrder k) : (sweepRecooling s).InOrder k := by
  unfold sweepRecooling; repeat' split
  all_goals simp (maxDischargeDepth := 16) [h]

/-- What a sweep-complete brings to the loop (chapter 9). -/
@[simp] theorem inOrder_solarSweep (h : s.InOrder k) : (solarSweep s).InOrder k := by
  unfold solarSweep
  extract_lets s1
  have h1 : s1.InOrder k := inOrder_modSolar _ rfl h
  clear_value s1
  split
  · exact inOrder_testOff h1
  · exact inOrder_sweepWithLease _ inOrder_evaluateValve h1
  · exact inOrder_sweepWithLease _ inOrder_sweepRunning h1
  · exact inOrder_sweepWithLease _ inOrder_sweepRunning h1
  · exact inOrder_sweepStagnant h1
  · exact inOrder_sweepRecooling h1
  · split <;> simp (maxDischargeDepth := 16) [h1]

@[simp] theorem inOrder_solarGuardChange (g : GuardState) (h : s.InOrder k) : (solarGuardChange g s).InOrder k := by
  unfold solarGuardChange; repeat' split
  all_goals simp (maxDischargeDepth := 16) [h]

@[simp] theorem inOrder_checkRecoolWindow (h : s.InOrder k) : (checkRecoolWindow s).InOrder k := by
  unfold checkRecoolWindow; split <;> simp (maxDischargeDepth := 16) [h]

/-! ### The monitor -/

@[simp] theorem inOrder_revokeSanitise (r : LeaseOutcome) (h : s.InOrder k) : (revokeSanitise r s).InOrder k := by
  unfold revokeSanitise; split <;> simp (maxDischargeDepth := 16) [h]

@[simp] theorem inOrder_satisfyHold (h : s.InOrder k) : (satisfyHold s).InOrder k :=
  inOrder_revokeSanitise _ (inOrder_raise _ (inOrder_modSanitise h.monitor h))

@[simp] theorem inOrder_sanitiseSweep (h : s.InOrder k) : (sanitiseSweep s).InOrder k := by
  unfold sanitiseSweep; split
  · exact inOrder_satisfyHold h
  · exact inOrder_modSanitise h.monitor h

@[simp] theorem inOrder_openSanitise (i : Nat) (h : s.InOrder k) : (openSanitise i s).InOrder k := by
  unfold openSanitise; repeat' split
  · exact inOrder_raise _ h
  · next e => exact inOrder_openOffered e h
  · exact inOrder_raise _ h

@[simp] theorem inOrder_attempt (h : s.InOrder k) : (attempt s).InOrder k := by
  unfold attempt; repeat' split
  all_goals simp (maxDischargeDepth := 16) [h]

@[simp] theorem inOrder_tryAttempt (h : s.InOrder k) : (tryAttempt s).InOrder k := by
  unfold tryAttempt; split
  · exact inOrder_attempt (inOrder_modSanitise h.monitor h)
  · exact h

/-! ### Records at their due -/

/-- A repeating record is re-armed only for a day that exists (R35). -/
theorem bookFieldsOk_withDay {b : BookTerms} {day : Nat} (hb : bookFieldsOk b = true) (hd : day ≤ Config.lastDay) :
    bookFieldsOk { b with dueDay := day } = true := by
  simp only [bookFieldsOk, dueOk, Bool.and_eq_true] at hb ⊢
  obtain ⟨⟨⟨⟨⟨⟨-, hm⟩, hv⟩, ht⟩, hl⟩, hr⟩, hp⟩ := hb
  exact ⟨⟨⟨⟨⟨⟨decide_eq_true hd, hm⟩, hv⟩, ht⟩, hl⟩, hr⟩, hp⟩

/-- At its due a record keeps its volume, and its terms but for a day that exists (R34, R35). -/
theorem afterDue_inRange (now : Nat) (r : Reservation) :
    (r.afterDue now).terms.volume = r.terms.volume ∧
      (bookFieldsOk r.terms = true → bookFieldsOk (r.afterDue now).terms = true) := by
  unfold Reservation.afterDue
  split
  · exact ⟨rfl, id⟩
  · dsimp only
    split
    · exact ⟨rfl, id⟩
    · next hd => exact ⟨rfl, fun hf => bookFieldsOk_withDay hf (Nat.not_lt.mp hd)⟩

/-- The slots of the book without their records' top-up links say all of the records but these links. -/
theorem record?_of_slots (hslots : t.kept.slots = s.kept.slots) (n : Nat) :
    (t.record? n).map Reservation.bare = (s.record? n).map Reservation.bare := by
  have hslot : (t.bookSlot n).bare = (s.bookSlot n).bare := by
    have := congrArg (tget · (n - 1) BookSlot.initial.bare) hslots
    simpa only [State.kept, tget_map, State.bookSlot] using this
  exact congrArg BookSlot.record hslot

/-- What the shared work keeps of a record is all but its top-up link. -/
theorem record?_of_kept (hk : t.kept = s.kept) (n : Nat) :
    (t.record? n).map Reservation.bare = (s.record? n).map Reservation.bare :=
  record?_of_slots (congrArg Kept.slots hk) n

/-- The record in slot `n`, open or not, fits in the cylinder. -/
def State.fits (s : State) (n : Nat) : Prop := ∀ r, s.record? n = some r → r.terms.volume ≤ s.map.cylinderVolume

theorem fits_of_kept (hk : t.kept = s.kept) {n : Nat} (h : s.fits n) : t.fits n := by
  intro r hr
  have hb := record?_of_kept hk n
  rw [hr] at hb
  obtain ⟨r0, h0, e0⟩ := Option.map_eq_some_iff.mp hb.symm
  have hterms : r.terms = r0.terms := (congrArg Reservation.terms e0).symm
  have hmap : t.map = s.map := congrArg Kept.map hk
  rw [hterms, hmap]
  exact h r0 h0

theorem fits_modRecord (n m : Nat) {f : Reservation → Reservation} (hf : ∀ r, (f r).terms.volume = r.terms.volume)
    (h : s.fits m) : (s.modRecord n f).fits m := by
  intro r hr
  rcases bookSlot_setBookSlot n m { s.bookSlot n with record := (s.record? n).map f } s with ⟨e, e'⟩ | e
  · have hrec : (s.record? m).map f = some r := by
      rw [← hr, show s.record? m = s.record? n from congrArg BookSlot.record e'.symm]
      exact congrArg BookSlot.record e.symm
    obtain ⟨r0, h0, rfl⟩ := Option.map_eq_some_iff.mp hrec
    rw [hf]; exact h r0 h0
  · exact h r (hr ▸ congrArg BookSlot.record e.symm)

theorem fits_processDue (n m : Nat) (h : s.fits m) : (processDue s n).fits m := by
  unfold processDue; split
  · exact h
  · refine fits_of_kept (s := s.modRecord n fun r => r.afterDue s.clock.now) (by simp) ?_
    exact fits_modRecord n m (fun r => (afterDue_inRange _ r).1) h

theorem inOrder_processDue (n : Nat) (hn : s.fits n) (h : s.InOrder k) : (processDue s n).InOrder k := by
  have h1 : (s.modRecord n fun r => r.afterDue s.clock.now).InOrder k :=
    inOrder_modRecord (fun r hf _ hr =>
      have ⟨hv, ht⟩ := afterDue_inRange s.clock.now r
      ⟨ht hf, fun _ => hv ▸ hn r hr⟩) h
  unfold processDue; split
  · exact h
  · simp (maxDischargeDepth := 16) [h1]

theorem mem_records {n : Nat} {r : Reservation} : (n, r) ∈ s.records ↔ (1 ≤ n ∧ n ≤ 24) ∧ s.record? n = some r := by
  simp only [State.records, countTo, List.mem_filterMap, List.mem_map, List.mem_range, Option.map_eq_some_iff,
    Prod.mk.injEq]
  constructor
  · rintro ⟨m, ⟨j, hj, rfl⟩, x, hx, rfl, rfl⟩
    exact ⟨by omega, hx⟩
  · rintro ⟨hn, hr⟩
    exact ⟨n, ⟨n - 1, by omega, by omega⟩, r, hr, rfl, rfl⟩

/-- The records that are due fit in the cylinder, for they are open (R12, R33). -/
theorem fits_of_due (h : s.InOrder k) {n : Nat} (hn : n ∈ s.slotsDue) : s.fits n := by
  obtain ⟨⟨m, r⟩, hp, rfl⟩ := List.mem_map.mp hn
  have hopen := (perm_sortBy _ _).subset (List.mem_filter.mp hp).1
  obtain ⟨hrec, ho⟩ := List.mem_filter.mp hopen
  have hr := (mem_records.mp hrec).2
  intro r' hr'
  obtain rfl : r = r' := Option.some.inj (hr.symm.trans hr')
  exact ((bookLegal_iff.mp h.book).2 m).2 r hr |>.2 ho

/-- Due processing (R33). -/
@[simp] theorem inOrder_processDues (h : s.InOrder k) : (processDues s).InOrder k := by
  have each : ∀ (l : List Nat) (s : State), (∀ n ∈ l, s.fits n) → s.InOrder k → (l.foldl processDue s).InOrder k := by
    intro l
    induction l with
    | nil => exact fun _ _ h => h
    | cons n l ih =>
      intro s hl h
      exact ih _ (fun m hm => fits_processDue n m (hl m (List.mem_cons_of_mem n hm)))
        (inOrder_processDue n (hl n List.mem_cons_self) h)
  unfold processDues; split
  · exact h
  · exact inOrder_afterRemovals s (each _ s (fun _ hn => fits_of_due h hn) h)

/-! ### The clock -/

@[simp] theorem inOrder_takeDayChange (b : State) (h : s.InOrder k) : (takeDayChange b s).InOrder k := by
  unfold takeDayChange; split
  · exact h
  · exact inOrder_modSanitise h.monitor h

/-- A clock event, the clock standing at a minute that exists (R167). -/
@[simp] theorem inOrder_clockEvent (b : State) (h : s.InOrder k) : (clockEvent b s).InOrder k := by
  simp only [clockEvent]; split <;> simp (maxDischargeDepth := 16) [h]

theorem inOrder_withClock {c : Clock} (hc : c.legal) (h : s.InOrder k) : ({ s with clock := c } : State).InOrder k :=
  { h with clock := hc }

theorem legal_nextMinute {c : Clock} (h : c.legal) (hset : c.set = true) (hend : c.atEnd = false) :
    c.nextMinute.legal := by
  obtain ⟨hd, hm, -, -⟩ := h
  simp only [Clock.atEnd, Config.lastDay, Config.dayMinutes, Bool.and_eq_false_iff, beq_eq_false_iff_ne] at hend
  unfold Clock.nextMinute
  split
  · next hmin => exact ⟨hd, hmin, Nat.zero_lt_succ _, by simp [hset]⟩
  · next hmin =>
    have hday : c.day + 1 ≤ 65535 := by simp only [Config.dayMinutes] at hmin; omega
    exact ⟨hday, Nat.zero_lt_succ _, Nat.zero_lt_succ _, by simp [hset]⟩

theorem legal_clockTick {c : Clock} (h : c.legal) : c.tick.legal := by
  obtain ⟨hd, hm, hs, h0⟩ := h
  unfold Clock.tick
  split
  · next hset =>
    split
    · exact ⟨hd, hm, by dsimp only; omega, by simp [hset]⟩
    · split
      · exact ⟨hd, hm, Nat.zero_lt_succ _, by simp [hset]⟩
      · exact ⟨hd, hm, hs, h0⟩
  · exact ⟨hd, hm, hs, h0⟩

@[simp] theorem inOrder_advanceMinute (h : s.InOrder k) : (advanceMinute s).InOrder k := by
  unfold advanceMinute; split
  · next hc => exact inOrder_closing (inOrder_clockEvent s (inOrder_withClock (legal_nextMinute h.clock hc.1 hc.2) h))
  · exact h

/-! ### The strata of a map -/

/-- The volume of a stratum, read from the volumes alone. -/
theorem volume_eq_tget (m : StratumMap) (n : Nat) :
    (m.stratum n).volume = tget (m.strata.map (·.volume)) (n - 1) 25 :=
  (tget_map (·.volume) m.strata (n - 1) .initial).symm

theorem cylinderVolume_of_volumes {m m' : StratumMap} (hv : m'.strata.map (·.volume) = m.strata.map (·.volume)) :
    m'.cylinderVolume = m.cylinderVolume := by
  simpa only [StratumMap.cylinderVolume, Vector.toList_map] using congrArg (fun v => v.toList.sum) hv

/-- A map with the volumes it had, and its parameters and histories in their ranges, keeps the part in order. -/
theorem inOrder_modMap {f : StratumMap → StratumMap}
    (hv : (f s.map).strata.map (·.volume) = s.map.strata.map (·.volume)) (hr : (f s.map).reserveLine = s.map.reserveLine)
    (ht : 600 ≤ (f s.map).thetaMax ∧ (f s.map).thetaMax ≤ 950) (hg : 20 ≤ (f s.map).margin ∧ (f s.map).margin ≤ 100)
    (hp : ∀ p ∈ (f s.map).probes, p.history.length ≤ 3) (h : s.InOrder k) : (s.modMap f).InOrder k := by
  obtain ⟨hvol, -, -, h2, h8, -, -, -⟩ := h.map
  have hmap : (s.modMap f).map.legal := by
    refine ⟨fun n h1 h8 => ?_, ht.1, ht.2, hr ▸ h2, hr ▸ h8, hg.1, hg.2, hp⟩
    rw [modMap_map, volume_eq_tget, hv, ← volume_eq_tget]
    exact hvol n h1 h8
  have hbook : (s.modMap f).bookLegal := by
    obtain ⟨hs, hall⟩ := bookLegal_iff.mp h.book
    refine bookLegal_iff.mpr ⟨hs, fun n => ?_⟩
    rw [modMap_map, cylinderVolume_of_volumes hv]
    exact hall n
  have hmon : (s.modMap f).sanitise.legal (min k (s.modMap f).map.reserveLine) := by
    rw [modMap_map, hr]; exact h.monitor
  exact { h with map := hmap, book := hbook, monitor := hmon }

/-- A stratum written with the volume and the probe it has. -/
theorem inOrder_setStratum {n : Nat} {x : Stratum} (hv : x.volume = (s.stratum n).volume)
    (hp : x.probe = (s.stratum n).probe) (h : s.InOrder k) :
    (s.modMap fun m => { m with strata := tset m.strata (n - 1) x }).InOrder k := by
  obtain ⟨-, h600, h950, -, -, h20, h100, hhist⟩ := h.map
  refine inOrder_modMap (map_tset_self (·.volume) s.map.strata (n - 1) x .initial hv) rfl ⟨h600, h950⟩ ⟨h20, h100⟩ ?_ h
  have hprobes : (tset s.map.strata (n - 1) x).map (·.probe) = s.map.strata.map (·.probe) :=
    map_tset_self (·.probe) s.map.strata (n - 1) x .initial hp
  have : StratumMap.probes { s.map with strata := tset s.map.strata (n - 1) x } = s.map.probes := by
    simp only [StratumMap.probes, ← Vector.toList_map, hprobes]
  rw [this]; exact hhist

@[simp] theorem inOrder_writeClaims (l : Layer) (h : s.InOrder k) : (writeClaims s l).InOrder k :=
  inOrder_setStratum rfl rfl h

/-- A history never holds more than three readings (R2). -/
theorem length_file_le (range : ProbeRange) (x : Temp) (p : Probe) : (p.file range x).history.length ≤ 3 := by
  unfold Probe.file
  split
  · simp only [addReading, List.length_drop, List.length_append, List.length_singleton]; omega
  · exact Nat.zero_le 3

/-- The strata of a published map, each after its reading. -/
theorem stratum_afterSweep (m : StratumMap) (r : Readings) {n : Nat} (h1 : 1 ≤ n) (h8 : n ≤ 8) :
    (m.afterSweep r).stratum n = m.stratumAfter r n := by
  unfold StratumMap.stratum
  rw [tget_of_lt _ _ _ (by omega)]
  simp (maxDischargeDepth := 16) [StratumMap.afterSweep, Nat.sub_add_cancel h1]

theorem volumes_afterSweep (m : StratumMap) (r : Readings) :
    (m.afterSweep r).strata.map (·.volume) = m.strata.map (·.volume) := by
  ext i hi
  have e := stratum_afterSweep m r (n := i + 1) (by omega) (by omega)
  unfold StratumMap.stratum at e
  rw [tget_of_lt _ _ _ (by omega)] at e
  simp only [Nat.add_sub_cancel] at e
  simp only [Vector.getElem_map, e, StratumMap.stratumAfter, StratumMap.stratum, Nat.add_sub_cancel, tget_of_lt _ _ _ hi]

theorem history_afterSweep (m : StratumMap) (r : Readings) : ∀ p ∈ (m.afterSweep r).probes, p.history.length ≤ 3 := by
  intro p hp
  simp only [StratumMap.probes, StratumMap.afterSweep, List.mem_append, List.mem_map, List.mem_cons, List.not_mem_nil,
    or_false, Vector.toList_ofFn, List.mem_ofFn] at hp
  rcases hp with ⟨x, ⟨i, rfl⟩, rfl⟩ | rfl | rfl <;> exact length_file_le _ _ _

@[simp] theorem inOrder_publishMap (r : Readings) (h : s.InOrder k) : (publishMap r s).InOrder k := by
  obtain ⟨-, h600, h950, -, -, h20, h100, -⟩ := h.map
  have hm : (s.modMap fun _ => s.map.afterSweep r).InOrder k :=
    inOrder_modMap (volumes_afterSweep s.map r) rfl ⟨h600, h950⟩ ⟨h20, h100⟩ (history_afterSweep s.map r) h
  simp (maxDischargeDepth := 16) [publishMap, hm]

/-! ### Passes -/

@[simp] theorem inOrder_join (n : Nat) (x : Handle) (y : Temp) (d : Nat) (h : s.InOrder k) :
    (join n x y d s).InOrder k := by
  simp only [join]; split <;> simp (maxDischargeDepth := 16) [h]

@[simp] theorem inOrder_openTopUp (i : Nat) (x : Handle) (y : Temp) (d : Nat) (h : s.InOrder k) :
    (openTopUp i x y d s).InOrder k := by
  unfold openTopUp; repeat' split
  · exact h
  · next e => exact inOrder_setTopUp _ _ (inOrder_openOffered e h)
  · exact h

theorem inOrder_decideTopUp (p : Pass) (acc : State × Bool) (r : PassRecord × Verdict) (h : acc.1.InOrder k) :
    (decideTopUp p acc r).1.InOrder k := by
  simp only [decideTopUp]; repeat' split
  all_goals simp (maxDischargeDepth := 16) [h]

/-- A verdict is written into an open record alone, which keeps its terms (R31, R49). -/
@[simp] theorem inOrder_writeVerdict (p : Pass) (r : PassRecord × Verdict) (h : s.InOrder k) :
    (writeVerdict p s r).InOrder k := by
  unfold writeVerdict; split
  · exact h
  · next x hx =>
    have hrec : s.record? r.1.handle.slot = some x ∧ x.state.isOpen = true := by
      unfold State.passRecord? State.recordOf? at hx
      split at hx
      · cases hx
      · split at hx
        · exact (Option.filter_eq_some_iff.mp hx)
        · cases hx
    refine inOrder_raiseIf _ _ (inOrder_modRecord (fun x' hf hv hx' => ⟨hf, fun _ => hv ?_⟩) h)
    obtain rfl : x = x' := Option.some.inj (hrec.1.symm.trans hx')
    exact hrec.2

/-- Everything the end of a pass brings about (R49). -/
@[simp] theorem inOrder_completePass (p : Pass) (h : s.InOrder k) : (completePass p s).InOrder k := by
  have decisions : ∀ (l : List (PassRecord × Verdict)) (acc : State × Bool), acc.1.InOrder k →
      (l.foldl (decideTopUp p) acc).1.InOrder k := by
    intro l
    induction l with
    | nil => exact fun _ h => h
    | cons r l ih => exact fun acc h => ih _ (inOrder_decideTopUp p acc r h)
  refine foldl_inOrder _ (fun _ n h => inOrder_testFinishingUnlessSanitise n h) _ _ (inOrder_endPass (decisions _ _ ?_))
  refine foldl_inOrder _ (fun _ l h => inOrder_writeClaims l h) _ _ ?_
  exact foldl_inOrder _ (fun _ r h => inOrder_writeVerdict p r h) _ s h

@[simp] theorem inOrder_finishPass (h : s.InOrder k) : (finishPass s).InOrder k := by
  unfold finishPass; split <;> simp (maxDischargeDepth := 16) [h]

/-! ### Sweeps -/

@[simp] theorem inOrder_withGuard (h : s.InOrder k) : s.withGuard.InOrder k := by
  simp (maxDischargeDepth := 16) [State.withGuard, h]

@[simp] theorem inOrder_loseMapFor (n : Nat) (h : s.InOrder k) : (loseMapFor s n).InOrder k := by
  unfold loseMapFor; split <;> simp (maxDischargeDepth := 16) [h]

@[simp] theorem inOrder_loseMap (h : s.InOrder k) : (loseMap s).InOrder k :=
  inOrder_stopTrial (foldl_inOrder _ (fun _ n h => inOrder_loseMapFor n h) _ s h)

@[simp] theorem inOrder_tellFree (n : Nat) (h : s.InOrder k) : (tellFree s n).InOrder k := by
  unfold tellFree; repeat' split
  all_goals simp (maxDischargeDepth := 16) [h]

@[simp] theorem inOrder_admitMap (b : State) (h : s.InOrder k) : (admitMap b s).InOrder k := by
  have h2 : (resettle b (if b.map.valid && !s.map.valid then loseMap s.withGuard else s.withGuard)).InOrder k := by
    split <;> simp (maxDischargeDepth := 16) [h]
  simp only [admitMap]
  split
  · exact foldl_inOrder _ (fun _ n h => inOrder_tellFree n h) _ _ h2
  · exact h2

@[simp] theorem inOrder_testAllFinishing (h : s.InOrder k) : (testAllFinishing s).InOrder k :=
  foldl_inOrder _ (fun _ n h => inOrder_testFinishing n h) _ s h

@[simp] theorem inOrder_announceMap (b : State) (h : s.InOrder k) : (announceMap b s).InOrder k := by
  simp (maxDischargeDepth := 16) [announceMap, h]

@[simp] theorem inOrder_completeSweep (r : Readings) (h : s.InOrder k) : (completeSweep r s).InOrder k := by
  unfold completeSweep; split <;> simp (maxDischargeDepth := 16) [h]

@[simp] theorem inOrder_takeGuard (b : State) (h : s.InOrder k) : (takeGuard b s).InOrder k := by
  simp (maxDischargeDepth := 16) [takeGuard, h]

@[simp] theorem inOrder_followCeiling (n : Nat) (h : s.InOrder k) : (followCeiling s n).InOrder k := by
  simp only [followCeiling]; repeat' split
  all_goals simp (maxDischargeDepth := 16) [h]

@[simp] theorem inOrder_announceGuard (b : State) (h : s.InOrder k) : (announceGuard b s).InOrder k := by
  unfold announceGuard; split <;> simp (maxDischargeDepth := 16) [h]

@[simp] theorem inOrder_endBelowLine (n : Nat) (h : s.InOrder k) : (endBelowLine s n).InOrder k := by
  unfold endBelowLine; split <;> simp (maxDischargeDepth := 16) [h]

/-- A floor lifted to the line stands by the line, whatever line it stood by (R13). -/
theorem inOrder_liftFloor (h : s.InOrder k) : (liftFloor s).InOrder 8 := by
  obtain ⟨-, -, -, -, h8, -⟩ := h.map
  obtain ⟨hi, htl, hth, hhl, hhh, -, hf, hs, hll, hlh⟩ := h.monitor
  unfold liftFloor
  split
  · have hm : ({ s.sanitise with floor := s.map.reserveLine, accumulator := 0 } : Sanitise).legal
        (min 8 s.map.reserveLine) := ⟨hi, htl, hth, hhl, hhh, Nat.min_le_right 8 _, h8, hs, hll, hlh⟩
    exact { h with monitor := hm }
  · next hline =>
    have hm : s.sanitise.legal (min 8 s.map.reserveLine) :=
      ⟨hi, htl, hth, hhl, hhh, (Nat.min_le_right 8 _).trans (Nat.not_lt.mp hline), hf, hs, hll, hlh⟩
    exact { h with monitor := hm }

end Sys2Proof.Machine

/-! Every request and every event keeps the part in order, and so does a second of the timebase. -/

namespace Sys2Proof.Machine

variable {k : Nat} {s t : State}

/-! ### Requests -/

@[simp] theorem inOrder_answering (code : Byte) (st : Status) (fields : List Byte) (h : s.InOrder k) :
    (s.answering code st fields).InOrder k := inOrder_modPort _ h

/-- A request keeps the part in order where its work does. -/
theorem inOrder_request {code : Byte} {work : State → Reply} (hw : (work s).state.InOrder k) (h : s.InOrder k) :
    (request code work s).InOrder k := by
  simp only [request]; repeat' split
  all_goals simp (maxDischargeDepth := 16) [h, hw]

theorem inOrder_query {code : Byte} {f : State → Status × List Byte} (h : s.InOrder k) : (query code f s).InOrder k := by
  unfold query; split <;> simp (maxDischargeDepth := 16) [h]

theorem inOrder_portRequest {code : Byte} {f : State → List Byte} {g : State → State} (hg : (g s).InOrder k)
    (h : s.InOrder k) : (portRequest code f g s).InOrder k := by
  unfold portRequest; split <;> simp (maxDischargeDepth := 16) [h, hg]

@[simp] theorem state_ok (s : State) : (Reply.ok s).state = s := rfl
@[simp] theorem state_okWith (fields : List Byte) (s : State) : (Reply.okWith fields s).state = s := rfl
@[simp] theorem state_no (st : Status) (s : State) : (Reply.no st s).state = s := rfl

/-! ### The book -/

/-- The terms of an AMEND that passes its checks lie in their ranges (R24). -/
theorem bookFieldsOk_amended {x : AmendTerms} {b : BookTerms} (hx : amendFieldsOk x = true)
    (hb : bookFieldsOk b = true) : bookFieldsOk (amendedTerms x b) = true := by
  simp only [amendFieldsOk, bookFieldsOk, Bool.and_eq_true] at hx hb ⊢
  obtain ⟨⟨⟨⟨⟨xd, xv⟩, xt⟩, xl⟩, xr⟩, xp⟩ := hx
  obtain ⟨⟨⟨⟨⟨bd, bv⟩, bt⟩, bl⟩, br⟩, bp⟩ := hb
  have given : ∀ {α : Type} {ok : α → Bool} {o : Option α} {d : α}, o.all ok = true → ok d = true →
      ok (o.getD d) = true := by
    intro α ok o d ho hd
    cases o <;> assumption
  refine ⟨⟨⟨⟨⟨?_, given xv bv⟩, given xt bt⟩, given xl bl⟩, given xr br⟩, given xp bp⟩
  simp only [amendedTerms]
  cases h : x.due with
  | none => exact bd
  | some d => rw [h] at xd; exact xd

theorem satInc_le {n : Nat} (h : n ≤ 65535) : satInc n ≤ 65535 := by
  unfold satInc Config.top16; split <;> omega

@[simp] theorem inOrder_takeBook (b : BookTerms) (h : s.InOrder k) : (takeBook b s).state.InOrder k := by
  unfold takeBook
  split
  · exact h
  · next hfault =>
    split
    · have hs : (s.modBook fun x => { x with starved := satInc x.starved }).bookLegal :=
        ⟨satInc_le h.book.1, h.book.2⟩
      exact inOrder_raise _ { h with book := hs }
    · next n _ =>
      refine inOrder_passStart (inOrder_setBookSlot ⟨((bookLegal_iff.mp h.book).2 n).1, ?_⟩ h)
      rintro r ⟨⟩
      simp only [State.bookFault] at hfault
      repeat' split at hfault
      all_goals try cases hfault
      next hf hv _ =>
        have hf' : bookFieldsOk b = true := by simpa using hf
        exact ⟨hf', fun _ => Nat.not_lt.mp hv⟩

theorem inOrder_withReservation {x : Handle} {work : Reservation → State → Reply}
    (hw : ∀ r, s.record? x.slot = some r → (work r s).state.InOrder k) (h : s.InOrder k) :
    (withReservation x work s).state.InOrder k := by
  unfold withReservation; repeat' split
  · exact h
  · exact h
  · next r hr => exact hw r hr

@[simp] theorem inOrder_amendRecord (x : Handle) (a : AmendTerms) (r : Reservation) (hr : s.record? x.slot = some r)
    (h : s.InOrder k) : (amendRecord x a r s).state.InOrder k := by
  unfold amendRecord
  split
  · exact h
  · next hfault =>
    split
    · exact h
    · refine inOrder_passStart (inOrder_exceptRecord _ (inOrder_modRecord (fun r' hf hv hr' => ?_) h))
      obtain rfl : r = r' := Option.some.inj (hr.symm.trans hr')
      simp only [State.amendFault] at hfault
      repeat' split at hfault
      all_goals try cases hfault
      next hx hvol _ => exact ⟨bookFieldsOk_amended (by simpa using hx) hf, fun _ => Nat.not_lt.mp hvol⟩

theorem inOrder_withdrawRecord (x : Handle) (r : Reservation) (h : s.InOrder k) :
    (withdrawRecord x r s).state.InOrder k := by
  unfold withdrawRecord
  split
  · have h1 : (s.modRecord x.slot fun r => { r with state := .withdrawn }).InOrder k :=
      inOrder_modRecord (fun r hf _ _ => ⟨hf, fun ho => by cases ho⟩) h
    simp (maxDischargeDepth := 16) [h1]
  · exact h

theorem inOrder_releaseRecord (x : Handle) (r : Reservation) (h : s.InOrder k) :
    (releaseRecord x r s).state.InOrder k := by
  unfold releaseRecord
  split
  · exact h
  · exact inOrder_passStart (inOrder_setBookSlot ⟨Nat.mod_lt _ (by decide), fun r hr => by cases hr⟩ h)

/-! ### Leases, roster and link -/

theorem inOrder_takeOpenBoost (i : Nat) (c : Temp) (m : Nat) (b : Option Nat) (h : s.InOrder k) :
    (takeOpenBoost i c m b s).state.InOrder k := by
  unfold takeOpenBoost; repeat' split
  · exact h
  · exact h
  · exact h
  · exact h
  · next e => exact inOrder_openOffered e h

theorem inOrder_withLease {x : Handle} {work : Lease → State → Reply} (hw : ∀ l, (work l s).state.InOrder k)
    (h : s.InOrder k) : (withLease x work s).state.InOrder k := by
  unfold withLease; repeat' split
  all_goals simp (maxDischargeDepth := 16) [h, hw]

theorem inOrder_revokeNamed (x : Handle) (l : Lease) (h : s.InOrder k) : (revokeNamed x l s).state.InOrder k := by
  unfold revokeNamed; split <;> simp (maxDischargeDepth := 16) [h]

theorem inOrder_takeSetStation (i ca c ra r : Nat) (h : s.InOrder k) :
    (takeSetStation i ca c ra r s).state.InOrder k := by
  unfold takeSetStation; repeat' split
  all_goals simp (maxDischargeDepth := 16) [h]

theorem inOrder_takeClearBar (i : Nat) (h : s.InOrder k) : (takeClearBar i s).state.InOrder k := by
  unfold takeClearBar; repeat' split
  all_goals simp (maxDischargeDepth := 16) [h]

@[simp] theorem inOrder_clearLimitOf (i : Nat) (h : s.InOrder k) : (clearLimitOf i s).InOrder k := by
  unfold clearLimitOf; split <;> simp (maxDischargeDepth := 16) [h]

theorem inOrder_takeRelearn (i : Nat) (h : s.InOrder k) : (takeRelearn i s).state.InOrder k := by
  unfold takeRelearn; repeat' split
  all_goals simp (maxDischargeDepth := 16) [h]

theorem inOrder_takeForget (i : Nat) (h : s.InOrder k) : (takeForget i s).state.InOrder k := by
  unfold takeForget; repeat' split
  all_goals simp (maxDischargeDepth := 16) [h]

theorem inOrder_takeDiscover (h : s.InOrder k) : (takeDiscover s).state.InOrder k := by
  unfold takeDiscover; split <;> simp (maxDischargeDepth := 16) [h]

theorem inOrder_takeSetSchedule (l : List Nat) (h : s.InOrder k) : (takeSetSchedule l s).state.InOrder k := by
  unfold takeSetSchedule; repeat' split
  all_goals simp (maxDischargeDepth := 16) [h]

theorem inOrder_takeAutoCap (v : Int) (h : s.InOrder k) : (takeAutoCap v s).state.InOrder k := by
  unfold takeAutoCap; repeat' split
  all_goals simp (maxDischargeDepth := 16) [h]

@[simp] theorem inOrder_enterHalt (h : s.InOrder k) : (enterHalt s).InOrder k := by
  have h1 : (upTo8.foldl haltLease (s.modAdmission fun a => { a with halted := true })).InOrder k :=
    foldl_inOrder _ (fun _ n h => inOrder_dismiss n _ h) _ _ (by simp (maxDischargeDepth := 16) [h])
  simp only [enterHalt, haltRecooling]
  split <;> simp (maxDischargeDepth := 16) [h1]

theorem inOrder_takeHalt (h : s.InOrder k) : (takeHalt s).state.InOrder k := by
  simp only [takeHalt]; split <;> simp (maxDischargeDepth := 16) [h]

theorem inOrder_takeResumeAll (h : s.InOrder k) : (takeResumeAll s).state.InOrder k := by
  unfold takeResumeAll; split <;> simp (maxDischargeDepth := 16) [h]

/-! ### Parameters -/

theorem within_iff {lo hi v : Int} : within lo hi v = true ↔ lo ≤ v ∧ v ≤ hi := by
  simp only [within, Bool.and_eq_true, decide_eq_true_eq]

/-- A lease parameter is set inside its range (R75). -/
theorem legal_setLease {a b : Admission} {number : Nat} {v : Int} (e : a.setLease number v = some b) (h : a.legal) :
    b.legal := by
  obtain ⟨ht, ht', hh, hr, hr', hr100, hb, hb100⟩ := h
  unfold Admission.setLease at e
  split at e
  · split at e
    · next hw =>
      cases e
      obtain ⟨lo, hi⟩ := within_iff.mp hw
      exact ⟨by dsimp only; omega, by dsimp only; omega, hh, hr, hr', hr100, hb, hb100⟩
    · cases e
  · split at e
    · next hw =>
      cases e
      obtain ⟨lo, hi⟩ := within_iff.mp hw
      exact ⟨ht, ht', by dsimp only; omega, hr, hr', hr100, hb, hb100⟩
    · cases e
  · obtain ⟨x, -, rfl⟩ := Option.map_eq_some_iff.mp e
    exact ⟨ht, ht', hh, hr, hr', hr100, hb, hb100⟩
  · cases e

theorem inOrder_takeLeaseParameter (n : Nat) (v : Int) (h : s.InOrder k) :
    (takeLeaseParameter n v s).state.InOrder k := by
  unfold takeLeaseParameter; split
  · exact h
  · next a e => exact inOrder_setAdmission (f := fun _ => a) (legal_setLease e h.admission) h

theorem inOrder_takeSiteBudget (v : Int) (h : s.InOrder k) : (takeSiteBudget v s).state.InOrder k := by
  unfold takeSiteBudget; repeat' split
  · exact h
  · exact h
  · next hw _ =>
    obtain ⟨lo, hi⟩ := within_iff.mp (eq_true_of_ne_false hw)
    obtain ⟨ht, ht', hh, hr, hr', hr100, -, -⟩ := h.admission
    have hb : 100 * v.toNat ≤ 20000 := by omega
    rw [state_ok, settling]
    exact inOrder_settle s (inOrder_setAdmission (f := fun a => { a with siteBudget := 100 * v.toNat })
      ⟨ht, ht', hh, hr, hr', hr100, hb, Nat.mul_mod_right 100 _⟩ h)

theorem inOrder_takeSolarRating (v : Int) (h : s.InOrder k) : (takeSolarRating v s).state.InOrder k := by
  unfold takeSolarRating; repeat' split
  · exact h
  · exact h
  · next hw _ =>
    obtain ⟨lo, hi⟩ := within_iff.mp (eq_true_of_ne_false hw)
    obtain ⟨ht, ht', hh, -, -, -, hb, hb100⟩ := h.admission
    have hr : 500 ≤ 100 * v.toNat ∧ 100 * v.toNat ≤ 15000 := by omega
    rw [state_ok]
    exact inOrder_resettle s (inOrder_setAdmission (f := fun a => { a with rating := 100 * v.toNat })
      ⟨ht, ht', hh, hr.1, hr.2, Nat.mul_mod_right 100 _, hb, hb100⟩ h)

/-- A loop parameter is set inside its range and in the bounds of the others (R153, §9.1). -/
theorem legal_loopSet {p q : LoopParams} {number : Nat} {v : Int} (e : p.set number v = some q) (h : p.legal) :
    q.legal := by
  obtain ⟨hs, hs', hd, hd', hp, hp', hm, hm', hf, hg, hg', hl, hl', hu, hu', hq, hq', hw, hw', hne⟩ := h
  unfold LoopParams.set at e
  split at e
  all_goals
    simp only [Option.ite_none_right_eq_some, Option.some.injEq, within_iff, Bool.and_eq_true, decide_eq_true_eq,
      bne_iff_ne, reduceCtorEq, Option.map_eq_some_iff] at e
  · obtain ⟨⟨⟨lo, hi⟩, hb⟩, rfl⟩ := e
    exact ⟨lo, hi, hd, hb, hp, hp', hm, hm', hf, hg, hg', hl, hl', hu, hu', hq, hq', hw, hw', hne⟩
  · obtain ⟨⟨lo, hi⟩, rfl⟩ := e
    exact ⟨hs, hs', lo, hi, hp, hp', hm, hm', hf, hg, hg', hl, hl', hu, hu', hq, hq', hw, hw', hne⟩
  · obtain ⟨hv, rfl⟩ := e
    obtain ⟨lo, hi⟩ : 30 ≤ v.toNat ∧ v.toNat ≤ 300 := by omega
    exact ⟨hs, hs', hd, hd', lo, hi, hm, hm', hf, hg, hg', hl, hl', hu, hu', hq, hq', hw, hw', hne⟩
  · obtain ⟨hv, rfl⟩ := e
    obtain ⟨lo, hi⟩ : 20 ≤ v.toNat ∧ v.toNat ≤ 100 := by omega
    exact ⟨hs, hs', hd, hd', hp, hp', lo, hi, hf, hg, hg', hl, hl', hu, hu', hq, hq', hw, hw', hne⟩
  · split at e
    · cases e
      exact ⟨hs, hs', hd, hd', hp, hp', hm, hm', nofun, hg, hg', hl, hl', hu, hu', hq, hq', hw, hw', hne⟩
    · simp only [Option.ite_none_right_eq_some, Option.some.injEq] at e
      obtain ⟨hv, rfl⟩ := e
      have hf : ∀ x, some v = some x → 30 ≤ x ∧ x ≤ 400 := by rintro x ⟨⟩; exact hv
      exact ⟨hs, hs', hd, hd', hp, hp', hm, hm', hf, hg, hg', hl, hl', hu, hu', hq, hq', hw, hw', hne⟩
  · obtain ⟨⟨⟨lo, hi⟩, hb⟩, rfl⟩ := e
    exact ⟨hs, hs', hd, hd', hp, hp', hm, hm', hf, lo, hi, hl, hb, hu, hu', hq, hq', hw, hw', hne⟩
  · obtain ⟨⟨lo, hi⟩, rfl⟩ := e
    exact ⟨hs, hs', hd, hd', hp, hp', hm, hm', hf, hg, hg', lo, hi, hu, hu', hq, hq', hw, hw', hne⟩
  · obtain ⟨hv, rfl⟩ := e
    obtain ⟨lo, hi⟩ : 2 ≤ v.toNat ∧ v.toNat ≤ 8 := by omega
    exact ⟨hs, hs', hd, hd', hp, hp', hm, hm', hf, hg, hg', hl, hl', lo, hi, hq, hq', hw, hw', hne⟩
  · obtain ⟨hv, rfl⟩ := e
    obtain ⟨lo, hi⟩ : 1 ≤ v.toNat ∧ v.toNat ≤ 100 := by omega
    exact ⟨hs, hs', hd, hd', hp, hp', hm, hm', hf, hg, hg', hl, hl', hu, hu', lo, hi, hw, hw', hne⟩
  · obtain ⟨b, -, rfl⟩ := e
    exact ⟨hs, hs', hd, hd', hp, hp', hm, hm', hf, hg, hg', hl, hl', hu, hu', hq, hq', hw, hw', hne⟩
  · obtain ⟨⟨hv, hb⟩, rfl⟩ := e
    have hi : v.toNat ≤ 1439 := by omega
    exact ⟨hs, hs', hd, hd', hp, hp', hm, hm', hf, hg, hg', hl, hl', hu, hu', hq, hq', hi, hw', hb⟩
  · obtain ⟨⟨hv, hb⟩, rfl⟩ := e
    have hi : v.toNat ≤ 1439 := by omega
    exact ⟨hs, hs', hd, hd', hp, hp', hm, hm', hf, hg, hg', hl, hl', hu, hu', hq, hq', hw, hi, hb.symm⟩

theorem inOrder_takeLoopParameter (n : Nat) (v : Int) (h : s.InOrder k) : (takeLoopParameter n v s).state.InOrder k := by
  unfold takeLoopParameter; split
  · exact h
  · next p e =>
    have hp : (s.modSolar fun x => { x with params := p, pump := pumpAfter x.state x.pump p.minSpeed }).InOrder k :=
      { h with loop := legal_loopSet e h.loop }
    split
    · exact h
    · simp only [state_ok, writeLoopParams]
      refine inOrder_checkRecoolWindow (inOrder_resettle s (inOrder_followInlet ?_))
      split
      · exact inOrder_modSolar _ rfl hp
      · exact hp

theorem inOrder_takeRemeasure (h : s.InOrder k) : (takeRemeasure s).state.InOrder k := by
  unfold takeRemeasure; repeat' split
  all_goals simp (maxDischargeDepth := 16) [beginRemeasure, h]

/-- A sanitise setting is set inside its range, the floor not below the line that stands (R169). -/
theorem legal_sanitiseSetting {m n : Sanitise} {line number : Nat} {v : Int}
    (e : m.setting line number v = some n) (hk : m.legal (min k line)) : n.legal (min k line) := by
  obtain ⟨hi, ht, ht', hh, hh', hf, hf', hs, hl, hl'⟩ := hk
  unfold Sanitise.setting at e
  split at e
  all_goals
    simp only [Option.ite_none_right_eq_some, Option.some.injEq, within_iff, reduceCtorEq] at e
  · split at e
    · cases e
      exact ⟨nofun, ht, ht', hh, hh', hf, hf', hs, hl, hl'⟩
    · simp only [Option.ite_none_right_eq_some, Option.some.injEq] at e
      obtain ⟨hv, rfl⟩ := e
      have hi : ∀ x, some v.toNat = some x → 1 ≤ x ∧ x ≤ 14 := by rintro x ⟨⟩; omega
      exact ⟨hi, ht, ht', hh, hh', hf, hf', hs, hl, hl'⟩
  · obtain ⟨⟨lo, hi'⟩, rfl⟩ := e
    exact ⟨hi, lo, hi', hh, hh', hf, hf', hs, hl, hl'⟩
  · obtain ⟨hv, rfl⟩ := e
    obtain ⟨lo, hi'⟩ : 10 ≤ v.toNat ∧ v.toNat ≤ 90 := by omega
    exact ⟨hi, ht, ht', lo, hi', hf, hf', hs, hl, hl'⟩
  · obtain ⟨hv, rfl⟩ := e
    obtain ⟨lo, hi'⟩ : min k line ≤ v.toNat ∧ v.toNat ≤ 8 := by omega
    exact ⟨hi, ht, ht', hh, hh', lo, hi', hs, hl, hl'⟩
  · obtain ⟨hv, rfl⟩ := e
    have hi' : v.toNat ≤ 1439 := by omega
    exact ⟨hi, ht, ht', hh, hh', hf, hf', hi', hl, hl'⟩
  · obtain ⟨hv, rfl⟩ := e
    obtain ⟨lo, hi'⟩ : 30 ≤ v.toNat ∧ v.toNat ≤ 480 := by omega
    exact ⟨hi, ht, ht', hh, hh', hf, hf', hs, lo, hi'⟩

theorem inOrder_takeSanitiseSetting (n : Nat) (v : Int) (h : s.InOrder k) :
    (takeSanitiseSetting n v s).state.InOrder k := by
  unfold takeSanitiseSetting; split
  · exact h
  · next m e =>
    have hleg : m.legal (min k s.map.reserveLine) := legal_sanitiseSetting e h.monitor
    have hm : (s.modSanitise fun old => { m with accumulator := old.accumulatorAfter m }).InOrder k :=
      inOrder_modSanitise hleg h
    split
    · exact h
    · simp only [state_ok, writeSanitise]
      split <;> simp (maxDischargeDepth := 16) [hm]

/-! ### The cylinder -/

/-- The volume written stands in its stratum, every other as before. -/
theorem stratum_withVolume (m : StratumMap) (v : Nat) {i n : Nat} (hi : 1 ≤ i ∧ i ≤ 8) (hn : 1 ≤ n ∧ n ≤ 8) :
    (m.withVolume i v).stratum n = if n = i then { m.stratum i with volume := v } else m.stratum n := by
  split
  · next e => subst e; exact tget_tset_self _ _ _ _ (by omega)
  · next e => exact tget_tset_ne _ _ _ _ _ (by omega)

theorem probes_withVolume (m : StratumMap) (i v : Nat) : (m.withVolume i v).probes = m.probes := by
  have h : (tset m.strata (i - 1) { m.stratum i with volume := v }).map (·.probe) = m.strata.map (·.probe) :=
    map_tset_self (·.probe) m.strata (i - 1) _ .initial rfl
  simp only [StratumMap.probes, StratumMap.withVolume, ← Vector.toList_map, h]

/-- Every open reservation fits in a volume exactly where the check says so (R12). -/
theorem openVolumesFit_iff {volume : Nat} : s.openVolumesFit volume = true ↔
    ∀ n r, 1 ≤ n → n ≤ 24 → s.record? n = some r → r.state.isOpen = true → r.terms.volume ≤ volume := by
  simp only [State.openVolumesFit, List.all_eq_true, Prod.forall, mem_records, Bool.or_eq_true, Bool.not_eq_true',
    decide_eq_true_eq]
  constructor
  · intro h n r h1 h24 hr ho
    exact (h n r ⟨⟨h1, h24⟩, hr⟩).resolve_left (by simp (maxDischargeDepth := 16) [ho])
  · intro h n r hr
    cases ho : r.state.isOpen
    · exact .inl rfl
    · exact .inr (h n r hr.1.1 hr.1.2 hr.2 ho)

theorem inOrder_takeStratumVolume (n : Nat) (v : Int) (h : s.InOrder k) :
    (takeStratumVolume n v s).state.InOrder k := by
  unfold takeStratumVolume
  split
  · exact h
  · next hr =>
    split
    · exact h
    · split
      · next hfit =>
        simp only [not_or, Bool.not_eq_false, within_iff] at hr
        obtain ⟨h1, h8, hv⟩ := hr
        obtain ⟨hvol, hrest⟩ := h.map
        have hmap : (s.map.withVolume n v.toNat).legal := by
          refine ⟨fun i hi hi8 => ?_, probes_withVolume s.map n v.toNat ▸ hrest⟩
          rw [stratum_withVolume _ _ (by omega) ⟨hi, hi8⟩]
          split
          · dsimp only; omega
          · exact hvol i hi hi8
        have hbook : (s.modMap fun m => m.withVolume n v.toNat).bookLegal :=
          ⟨h.book.1, fun i h1 h24 => ⟨(h.book.2 i h1 h24).1, fun r hr =>
            ⟨((h.book.2 i h1 h24).2 r hr).1, openVolumesFit_iff.mp hfit i r h1 h24 hr⟩⟩⟩
        exact { h with map := hmap, book := hbook }
      · exact h

theorem inOrder_takeMargin (v : Int) (h : s.InOrder k) : (takeMargin v s).state.InOrder k := by
  unfold takeMargin; repeat' split
  · exact h
  · exact h
  · next hw _ =>
    obtain ⟨-, h600, h950, -, -, -, -, hp⟩ := h.map
    rw [state_ok]
    exact inOrder_passStart (inOrder_modMap (f := fun m => { m with margin := v }) rfl rfl ⟨h600, h950⟩
      (within_iff.mp (eq_true_of_ne_false hw)) hp h)

theorem inOrder_takeThetaMax (v : Int) (h : s.InOrder k) : (takeThetaMax v s).state.InOrder k := by
  unfold takeThetaMax; repeat' split
  · exact h
  · exact h
  · next hw _ =>
    obtain ⟨-, -, -, -, -, h20, h100, hp⟩ := h.map
    rw [state_ok, writeThetaMax]
    refine inOrder_announceGuard _ (foldl_inOrder _ (fun _ n h => inOrder_followCeiling n h) _ _ ?_)
    exact inOrder_modMap (f := fun m => { m with thetaMax := v, guard := guardOf m.valid (s.temp 8) v }) rfl rfl
      (within_iff.mp (eq_true_of_ne_false hw)) ⟨h20, h100⟩ hp h

/-- A raised line takes the floor with it, and a lowered one leaves the floor at or above it (R13). -/
theorem inOrder_writeReserveLine {v : Nat} (h2 : 2 ≤ v) (h8 : v ≤ 8) (h : s.InOrder 8) :
    (writeReserveLine v s).InOrder 8 := by
  obtain ⟨hvol, h600, h950, hl2, hl8, h20, h100, hp⟩ := h.map
  have hmap : ({ s.map with reserveLine := v } : StratumMap).legal := ⟨hvol, h600, h950, h2, h8, h20, h100, hp⟩
  obtain ⟨hi, ht, ht', hh, hh', hf, hmon⟩ := h.monitor
  refine inOrder_noteEligible s (inOrder_passStart ?_)
  split
  · next hup =>
    have hline : s.sanitise.legal (min s.map.reserveLine v) := ⟨hi, ht, ht', hh, hh', by omega, hmon⟩
    have h1 : (s.modMap fun m => { m with reserveLine := v }).InOrder s.map.reserveLine :=
      { h with map := hmap, monitor := hline }
    exact inOrder_liftFloor (inOrder_resettle s (foldl_inOrder _ (fun _ n h => inOrder_endBelowLine n h) _ _ h1))
  · next hdown =>
    have hline : s.sanitise.legal (min 8 v) := ⟨hi, ht, ht', hh, hh', by omega, hmon⟩
    exact { h with map := hmap, monitor := hline }

theorem inOrder_takeReserveLine (v : Int) (h : s.InOrder 8) : (takeReserveLine v s).state.InOrder 8 := by
  unfold takeReserveLine; repeat' split
  · exact h
  · exact h
  · next hw _ =>
    obtain ⟨lo, hi⟩ := within_iff.mp (eq_true_of_ne_false hw)
    rw [state_ok]
    exact inOrder_writeReserveLine (by omega) (by omega) h

theorem inOrder_takeSetClock (d m : Nat) (h : s.InOrder k) : (takeSetClock d m s).state.InOrder k := by
  unfold takeSetClock
  split
  · exact h
  · next hr =>
    simp only [not_or, not_lt, not_le] at hr
    rw [state_ok]
    exact inOrder_clockEvent s (inOrder_withClock ⟨hr.1, hr.2, Nat.zero_lt_succ _, nofun⟩ h)

/-! ### Events -/

theorem inOrder_endCooldown (i : Nat) (h : s.InOrder k) : (endCooldown i s).InOrder k := by
  unfold endCooldown; split <;> simp (maxDischargeDepth := 16) [h]

theorem inOrder_endRetry (i : Nat) (h : s.InOrder k) : (endRetry i s).InOrder k := by
  unfold endRetry; split <;> simp (maxDischargeDepth := 16) [h]

theorem inOrder_endTrialWindow (h : s.InOrder k) : (endTrialWindow s).InOrder k := by
  unfold endTrialWindow; repeat' split
  all_goals simp (maxDischargeDepth := 16) [h]

theorem inOrder_endStepTimer (x : Handle) (h : s.InOrder k) : (endStepTimer x s).InOrder k := by
  unfold endStepTimer; repeat' split
  all_goals simp (maxDischargeDepth := 16) [h]

theorem inOrder_endDuration (x : Handle) (h : s.InOrder k) : (endDuration x s).InOrder k := by
  unfold endDuration expireDuration; repeat' split
  all_goals simp (maxDischargeDepth := 16) [h]

theorem inOrder_endHold (x : Handle) (h : s.InOrder k) : (endHold x s).InOrder k := by
  unfold endHold; repeat' split
  all_goals simp (maxDischargeDepth := 16) [h]

theorem inOrder_endRevokeTime (x : Handle) (h : s.InOrder k) : (endRevokeTime x s).InOrder k := by
  unfold endRevokeTime; repeat' split
  all_goals simp (maxDischargeDepth := 16) [h]

theorem inOrder_takePulse (h : s.InOrder k) : (takePulse s).InOrder k := by
  unfold takePulse
  split
  · exact h
  · simp only [meterPulse]; split <;> simp (maxDischargeDepth := 16) [h]

@[simp] theorem inOrder_endPriming (h : s.InOrder k) : (endPriming s).InOrder k := by
  unfold endPriming; split <;> simp (maxDischargeDepth := 16) [h]

@[simp] theorem inOrder_stepPump (x : Temp) (h : s.InOrder k) : (stepPump x s).InOrder k := by
  simp only [stepPump]; split <;> simp (maxDischargeDepth := 16) [h]

theorem inOrder_endStep (h : s.InOrder k) : (endStep s).InOrder k := by
  unfold endStep; repeat' split
  all_goals simp (maxDischargeDepth := 16) [h]

theorem inOrder_tick (h : s.InOrder k) : (tick s).InOrder k :=
  { h with clock := legal_clockTick h.clock }

/-! ### Every step -/

/-- A table filled with one thing reads as that thing, at its end and beyond. -/
theorem tget_replicate {α : Type} {n : Nat} (i : Nat) (x : α) : tget (Vector.replicate n x) i x = x := by
  by_cases hi : i < n
  · rw [tget_of_lt _ _ _ hi]; exact Vector.getElem_replicate hi
  · exact tget_of_le _ _ _ (Nat.not_lt.mp hi)

/-- The map after a reset: each stratum of 25 L with an empty history, every parameter at its default (R17). -/
theorem legal_initialMap : StratumMap.initial.legal := by
  refine ⟨fun n _ _ => ?_, by decide, by decide, by decide, by decide, by decide, by decide, by decide⟩
  rw [show StratumMap.initial.stratum n = .initial from tget_replicate _ _]
  exact ⟨by decide, by decide⟩

theorem legal_initialLoop : LoopParams.initial.legal :=
  ⟨by decide, by decide, by decide, by decide, by decide, by decide, by decide, by decide, nofun, by decide⟩

theorem legal_initialMonitor (n : Nat) : Sanitise.initial.legal (min n 5) :=
  ⟨nofun, by decide, by decide, by decide, by decide, Nat.min_le_right n 5, by decide⟩

theorem legal_initialAdmission : Admission.initial.legal :=
  ⟨by decide, by decide, by decide, by decide, by decide, by decide, by decide, by decide⟩

theorem bookSlot_reset (n : Nat) : State.reset.bookSlot n = .initial :=
  tget_replicate (n := 24) (n - 1) BookSlot.initial

theorem station_reset (i : Nat) : State.reset.station i = .initial := tget_replicate (n := 8) i Station.initial

theorem bookLegal_reset : State.reset.bookLegal :=
  bookLegal_iff.mpr ⟨by decide, fun n => by
    rw [bookSlot_reset]
    exact ⟨by decide, fun r hr => by cases hr⟩⟩

theorem queuesInBounds_reset : State.reset.queuesInBounds := fun i _ _ => by
  rw [station_reset]; decide

/-- The part right after power-on is in order. -/
theorem inOrder_reset : State.reset.InOrder k where
  clock := ⟨by decide, by decide, by decide, fun _ => ⟨rfl, rfl, rfl⟩⟩
  map := legal_initialMap
  loop := legal_initialLoop
  monitor := legal_initialMonitor k
  book := bookLegal_reset
  coverage := fun _ hp => by cases hp
  admission := legal_initialAdmission
  queues := queuesInBounds_reset

theorem inOrder_takeReset (h : s.InOrder k) : (takeReset s).InOrder k := by
  have h0 : State.reset.InOrder k := inOrder_reset
  exact { h0 with clock := h.clock }

theorem inOrder_clearCounters (h : s.InOrder k) : (clearCounters s).InOrder k := by
  have hbook : s.bookLegal → (s.modBook fun x => { x with starved := 0 }).bookLegal := fun hb => ⟨Nat.zero_le _, hb.2⟩
  exact { h with book := hbook h.book }

/-- What follows an outcome is in order. -/
def LeadsInOrder (o : Host.Outcome State Fault Refusal) : Prop := ∀ t, o = .next t → t.InOrder 8

theorem leadsInOrder_next (h : t.InOrder 8) : LeadsInOrder (.next t) := by
  rintro _ ⟨⟩; exact h

/-- Every request of the host keeps the part in order. -/
theorem leadsInOrder_runRequest (c : Instr) (h : s.InOrder 8) : LeadsInOrder (runRequest c s) := by
  have ask : ∀ {code work}, (work s).state.InOrder 8 → LeadsInOrder (.next (request code work s)) :=
    fun hw => leadsInOrder_next (inOrder_request hw h)
  have look : ∀ {code f}, LeadsInOrder (.next (query code f s)) := leadsInOrder_next (inOrder_query h)
  have port : ∀ {code f g}, (g s).InOrder 8 → LeadsInOrder (.next (portRequest code f g s)) :=
    fun hg => leadsInOrder_next (inOrder_portRequest hg h)
  cases c with
  | setClock d m => exact ask (inOrder_takeSetClock d m h)
  | setStratumVolume n v => exact ask (inOrder_takeStratumVolume n v h)
  | setThetaMax v => exact ask (inOrder_takeThetaMax v h)
  | setReserveLine v => exact ask (inOrder_takeReserveLine v h)
  | setMargin v => exact ask (inOrder_takeMargin v h)
  | setLeaseParameter n v => exact ask (inOrder_takeLeaseParameter n v h)
  | setSitePowerBudget v => exact ask (inOrder_takeSiteBudget v h)
  | setSolarRating v => exact ask (inOrder_takeSolarRating v h)
  | setAutoCap v => exact ask (inOrder_takeAutoCap v h)
  | setLoopParameter n v => exact ask (inOrder_takeLoopParameter n v h)
  | setSanitiseSetting n v => exact ask (inOrder_takeSanitiseSetting n v h)
  | book b => exact ask (inOrder_takeBook b h)
  | amend x a => exact ask (inOrder_withReservation (fun r hr => inOrder_amendRecord x a r hr h) h)
  | withdraw x => exact ask (inOrder_withReservation (fun r _ => inOrder_withdrawRecord x r h) h)
  | release x => exact ask (inOrder_withReservation (fun r _ => inOrder_releaseRecord x r h) h)
  | openBoost i c m b => exact ask (inOrder_takeOpenBoost i c m b h)
  | revokeLease x => exact ask (inOrder_withLease (fun l => inOrder_revokeNamed x l h) h)
  | setStation i ca c ra r => exact ask (inOrder_takeSetStation i ca c ra r h)
  | clearBar i => exact ask (inOrder_takeClearBar i h)
  | relearn i => exact ask (inOrder_takeRelearn i h)
  | forget i => exact ask (inOrder_takeForget i h)
  | discover => exact ask (inOrder_takeDiscover h)
  | setSchedule l => exact ask (inOrder_takeSetSchedule l h)
  | remeasure => exact ask (inOrder_takeRemeasure h)
  | halt => exact ask (inOrder_takeHalt h)
  | resumeAll => exact ask (inOrder_takeResumeAll h)
  | reset =>
    refine leadsInOrder_next ?_
    split
    · exact h
    · exact inOrder_takeReset h
  | readEvents => exact port (inOrder_modPort _ h)
  | setMask m => exact port (inOrder_modPort _ h)
  | readCounters => exact port (inOrder_clearCounters h)
  | identifyPart | readClock | readParameter | readStrata | lookupReservation | listReservations | lookupLease
  | listLeases | readStation | readSchedule | readSolar => exact look
  | _ => exact leadsInOrder_next h

/-- A request write keeps the part in order, whatever its bytes spell (R174). -/
theorem leadsInOrder_writeRequest (bytes : List Byte) (h : s.InOrder 8) : LeadsInOrder (writeRequest bytes s) := by
  unfold writeRequest
  split
  · exact leadsInOrder_next h
  · split
    · exact leadsInOrder_next (inOrder_modPort _ h)
    · split
      · exact leadsInOrder_next h
      · split
        · exact leadsInOrder_next (inOrder_modPort _ h)
        · exact leadsInOrder_runRequest _ h

theorem exec_eq_runRequest {c : Instr} (hc : (requestCode c).isSome = true) (s : State) :
    exec c s = runRequest c s := by
  cases c <;> first | rfl | cases hc

/-- Every command keeps the part in order. -/
theorem leadsInOrder_exec (c : Instr) (h : s.InOrder 8) : LeadsInOrder (exec c s) := by
  by_cases hc : (requestCode c).isSome = true
  · rw [exec_eq_runRequest hc]; exact leadsInOrder_runRequest c h
  have link : ∀ {f : Link → Link}, (f s.link).stations = s.link.stations → LeadsInOrder (.next (s.modLink f)) :=
    fun hf => leadsInOrder_next (inOrder_modLink _ hf h)
  have answer : ∀ a x, LeadsInOrder (.next (takeAnswer a x s)) := fun a x => leadsInOrder_next (inOrder_takeAnswer a x h)
  cases c with
  | powerOn =>
    have h0 : State.reset.InOrder 8 := inOrder_reset
    exact leadsInOrder_next { h0 with }
  | requestWriteRejected bytes => exact leadsInOrder_writeRequest bytes h
  | requestWriteWhileWorking bytes => exact leadsInOrder_writeRequest bytes h
  | answerRead n => exact leadsInOrder_next (inOrder_modPort _ h)
  | answerPlaced => exact leadsInOrder_next (inOrder_modPort _ h)
  | sweepStart =>
    obtain ⟨-, h600, h950, -, -, h20, h100, hp⟩ := h.map
    exact leadsInOrder_next (inOrder_modMap (f := fun m => { m with sweeping := true, sweepIn := Config.sweepInterval })
      rfl rfl ⟨h600, h950⟩ ⟨h20, h100⟩ hp h)
  | sweepComplete r => exact leadsInOrder_next (inOrder_completeSweep r h)
  | passComplete => exact leadsInOrder_next (inOrder_finishPass h)
  | clockMinuteAdvance => exact leadsInOrder_next (inOrder_advanceMinute h)
  | durationExpiry x => exact leadsInOrder_next (inOrder_endDuration x h)
  | finishingHoldExpiry x => exact leadsInOrder_next (inOrder_endHold x h)
  | revokeTimeout x => exact leadsInOrder_next (inOrder_endRevokeTime x h)
  | learnedCapStepTimerExpiry x => exact leadsInOrder_next (inOrder_endStepTimer x h)
  | declineCooldownExpiry i => exact leadsInOrder_next (inOrder_endCooldown i h)
  | retryTimerExpiry i => exact leadsInOrder_next (inOrder_endRetry i h)
  | trialWindowEnd => exact leadsInOrder_next (inOrder_endTrialWindow h)
  | arbiterDecision b => exact leadsInOrder_next (inOrder_arbitrate b h)
  | identity a x => exact answer a _
  | status a x y z => exact answer a _
  | accept a x => exact answer a _
  | decline a x => exact answer a _
  | ack a x => exact answer a _
  | answerRejected bytes => exact leadsInOrder_next (inOrder_takeAnswerBytes bytes h)
  | answerWindowExpiry => exact leadsInOrder_next (inOrder_expireWindow h)
  | broadcastExchangeEnd => exact leadsInOrder_next (inOrder_endBroadcast h)
  | discoveryTimerExpiry =>
    refine leadsInOrder_next ?_
    split
    · exact inOrder_modLink _ rfl h
    · exact h
  | callLineLow => exact link rfl
  | callIgnoreExpiry => exact link rfl
  | flowPulse => exact leadsInOrder_next (inOrder_takePulse h)
  | primeTimerExpiry =>
    refine leadsInOrder_next ?_
    split
    · exact inOrder_closing (inOrder_endPriming h)
    · exact h
  | solarStepTimerExpiry => exact leadsInOrder_next (inOrder_endStep h)
  | stopTimerExpiry =>
    refine leadsInOrder_next ?_
    split
    · exact inOrder_closing (inOrder_endLoop _ h)
    · exact h
  | remeasureTimerExpiry =>
    refine leadsInOrder_next ?_
    split
    · exact inOrder_modSolar _ rfl h
    · exact h
  | _ => exact absurd rfl hc

end Sys2Proof.Machine

namespace Sys2Proof.Machine

/-- Settles O58: every step is a second of the timebase or a command, and each keeps the part in order. -/
theorem everyStepKeepsThePartInOrder : Obligations.EveryStepKeepsThePartInOrder := by
  intro s t hs e
  have h : s.InOrder 8 := legal_iff_inOrder.mp hs
  refine legal_iff_inOrder.mpr ?_
  unfold step at e
  split at e
  · cases e; exact inOrder_tick h
  · next c rest _ => exact leadsInOrder_exec c (s := { s with pending := rest }) { h with } t e

end Sys2Proof.Machine

/-! ### The part right after reset -/

namespace Sys2Proof.Machine

theorem leaseSlot_reset (n : Nat) : State.reset.leaseSlot n = .initial :=
  tget_replicate (n := 8) (n - 1) LeaseSlot.initial

theorem lease?_reset (n : Nat) : State.reset.lease? n = none := congrArg LeaseSlot.lease (leaseSlot_reset n)

theorem stratum_reset (n : Nat) : State.reset.stratum n = .initial := tget_replicate (n := 8) (n - 1) Stratum.initial

/-- Every entry but the solar loop's is ABSENT (R135). -/
theorem entry_reset {i : Nat} (h : 1 ≤ i) : State.reset.entry i = .absent := by
  have e : State.reset.entry i = tget (Vector.replicate 8 Entry.absent) i .absent :=
    tget_tset_ne (Vector.replicate 8 Entry.absent) 0 i .solarLoop .absent (by omega)
  rw [e]; exact tget_replicate i _

/-- The lease table after a reset is empty, and so are the admission order and every queue (R86, R152). -/
theorem tableInOrder_reset : State.reset.tableInOrder := by
  refine ⟨fun n l _ _ hl => ?_, List.nodup_nil, nofun, fun n x h _ _ hx => ?_, ?_, rfl,
    nofun, fun i _ _ => ?_⟩
  · rw [lease?_reset] at hl; cases hl
  · rw [State.record?, bookSlot_reset] at hx; cases hx
  · constructor
    · rintro ⟨n, l, -, -, hl, -⟩
      rw [lease?_reset] at hl; cases hl
    · intro h; cases h
  · unfold State.queueInOrder
    rw [station_reset]
    exact ⟨nofun, List.nodup_nil, nofun, by simp [Station.initial]⟩

theorem allocated_reset : State.reset.allocated = 0 := by
  simp only [State.allocated, lease?_reset]
  rfl

/-- Settles O57: an empty table and every parameter at its default. -/
theorem resetIsLegal : Obligations.ResetIsLegal :=
  ⟨legal_iff_inOrder.mpr inOrder_reset, tableInOrder_reset, by rw [allocated_reset]; exact Nat.zero_le _⟩

/-- Settles O56: what a RESET request leaves is `takeReset`, and the rest is read off the power-on state. -/
theorem powerOnAndResetRestoreThePart : Obligations.PowerOnAndResetRestoreThePart := by
  intro s
  refine ⟨rfl, fun hidle => ?_, ?_⟩
  · have e : exec .reset s = .next (if s.isWorking then s else takeReset s) := rfl
    rw [e, hidle]
    rfl
  · refine ⟨rfl, rfl, fun n _ _ => ?_, rfl, rfl, rfl, bookSlot_reset, leaseSlot_reset, rfl, rfl, rfl, rfl, rfl, rfl, rfl,
      rfl, fun i h1 _ => ?_, rfl, rfl, rfl, rfl, rfl, rfl, rfl, rfl, rfl, rfl, rfl, rfl⟩
    · rw [State.temp, stratum_reset]; exact ⟨rfl, rfl, rfl, rfl⟩
    · rw [entry_reset h1, station_reset]; exact ⟨rfl, rfl⟩

end Sys2Proof.Machine

/-! A reading filed, the filter over a history, and the strata and the guard of a published map (R2 to R7, R15). -/

namespace Sys2Proof.Machine

/-! ### A reading filed (R2, R4) -/

theorem accepts_iff {range : ProbeRange} {x : Temp} : range.accepts x = true ↔ range.lo ≤ x ∧ x ≤ range.hi := by
  simp only [ProbeRange.accepts, Bool.and_eq_true, decide_eq_true_eq]

/-- A reading outside the range empties the history of its probe. -/
theorem file_of_outside {range : ProbeRange} {x : Temp} (p : Probe) (h : ¬(range.lo ≤ x ∧ x ≤ range.hi)) :
    p.file range x = { state := .faulted, history := [] } :=
  if_neg (mt accepts_iff.mp h)

theorem file_of_inside {range : ProbeRange} {x : Temp} (p : Probe) (lo : range.lo ≤ x) (hi : x ≤ range.hi) :
    p.file range x =
      { state := if p.state = .valid ∨ (addReading p.history x).length = 3 then .valid else .faulted
        history := addReading p.history x } :=
  if_pos (accepts_iff.mpr ⟨lo, hi⟩)

/-- The newest reading goes behind the others, and of a full history the oldest goes. -/
theorem addReading_eq {h : List Temp} (x : Temp) (h3 : h.length ≤ 3) :
    addReading h x = if h.length = 3 then h.tail ++ [x] else h ++ [x] := by
  unfold addReading
  split
  · next e => rw [e, List.drop_append_of_le_length (by omega), List.drop_one]
  · rw [show h.length - 2 = 0 by omega, List.drop_zero]

theorem length_addReading {h : List Temp} (x : Temp) (h3 : h.length ≤ 3) :
    (addReading h x).length = 3 ↔ 2 ≤ h.length := by
  simp only [addReading, List.length_drop, List.length_append, List.length_singleton]; omega

/-! ### The filter (R3) -/

/-- The median of three is one of them, two are at or below it, and two at or above it. -/
theorem median_spec (a b c : Int) :
    let m := max (min a b) (min (max a b) c)
    (m = a ∨ m = b ∨ m = c) ∧
      ((a ≤ m ∧ b ≤ m) ∨ (a ≤ m ∧ c ≤ m) ∨ (b ≤ m ∧ c ≤ m)) ∧ ((m ≤ a ∧ m ≤ b) ∨ (m ≤ a ∧ m ≤ c) ∨ (m ≤ b ∧ m ≤ c)) ∧
      ((a = b ∨ a = c) → m = a) ∧ (b = c → m = b) := by
  intro m
  omega

/-- Two of three accepted are at least two. -/
theorem two_le_length_filter {α : Type} {p : α → Bool} {a b c : α}
    (h : (p a = true ∧ p b = true) ∨ (p a = true ∧ p c = true) ∨ (p b = true ∧ p c = true)) :
    2 ≤ ([a, b, c].filter p).length := by
  rcases h with ⟨h1, h2⟩ | ⟨h1, h2⟩ | ⟨h1, h2⟩
  · simp [h1, h2]
  · cases hb : p b <;> simp [h1, h2, hb]
  · cases ha : p a <;> simp [h1, h2, ha]

/-! ### The source of a stratum's temperature (R5) -/

/-- In a sorted list the first element accepted is the one that no accepted element stands before. -/
theorem find?_eq_of_pairwise {R : Nat → Nat → Prop} {p : Nat → Bool} {k : Nat} {l : List Nat} (hl : l.Pairwise R)
    (hk : k ∈ l) (hp : p k = true) (hfirst : ∀ j ∈ l, p j = true → ¬R j k) : l.find? p = some k := by
  cases h : l.find? p with
  | none => exact absurd hp (List.find?_eq_none.mp h k hk)
  | some j =>
    obtain ⟨hj, before, after, rfl, hbefore⟩ := List.find?_eq_some_iff_append.mp h
    rcases List.mem_append.mp hk with hb | ha
    · have := hbefore k hb
      simp [hp] at this
    · rcases List.mem_cons.mp ha with rfl | ha
      · rfl
      · have hR := (List.pairwise_cons.mp (List.pairwise_append.mp hl).2.1).1 k ha
        exact absurd hR (hfirst j (by simp) hj)

theorem mem_upTo8 {n : Nat} : n ∈ upTo8 ↔ 1 ≤ n ∧ n ≤ 8 := by
  simp only [upTo8, List.mem_cons, List.not_mem_nil, or_false]; omega

/-- The nearest VALID stratum at or below gives the temperature. -/
theorem fillSource_below {valid : Nat → Bool} {n k : Nat} (hn : n ≤ 8) (h1 : 1 ≤ k) (hkn : k ≤ n) (hk : valid k = true)
    (hnear : ∀ j, k < j → j ≤ n → valid j = false) : fillSource valid n = some k := by
  have hsort : (upTo8.reverse.filter fun k => decide (k ≤ n)).Pairwise (· > ·) :=
    List.Pairwise.filter _ (by decide)
  have hfind : (upTo8.reverse.filter fun k => decide (k ≤ n)).find? valid = some k := by
    refine find?_eq_of_pairwise hsort ?_ hk fun j hj hv hjk => ?_
    · exact List.mem_filter.mpr ⟨List.mem_reverse.mpr (mem_upTo8.mpr ⟨h1, by omega⟩), decide_eq_true hkn⟩
    · have hjn := of_decide_eq_true (List.mem_filter.mp hj).2
      rw [hnear j hjk hjn] at hv; cases hv
  simp only [fillSource, hfind]

theorem find?_below_eq_none {valid : Nat → Bool} {n : Nat} (h : ∀ j, 1 ≤ j → j ≤ n → valid j = false) :
    (upTo8.reverse.filter fun k => decide (k ≤ n)).find? valid = none := by
  refine List.find?_eq_none.mpr fun j hj => ?_
  obtain ⟨hm, hjn⟩ := List.mem_filter.mp hj
  rw [h j (mem_upTo8.mp (List.mem_reverse.mp hm)).1 (of_decide_eq_true hjn)]
  exact Bool.false_ne_true

/-- With none VALID at or below, the nearest VALID stratum above gives it. -/
theorem fillSource_above {valid : Nat → Bool} {n k : Nat} (hkn : n < k) (h8 : k ≤ 8) (hk : valid k = true)
    (hnear : ∀ j, 1 ≤ j → j < k → valid j = false) : fillSource valid n = some k := by
  have hsort : (upTo8.filter fun k => decide (n < k)).Pairwise (· < ·) := List.Pairwise.filter _ (by decide)
  have hfind : (upTo8.filter fun k => decide (n < k)).find? valid = some k := by
    refine find?_eq_of_pairwise hsort ?_ hk fun j hj hv hjk => ?_
    · exact List.mem_filter.mpr ⟨mem_upTo8.mpr ⟨by omega, h8⟩, decide_eq_true hkn⟩
    · rw [hnear j (mem_upTo8.mp (List.mem_filter.mp hj).1).1 hjk] at hv; cases hv
  have hbelow := find?_below_eq_none (valid := valid) (n := n) fun j h1 hjn => hnear j h1 (by omega)
  simp only [fillSource, hbelow, hfind]

theorem fillSource_none {valid : Nat → Bool} {n : Nat} (hn : n ≤ 8) (h : ∀ j, 1 ≤ j → j ≤ 8 → valid j = false) :
    fillSource valid n = none := by
  have hfind : (upTo8.filter fun k => decide (n < k)).find? valid = none := by
    refine List.find?_eq_none.mpr fun j hj => ?_
    obtain ⟨h1, h8⟩ := mem_upTo8.mp (List.mem_filter.mp hj).1
    rw [h j h1 h8]; exact Bool.false_ne_true
  have hbelow := find?_below_eq_none (valid := valid) (n := n) fun j h1 hjn => h j h1 (by omega)
  simp only [fillSource, hbelow, hfind]

/-! ### A published map -/

theorem isValid_iff {p : Probe} : p.isValid = true ↔ p.state = .valid := by simp [Probe.isValid]

theorem isValid_eq_false {p : Probe} (h : p.state ≠ .valid) : p.isValid = false := by simp [Probe.isValid, h]

theorem tempAfter_of_source {m : StratumMap} {r : Readings} {n k : Nat}
    (h : fillSource (fun k => (m.filedProbe r k).isValid) n = some k) :
    m.tempAfter r n = filtered (m.filedProbe r k).history := by
  simp only [StratumMap.tempAfter, h]

theorem tempAfter_of_frozen {m : StratumMap} {r : Readings} {n : Nat}
    (h : fillSource (fun k => (m.filedProbe r k).isValid) n = none) : m.tempAfter r n = (m.stratum n).temp := by
  simp only [StratumMap.tempAfter, h]

theorem temp_loopFile (range : ProbeRange) (x : Temp) (p : LoopProbe) :
    (p.file range x).temp =
      if (p.probe.file range x).state = .valid then filtered (p.probe.file range x).history else p.temp := by
  simp only [LoopProbe.file, isValid_iff]

theorem guardOf_clear {x y : Temp} (h : x < y - 30) : guardOf true x y = .clear := if_pos h

theorem guardOf_half {x y : Temp} (h : y - 30 ≤ x) (h' : x < y) : guardOf true x y = .half :=
  (if_neg (not_lt.mpr h)).trans (if_pos h')

theorem guardOf_shut {x y : Temp} (h : y ≤ x) : guardOf true x y = .shut :=
  (if_neg (not_lt.mpr ((Int.sub_le_self y (by decide)).trans h))).trans (if_neg (not_lt.mpr h))

/-- Settles O14: the filing and the filter case by case, and the strata by the source that gives each its
temperature. -/
theorem aMapIsFiledFilteredAndGuarded : Obligations.AMapIsFiledFilteredAndGuarded := by
  refine ⟨⟨fun range x p h3 => ⟨file_of_outside p, fun lo hi => ?_⟩, ⟨rfl, rfl, rfl, rfl, rfl, rfl⟩,
    fun a b c => ?_⟩, fun m r n h1 h8 => ?_⟩
  · rw [file_of_inside p lo hi]
    refine ⟨addReading_eq x h3, fun hv => if_pos (.inl hv), fun hf => ?_⟩
    simp [hf, length_addReading x h3, Nat.succ_le_iff]
  · obtain ⟨hmem, hbelow, habove, ha, hb⟩ := median_spec a b c
    refine ⟨rfl, rfl, by simpa [filtered, median3] using hmem, two_le_length_filter ?_, two_le_length_filter ?_, ha, hb⟩
    · simp only [decide_eq_true_eq]; exact hbelow
    · simp only [decide_eq_true_eq]; exact habove
  · have hfaulted : ∀ {k}, ¬(1 ≤ k ∧ k ≤ 8 ∧ (m.filedProbe r k).state = .valid) → 1 ≤ k → k ≤ 8 →
        (m.filedProbe r k).isValid = false :=
      fun hk hk1 hk8 => isValid_eq_false fun hv => hk ⟨hk1, hk8, hv⟩
    intro x ok
    rw [show x = m.stratumAfter r n from stratum_afterSweep m r h1 h8]
    refine ⟨rfl, rfl, rfl, fun hok => ?_, fun k hkn hk hnear => ?_, fun k hkn hk hnear => ?_, fun hnone => ?_, ?_,
      temp_loopFile _ _ _, temp_loopFile _ _ _, fun hinv => ?_, fun hval => ?_⟩
    · exact tempAfter_of_source
        (fillSource_below h8 h1 (Nat.le_refl n) (isValid_iff.mpr hok.2.2) fun j hj hj' => by omega)
    · exact tempAfter_of_source (fillSource_below h8 hk.1 hkn.le (isValid_iff.mpr hk.2.2)
        fun j hj hj' => hfaulted (hnear j hj hj') (by omega) (by omega))
    · obtain ⟨-, hk8, hv⟩ := hk
      exact tempAfter_of_source (fillSource_above hkn hk8 (isValid_iff.mpr hv)
        fun j hj hj' => hfaulted (hnear j hj') hj (by omega))
    · exact tempAfter_of_frozen (fillSource_none h8 fun j hj hj' => hfaulted (hnone j) hj hj')
    · simp only [StratumMap.afterSweep, StratumMap.validAfter, List.any_eq_true, isValid_iff, mem_upTo8, ok, and_assoc]
    · have hguard : (m.afterSweep r).guard = guardOf (m.afterSweep r).valid (m.tempAfter r 8) m.thetaMax := rfl
      rw [hguard, hinv]; rfl
    · have hguard : (m.afterSweep r).guard = guardOf (m.afterSweep r).valid (m.tempAfter r 8) m.thetaMax := rfl
      have htemp : ((m.afterSweep r).stratum 8).temp = m.tempAfter r 8 := by
        rw [stratum_afterSweep m r (by omega) (by omega)]; rfl
      rw [hguard, hval, htemp]
      exact ⟨guardOf_clear, guardOf_half, guardOf_shut⟩

end Sys2Proof.Machine

/-! What a request answered OK leaves, where its own work touches the map, the book or coverage and leaves the leases,
the roster and the link to the closing of the step. -/

namespace Sys2Proof.Machine

variable {k : Nat} {s t u : State}

/-! ### A step that only closes -/

/-- With no lease to suspend or resume and no trial to call off, closing a step is a new moment. -/
theorem closing_of_settled (h : u.isSettled) : closing u = u.bump := by
  obtain ⟨hs, hr, ht⟩ := h
  have hcalm : testOverlap u = u := by simp [testOverlap, State.overlapCalm, hs, hr]
  have htrial : callOffEvicted u = u := by
    unfold callOffEvicted
    split
    · rfl
    · next y hy =>
      cases hw : y.window with
      | none => simp [ht y hy hw]
      | some w => simp
  rw [closing, hcalm, htrial]

theorem root_of_shelf (h : t.shelf = s.shelf) (n : Nat) : (t.leaseSlot n).root = (s.leaseSlot n).root := by
  have hroots : t.admission.leases.map LeaseSlot.root = s.admission.leases.map LeaseSlot.root := congrArg Shelf.roots h
  have := congrArg (tget · (n - 1) LeaseSlot.initial.root) hroots
  simpa only [tget_map, State.leaseSlot] using this

theorem sameRoots_of_shelf (h : t.shelf = s.shelf) : s.sameRoots t := by
  refine ⟨congrArg Shelf.order h, fun n _ _ => ?_⟩
  have hn := root_of_shelf h n
  simp only [LeaseSlot.root, LeaseSlot.mk.injEq] at hn
  exact hn

/-- A request answered OK whose work leaves the leases, the roster and the link does no more to them than closing
does. -/
theorem sameTable_answered {code : Byte} {st : Status} {fields : List Byte} (ha : u.admission = s.admission)
    (hr : u.roster = s.roster) (hl : u.link = s.link) : s.sameTable ((closing u).answering code st fields) := by
  obtain ⟨hmap, hbook, hcov, hent, hauto, hsol, hsan, hclk, hport, hdesk, -, hpend⟩ := calm_eq_iff.mp (calm_closing u)
  have hshelf : ((closing u).answering code st fields).shelf = s.shelf := by
    have h1 : ((closing u).answering code st fields).shelf = u.shelf := shelf_closing u
    rw [h1, State.shelf, State.shelf, ha, hl]
  refine ⟨sameRoots_of_shelf hshelf, ?_, ?_, ?_, fun hset => ?_⟩
  · rw [answering_admission, hdesk, ha]
  · rw [answering_roster, hent, hr]
  · rw [answering_roster, hauto, hr]
  · have hu : u.isSettled := by
      rw [answering_map, answering_book, answering_coverage, answering_solar, answering_sanitise, answering_clock,
        answering_pending, hmap, hbook, hcov, hsol, hsan, hclk, hpend, ← ha, ← hr, ← hl] at hset
      exact hset
    rw [closing_of_settled hu]
    exact ⟨ha, hr, hl⟩

/-- Outside the blocks that closing may touch, such a request leaves what its work left. -/
theorem sameOutside_answered {code : Byte} {st : Status} {fields : List Byte} {touched : List Block}
    (hsub : [Block.admission, .roster, .link, .port] ⊆ touched) (hu : s.sameOutside u touched) :
    s.sameOutside ((closing u).answering code st fields) touched := by
  obtain ⟨hmap, hbook, hcov, -, -, hsol, hsan, hclk, -, -, -, hpend⟩ := calm_eq_iff.mp (calm_closing u)
  obtain ⟨hblocks, hp⟩ := hu
  refine ⟨fun b hb => ?_, hpend.trans hp⟩
  have hsame := hblocks b hb
  cases b with
  | map => exact hmap.trans hsame
  | book => exact hbook.trans hsame
  | coverage => exact hcov.trans hsame
  | solar => exact hsol.trans hsame
  | sanitise => exact hsan.trans hsame
  | clock => exact hclk.trans hsame
  | admission => exact absurd (hsub (by simp)) hb
  | roster => exact absurd (hsub (by simp)) hb
  | link => exact absurd (hsub (by simp)) hb
  | port => exact absurd (hsub (by simp)) hb

theorem answersOk_answered {code : Byte} {fields : List Byte} (hp : u.port = s.port) :
    s.answersOk ((closing u).answering code .ok fields) code fields := by
  obtain ⟨-, -, -, -, -, -, -, -, hport, -⟩ := calm_eq_iff.mp (calm_closing u)
  rw [State.answersOk, answering_port, hport, hp]

/-- What a pass takes is read off the map, the book and the clock (R42). -/
theorem snapshot_of_eq (hm : t.map = s.map) (hb : t.book = s.book) (hc : t.clock = s.clock) :
    t.snapshot = s.snapshot := by
  rcases s with ⟨m, b, _, _, _, _, _, _, c, _, _, _⟩
  rcases t with ⟨m', b', _, _, _, _, _, _, c', _, _, _⟩
  obtain rfl : m' = m := hm
  obtain rfl : b' = b := hb
  obtain rfl : c' = c := hc
  rfl

/-- A pass start touches coverage alone. -/
theorem passStart_eq (s : State) : passStart s = s.modCoverage fun _ => (passStart s).coverage := by
  unfold passStart; repeat' split
  all_goals rfl

theorem passStarted_passStart (s : State) : s.passStarted (passStart s) := by
  have hsnap : (passStart s).snapshot = s.snapshot := by rw [passStart_eq]; rfl
  have hmap : (passStart s).map = s.map := by rw [passStart_eq]; rfl
  unfold State.passStarted
  rw [hsnap, hmap]
  unfold passStart
  split
  · cases h : s.coverage.pass <;> rfl
  · rfl

/-- A request whose work ends with a pass start gives one, on the state that it leaves. -/
theorem passStarted_answered {code : Byte} {st : Status} {fields : List Byte} (hc : u.coverage = s.coverage) :
    s.passStarted ((closing (passStart u)).answering code st fields) := by
  obtain ⟨hmap, hbook, hcov, -, -, -, -, hclk, -⟩ := calm_eq_iff.mp (calm_closing (passStart u))
  have hsnap : ((closing (passStart u)).answering code st fields).snapshot = (passStart u).snapshot :=
    snapshot_of_eq hmap hbook hclk
  have hstart := passStarted_passStart u
  unfold State.passStarted at hstart ⊢
  rw [answering_coverage, answering_map, hsnap, hmap, hcov, ← hc]
  exact hstart

/-! ### The stratum volumes and the margin -/

theorem takeStratumVolume_badField {n : Nat} {v : Int} (h : ¬((1 ≤ n ∧ n ≤ 8) ∧ 5 ≤ v ∧ v ≤ 125)) :
    takeStratumVolume n v s = .no .badField s := by
  refine if_pos ?_
  by_contra hno
  simp only [not_or, not_lt, Bool.not_eq_false, within_iff] at hno
  exact h ⟨⟨hno.1, hno.2.1⟩, hno.2.2⟩

theorem takeStratumVolume_inRange {n : Nat} {v : Int} (h1 : 1 ≤ n) (h8 : n ≤ 8) (hv : 5 ≤ v ∧ v ≤ 125) :
    takeStratumVolume n v s =
      if (s.stratum n).volume = v.toNat then .ok s
      else if s.openVolumesFit (s.map.withVolume n v.toNat).cylinderVolume then
        .ok (s.modMap fun m => m.withVolume n v.toNat)
      else .no .badField s := by
  refine if_neg ?_
  rw [within_iff.mpr hv]
  simp only [not_or, not_lt, Bool.true_eq_false, not_false_eq_true]
  exact ⟨h1, h8, trivial⟩

theorem takeMargin_badField {v : Int} (h : v < 20 ∨ 100 < v) : takeMargin v s = .no .badField s :=
  if_pos (Bool.eq_false_iff.mpr fun hw => by have := within_iff.mp hw; omega)

theorem takeMargin_inRange {v : Int} (h20 : 20 ≤ v) (h100 : v ≤ 100) :
    takeMargin v s = if s.map.margin = v then .ok s else .ok (passStart (s.modMap fun m => { m with margin := v })) :=
  if_neg (by rw [within_iff.mpr ⟨h20, h100⟩]; exact Bool.noConfusion)

theorem sameOutside_refl (s : State) (touched : List Block) : s.sameOutside s touched :=
  ⟨fun b _ => by cases b <;> rfl, rfl⟩

/-- A value equal to the one that stands is answered OK and does nothing (R11). -/
theorem equal_answered (hidle : s.isWorking = false) {code : Byte} {work : State → Reply} (hw : work s = .ok s) :
    ∃ t, (.next (request code work s) : Host.Outcome State Fault Refusal) = .next t ∧ s.answersOk t code [] ∧
      s.sameOutside t [.admission, .roster, .link, .port] ∧ s.sameTable t := by
  refine ⟨_, rfl, ?_⟩
  rw [request_ok hidle (t := s) hw]
  exact ⟨answersOk_answered rfl, sameOutside_answered (List.Subset.refl _) (sameOutside_refl s _),
    sameTable_answered rfl rfl rfl⟩

theorem volumes_set {n : Nat} {v : Int} (hidle : s.isWorking = false) (h1 : 1 ≤ n) (h8 : n ≤ 8) (lo : 5 ≤ v)
    (hi : v ≤ 125) (hne : (s.stratum n).volume ≠ v.toNat)
    (hfit : s.openVolumesFit (s.map.withVolume n v.toNat).cylinderVolume = true) :
    ∃ t, exec (.setStratumVolume n v) s = .next t ∧
      t.map = s.map.withVolume n v.toNat ∧ (t.stratum n).volume = v.toNat ∧
      (∀ k, 1 ≤ k → k ≤ 8 → k ≠ n → t.stratum k = s.stratum k) ∧ s.answersOk t 0x08#8 [] ∧
      s.sameOutside t [.map, .admission, .roster, .link, .port] ∧ s.sameTable t := by
  have hw : takeStratumVolume n v s = .okWith [] (s.modMap fun m => m.withVolume n v.toNat) := by
    rw [takeStratumVolume_inRange h1 h8 ⟨lo, hi⟩, if_neg hne, if_pos hfit]; rfl
  have hmap : (closing (s.modMap fun m => m.withVolume n v.toNat)).map = s.map.withVolume n v.toNat :=
    (calm_eq_iff.mp (calm_closing _)).1
  have hstratum (i : Nat) (hi : 1 ≤ i ∧ i ≤ 8) :
      tget (closing (s.modMap fun m => m.withVolume n v.toNat)).map.strata (i - 1) Stratum.initial =
        if i = n then { s.stratum n with volume := v.toNat } else s.stratum i := by
    rw [hmap]; exact stratum_withVolume s.map v.toNat ⟨h1, h8⟩ hi
  refine ⟨_, rfl, ?_⟩
  rw [request_ok hidle hw]
  refine ⟨hmap, ?_, fun i hi1 hi8 hin => ?_, answersOk_answered rfl,
    sameOutside_answered (by simp) ⟨fun b hb => ?_, rfl⟩, sameTable_answered rfl rfl rfl⟩
  · exact congrArg Stratum.volume ((hstratum n ⟨h1, h8⟩).trans (if_pos rfl))
  · exact (hstratum i ⟨hi1, hi8⟩).trans (if_neg hin)
  · cases b <;> first | rfl | simp at hb

theorem margin_set {v : Int} (hidle : s.isWorking = false) (lo : 20 ≤ v) (hi : v ≤ 100) (hne : v ≠ s.map.margin) :
    ∃ t, exec (.setMargin v) s = .next t ∧ t.map = { s.map with margin := v } ∧ s.passStarted t ∧
      s.answersOk t 0x08#8 [] ∧ s.sameOutside t [.map, .coverage, .admission, .roster, .link, .port] ∧
      s.sameTable t := by
  have hw : takeMargin v s = .okWith [] (passStart (s.modMap fun m => { m with margin := v })) := by
    rw [takeMargin_inRange lo hi, if_neg (Ne.symm hne)]; rfl
  refine ⟨_, rfl, ?_⟩
  rw [request_ok hidle hw]
  refine ⟨?_, passStarted_answered rfl, answersOk_answered ?_, sameOutside_answered (by simp) ?_,
    sameTable_answered ?_ ?_ ?_⟩
  · rw [answering_map, (calm_eq_iff.mp (calm_closing _)).1, passStart_eq]; rfl
  all_goals rw [passStart_eq]
  case refine_3 =>
    refine ⟨fun b hb => ?_, rfl⟩
    cases b <;> first | rfl | simp at hb
  all_goals rfl

/-- Settles O15: each value in its cases, the work of a change being the write of its one parameter. -/
theorem volumesAndTheMarginAreSet : Obligations.VolumesAndTheMarginAreSet := by
  constructor
  · intro s n v hidle h1 h8 hne fits
    refine ⟨fun lo hi hfit => volumes_set hidle h1 h8 lo hi hne (openVolumesFit_iff.mpr hfit), fun hno => ?_,
      fun i w hi => ?_, fun hi lo => ?_⟩
    · refine congrArg Host.Outcome.next (request_refused hidle ?_ (by decide))
      by_cases hv : 5 ≤ v ∧ v ≤ 125
      · have hfits : ¬s.openVolumesFit (s.map.withVolume n v.toNat).cylinderVolume = true :=
          fun h => hno ⟨hv.1, hv.2, openVolumesFit_iff.mp h⟩
        rw [takeStratumVolume_inRange h1 h8 hv, if_neg hne, if_neg hfits]
      · exact takeStratumVolume_badField fun h => hv h.2
    · exact congrArg Host.Outcome.next
        (request_refused hidle (takeStratumVolume_badField fun h => by omega) (by decide))
    · refine equal_answered hidle ?_
      rw [takeStratumVolume_inRange h1 h8 (by omega), if_pos (Int.toNat_natCast _).symm]
  · intro s v hidle
    refine ⟨margin_set hidle, fun hv => ?_, fun lo hi he => ?_⟩
    · exact congrArg Host.Outcome.next (request_refused hidle (takeMargin_badField hv) (by decide))
    · exact equal_answered hidle (by rw [takeMargin_inRange lo hi, if_pos he.symm])

end Sys2Proof.Machine

/-! How the figures of an answer are coded, and the answers of READ STRATA, READ STATION, READ SCHEDULE and READ SOLAR
(§11.1, §11.2). -/

namespace Sys2Proof.Machine

/-! ### Figures -/

theorem be32_eq (n : Nat) :
    be32 n =
      [BitVec.ofNat 8 (n / 16777216), BitVec.ofNat 8 (n / 65536), BitVec.ofNat 8 (n / 256), BitVec.ofNat 8 n] := by
  simp only [be32, be16, byte, Nat.div_div_eq_div_mul, List.cons_append, List.nil_append]

/-- A byte of a signed figure is the byte of the whole number, the sign carried in the upper bits. -/
theorem beSigned_eq (v : Int) : beSigned v = [BitVec.ofInt 8 (v / 256), BitVec.ofInt 8 v] := by
  have hhigh : BitVec.ofNat 8 ((v % 65536).toNat / 256) = BitVec.ofInt 8 (v / 256) := by
    apply BitVec.eq_of_toNat_eq
    rw [BitVec.toNat_ofNat, BitVec.toNat_ofInt]
    omega
  have hlow : BitVec.ofNat 8 (v % 65536).toNat = BitVec.ofInt 8 v := by
    apply BitVec.eq_of_toNat_eq
    rw [BitVec.toNat_ofNat, BitVec.toNat_ofInt]
    omega
  rw [beSigned, be16, byte, byte, hhigh, hlow]

/-! ### The 139 bytes of READ STRATA -/

@[simp] theorem length_stratumBytes (x : Stratum) : (stratumBytes x).length = 14 := rfl

/-- Fields of one width laid out one behind the other: the `i`-th stands `i` widths in. -/
theorem take_drop_flatMap {α : Type} {f : α → List Byte} {w : Nat} (hf : ∀ x, (f x).length = w) (rest : List Byte)
    (d : α) : ∀ (l : List α) (i : Nat), i < l.length →
      (((l.flatMap f ++ rest).drop (w * i)).take w) = f (l.getD i d)
  | [], i, h => absurd h (by simp)
  | x :: l, 0, _ => by
    rw [Nat.mul_zero, List.drop_zero, List.flatMap_cons, List.append_assoc, List.take_left' (hf x)]
    rfl
  | x :: l, i + 1, h => by
    have hlen : w * (i + 1) = (f x).length + w * i := by rw [hf x, Nat.mul_succ, Nat.add_comm]
    rw [List.flatMap_cons, List.append_assoc, hlen, List.drop_length_add_append,
      take_drop_flatMap hf rest d l i (Nat.lt_of_succ_lt_succ h)]
    rfl

theorem length_flatMap_of_width {α : Type} {f : α → List Byte} {w : Nat} (hf : ∀ x, (f x).length = w) :
    ∀ l : List α, (l.flatMap f).length = w * l.length
  | [] => rfl
  | x :: l => by
    rw [List.flatMap_cons, List.length_append, hf x, length_flatMap_of_width hf l, List.length_cons, Nat.mul_succ,
      Nat.add_comm]

/-- What stands behind the eight strata: the collector, the return and the map's own figures. -/
def loopBytes (m : StratumMap) : List Byte :=
  probeBytes m.collector.temp m.collector.probe ++ probeBytes m.loopReturn.temp m.loopReturn.probe ++
    [if m.valid then 1#8 else 0#8, m.guard.pos] ++ beSigned m.thetaMax ++ [byte m.reserveLine] ++ beSigned m.margin

theorem strataBytes_eq (m : StratumMap) : strataBytes m = m.strata.toList.flatMap stratumBytes ++ loopBytes m := by
  simp only [strataBytes, loopBytes, mark, List.append_assoc, List.cons_append, List.nil_append]

theorem length_strata (m : StratumMap) : (m.strata.toList.flatMap stratumBytes).length = 112 := by
  rw [length_flatMap_of_width length_stratumBytes, Vector.length_toList]

theorem length_strataBytes (m : StratumMap) : (strataBytes m).length = 139 := by
  rw [strataBytes_eq, List.length_append, length_strata]
  rfl

theorem drop_strataBytes (m : StratumMap) : (strataBytes m).drop 112 = loopBytes m := by
  rw [strataBytes_eq, List.drop_left' (length_strata m)]

theorem take_drop_strataBytes (s : State) {n : Nat} (h1 : 1 ≤ n) (h8 : n ≤ 8) :
    ((strataBytes s.map).drop (14 * (n - 1))).take 14 = stratumBytes (s.stratum n) := by
  rw [strataBytes_eq, take_drop_flatMap length_stratumBytes (loopBytes s.map) .initial]
  · rfl
  · rw [Vector.length_toList]
    omega

/-! ### Fields that may be absent -/

/-- A field that may be absent, as it is sent: its presence byte, then its bytes or zeros. -/
def sentOption (width : Nat) : Option (List Byte) → List Byte
  | none => 0#8 :: List.replicate width 0#8
  | some b => 1#8 :: b

theorem optField_eq {α : Type} (width : Nat) (f : α → List Byte) (x : Option α) :
    optField width f x = sentOption width (x.map f) := by
  cases x <;> rfl

theorem map_forLink {α β : Type} (i : Nat) (x : α) (f : α → β) :
    (forLink i x).map f = if i = 0 then none else some (f x) := by
  unfold forLink
  split <;> rfl

theorem leaseByte_eq (h : Handle) : leaseByte h = byte (16 * h.issue + h.slot) := by
  rw [leaseByte, Nat.mul_comm]

/-- A lease handle as it is sent, 0x00 for none. -/
def sentHandle : Option Handle → Byte
  | none => 0#8
  | some h => byte (16 * h.issue + h.slot)

theorem leaseByteOpt_eq (h : Option Handle) : leaseByteOpt h = sentHandle h := by
  cases h with
  | none => rfl
  | some h => exact leaseByte_eq h

theorem lastLeaseBytes_eq :
    lastLeaseBytes = fun x => [sentHandle (some x.handle), x.kind.pos, x.outcome.pos] ++ be32 x.delivered := by
  funext x
  rw [lastLeaseBytes, leaseByte_eq]
  rfl

theorem trialBytes_eq :
    trialBytes = fun y => be16 y.rate ++ be32 y.energy ++ sentOption 2 (y.window.map be16) := by
  funext y
  rw [trialBytes, optField_eq]

theorem targetMark_eq (v : Solar) :
    targetMark v = if v.target = none then 0#8 else if v.params.fixedTarget = none then 2#8 else 1#8 := by
  unfold targetMark
  cases v.target <;> cases v.params.fixedTarget <;> rfl

/-! ### READ STATION -/

theorem readStation_above {s : State} {i : Nat} (h : 7 < i) : readStation i s = (.badField, []) := if_pos h

theorem readStation_absent {s : State} {i : Nat} (h : i ≤ 7) (ha : (s.entry i).state = .absent) :
    readStation i s = (.ok, [0#8]) := by
  rw [readStation, if_neg (Nat.not_lt.mpr h), if_pos ha]
  rfl

theorem readStation_present {s : State} {i : Nat} (h : i ≤ 7) (ha : (s.entry i).state ≠ .absent) :
    readStation i s = (.ok, entryBytes s i (s.entry i) ++ besideBytes s i) := by
  rw [readStation, if_neg (Nat.not_lt.mpr h), if_neg ha]

/-- Settles O7: the figures and the tables by their coding, READ STRATA by its fields of one width, and each other
answer field by field. -/
theorem theMapTheRosterAndTheLoopAreAnswered : Obligations.TheMapTheRosterAndTheLoopAreAnswered := by
  refine ⟨fun n => ⟨rfl, rfl, be32_eq n, beSigned_eq⟩, ⟨rfl, rfl, rfl, rfl, rfl, rfl⟩, fun s hs => ?_⟩
  intro opt probe handle m
  have hopt : opt = sentOption := by
    funext w x
    cases x <;> rfl
  have hhandle : handle = sentHandle := by
    funext x
    cases x <;> rfl
  clear_value opt handle
  subst hopt hhandle
  refine ⟨congrArg _ (query_idle hs), length_strataBytes _, fun n h1 h8 => take_drop_strataBytes s h1 h8,
    drop_strataBytes _, fun i hi => ?_, fun i hi ha => ?_, fun i hi ha => ?_, congrArg _ (query_idle hs), ?_⟩
  · refine congrArg _ ((query_idle hs).trans ?_)
    rw [readStation_above hi]
  · refine congrArg _ ((query_idle hs).trans ?_)
    rw [readStation_absent hi ha]
  · intro e link bought
    refine congrArg _ ((query_idle hs).trans ?_)
    rw [readStation_present hi ha]
    refine congrArg (s.replies .ok 0x20#8) ?_
    simp only [entryBytes, besideBytes, optField_eq, leaseByteOpt_eq, map_forLink, lastLeaseBytes_eq, trialBytes_eq,
      ← List.append_assoc]
    rfl
  · intro v
    refine congrArg _ ((query_idle hs).trans (congrArg (s.replies .ok 0x28#8) ?_))
    simp only [solarBytes, optField_eq, leaseByteOpt_eq, targetMark_eq]
    rfl

end Sys2Proof.Machine

/-! What the loop, the monitor and the sequencer keep of the state, beside what the laws say of the work they share. -/

namespace Sys2Proof.Machine

variable {s t : State}

/-! ### Work of the loop and the monitor that keeps all -/

@[simp] theorem kept_endLoop (st : LoopState) (s : State) : (endLoop st s).kept = s.kept := by
  simp only [endLoop]; split <;> simp

@[simp] theorem kept_startPriming (s : State) : (startPriming s).kept = s.kept :=
  kept_openSolar s

@[simp] theorem kept_toCharging (s : State) : (toCharging s).kept = s.kept := by
  rw [toCharging, kept_raise, kept_settling]; rfl

@[simp] theorem kept_sweepStagnant (s : State) : (sweepStagnant s).kept = s.kept := by
  unfold sweepStagnant; repeat' split
  all_goals simp

@[simp] theorem kept_checkRecoolWindow (s : State) : (checkRecoolWindow s).kept = s.kept := by
  unfold checkRecoolWindow; split <;> simp

@[simp] theorem kept_revokeSanitise (r : LeaseOutcome) (s : State) : (revokeSanitise r s).kept = s.kept := by
  unfold revokeSanitise; split <;> simp

@[simp] theorem kept_endBelowLine (s : State) (n : Nat) : (endBelowLine s n).kept = s.kept := by
  unfold endBelowLine; split <;> simp

@[simp] theorem kept_followCeiling (s : State) (n : Nat) : (followCeiling s n).kept = s.kept := by
  unfold followCeiling; dsimp only; repeat' split
  all_goals simp

@[simp] theorem kept_loseMap (s : State) : (loseMap s).kept = s.kept := by
  rw [loseMap, kept_stopTrial]
  refine foldl_kept _ (fun s n => ?_) _ _
  unfold loseMapFor; split <;> simp

@[simp] theorem kept_tellFree (s : State) (n : Nat) : (tellFree s n).kept = s.kept := by
  unfold tellFree; repeat' split
  all_goals simp

@[simp] theorem kept_testAllFinishing (s : State) : (testAllFinishing s).kept = s.kept :=
  foldl_kept _ (fun s n => kept_testFinishing n s) _ _

theorem kept_liftFloor (s : State) :
    (liftFloor s).kept =
      if s.kept.sanitise.floor < s.kept.map.reserveLine then
        { s.kept with sanitise := { s.kept.sanitise with floor := s.kept.map.reserveLine, accumulator := 0 } }
      else s.kept := by
  unfold liftFloor
  exact apply_ite State.kept _ _ _

/-! ### The valve -/

/-- What the loop keeps at a sweep: all but the valve, its spacing and the stop point. -/
def State.keptByLoop (s : State) : Kept := { s.kept with valve := .lower, spacing := none, stopPoint := none }

theorem keptByLoop_of_kept (h : t.kept = s.kept) : t.keptByLoop = s.keptByLoop := by
  rw [State.keptByLoop, State.keptByLoop, h]

@[simp] theorem keptByLoop_moveValve (v : Valve) (s : State) : (moveValve v s).keptByLoop = s.keptByLoop :=
  keptByLoop_of_kept (s := s.modSolar fun x => { x with valve := v, spacing := some Config.valveSpacing })
    (kept_followInlet _)

@[simp] theorem keptByLoop_evaluateValve (s : State) : (evaluateValve s).keptByLoop = s.keptByLoop := by
  unfold evaluateValve; repeat' split
  all_goals simp

@[simp] theorem keptByLoop_driveUpper (s : State) : (driveUpper s).keptByLoop = s.keptByLoop := by
  unfold driveUpper; split <;> simp

@[simp] theorem keptByLoop_startRecooling (s : State) : (startRecooling s).keptByLoop = s.keptByLoop :=
  keptByLoop_driveUpper _

@[simp] theorem keptByLoop_testOff (s : State) : (testOff s).keptByLoop = s.keptByLoop := by
  unfold testOff; repeat' split
  · rfl
  · rfl
  · exact keptByLoop_of_kept (kept_startPriming s)
  · exact keptByLoop_startRecooling s
  · rfl

@[simp] theorem keptByLoop_sweepRunning (s : State) : (sweepRunning s).keptByLoop = s.keptByLoop := by
  simp only [sweepRunning, keptByLoop_evaluateValve]
  split
  · exact keptByLoop_of_kept (kept_toCharging _)
  · rfl

theorem keptByLoop_sweepWithLease {go : State → State} (hg : (go s).keptByLoop = s.keptByLoop) :
    (sweepWithLease go s).keptByLoop = s.keptByLoop := by
  unfold sweepWithLease; repeat' split
  · exact keptByLoop_of_kept (kept_endLoop _ s)
  · exact keptByLoop_of_kept (kept_endLoop _ s)
  · exact keptByLoop_of_kept (kept_endLoop _ s)
  · exact hg

@[simp] theorem keptByLoop_sweepRecooling (s : State) : (sweepRecooling s).keptByLoop = s.keptByLoop := by
  unfold sweepRecooling; repeat' split
  · rfl
  · rfl
  · exact keptByLoop_driveUpper s

theorem keptByLoop_solarSweep (s : State) : (solarSweep s).keptByLoop = s.keptByLoop := by
  unfold solarSweep
  extract_lets s1
  have h1 : s1.keptByLoop = s.keptByLoop := rfl
  clear_value s1
  rw [← h1]
  split
  · exact keptByLoop_testOff s1
  · exact keptByLoop_sweepWithLease (keptByLoop_evaluateValve s1)
  · exact keptByLoop_sweepWithLease (keptByLoop_sweepRunning s1)
  · exact keptByLoop_sweepWithLease (keptByLoop_sweepRunning s1)
  · exact keptByLoop_of_kept (kept_sweepStagnant s1)
  · exact keptByLoop_sweepRecooling s1
  · split <;> rfl

theorem keptByLoop_solarGuardChange (g : GuardState) (s : State) :
    (solarGuardChange g s).keptByLoop = s.keptByLoop := by
  unfold solarGuardChange; repeat' split
  · exact keptByLoop_testOff s
  · rfl
  · exact keptByLoop_of_kept (kept_endLoop _ s)
  · rfl

/-! ### The map and the guard taken -/

theorem kept_takeGuard (b s : State) : (takeGuard b s).kept = s.withGuard.kept := kept_resettle _ _

theorem kept_admitMap (b s : State) : (admitMap b s).kept = s.withGuard.kept := by
  have h : (resettle b (if (b.map.valid && !s.map.valid) = true then loseMap s.withGuard else s.withGuard)).kept =
      s.withGuard.kept := by
    rw [kept_resettle]; split
    · exact kept_loseMap _
    · rfl
  unfold admitMap
  dsimp only
  split
  · rw [foldl_kept _ (fun t n => kept_tellFree t n), h]
  · exact h

/-- What a changed θmax keeps once the ceilings follow it: all but the guard, where the map's changed, and what the loop
may turn. -/
theorem keptByLoop_announceGuard (b s : State) :
    (announceGuard b s).keptByLoop =
      (if s.map.guard = b.map.guard then s else s.withGuard).keptByLoop := by
  unfold announceGuard
  split
  · rfl
  · rw [keptByLoop_solarGuardChange, keptByLoop_of_kept (kept_takeGuard b s)]

theorem map_of_keptByLoop (h : t.keptByLoop = s.keptByLoop) : t.map = s.map := congrArg Kept.map h

/-- The part with θmax changed and the guard recomputed, before any lease or the loop takes it. -/
def State.withTheta (v : Temp) (s : State) : State :=
  s.modMap fun m => { m with thetaMax := v, guard := guardOf m.valid (s.temp 8) v }

theorem writeThetaMax_eq (v : Temp) (s : State) :
    writeThetaMax v s = announceGuard s (upTo8.foldl followCeiling (s.withTheta v)) := rfl

theorem kept_withGuard (h : t.kept = s.kept) : t.withGuard.kept = s.withGuard.kept :=
  congrArg (fun k => { k with desk := { k.desk with guard := k.map.guard } }) h

theorem keptByLoop_writeThetaMax (v : Temp) (s : State) :
    (writeThetaMax v s).keptByLoop =
      (if (s.withTheta v).map.guard = s.map.guard then s.withTheta v else (s.withTheta v).withGuard).keptByLoop := by
  have hfold : (upTo8.foldl followCeiling (s.withTheta v)).kept = (s.withTheta v).kept :=
    foldl_kept _ kept_followCeiling upTo8 _
  rw [writeThetaMax_eq, keptByLoop_announceGuard, map_of_keptByLoop (keptByLoop_of_kept hfold)]
  split
  · exact keptByLoop_of_kept hfold
  · exact keptByLoop_of_kept (kept_withGuard hfold)

theorem map_writeThetaMax (v : Temp) (s : State) : (writeThetaMax v s).map = (s.withTheta v).map := by
  rw [map_of_keptByLoop (keptByLoop_writeThetaMax v s)]
  split <;> rfl

/-- The part with the reserve line changed, before any lease or the monitor takes it. -/
def State.withLine (v : Nat) (s : State) : State := s.modMap fun m => { m with reserveLine := v }

theorem writeReserveLine_of_raised {v : Nat} (h : s.map.reserveLine < v) :
    writeReserveLine v s =
      noteEligible s (passStart (liftFloor (resettle s (upTo8.foldl endBelowLine (s.withLine v))))) :=
  congrArg (fun u => noteEligible s (passStart u)) (if_pos h)

theorem writeReserveLine_of_lowered {v : Nat} (h : ¬s.map.reserveLine < v) :
    writeReserveLine v s = noteEligible s (passStart (s.withLine v)) :=
  congrArg (fun u => noteEligible s (passStart u)) (if_neg h)

/-- A reserve line written keeps all but the line itself and the floor that a raised one lifts. -/
theorem kept_writeReserveLine (v : Nat) (s : State) :
    (writeReserveLine v s).kept =
      if s.map.reserveLine < v ∧ s.sanitise.floor < v then
        { (s.withLine v).kept with sanitise := { s.sanitise with floor := v, accumulator := 0 } }
      else (s.withLine v).kept := by
  by_cases hv : s.map.reserveLine < v
  · have hrates : (resettle s (upTo8.foldl endBelowLine (s.withLine v))).kept = (s.withLine v).kept := by
      rw [kept_resettle, foldl_kept _ kept_endBelowLine]
    rw [writeReserveLine_of_raised hv, kept_noteEligible, kept_passStart, kept_liftFloor, hrates]
    simp only [hv, true_and]
    rfl
  · rw [writeReserveLine_of_lowered hv, kept_noteEligible, kept_passStart, if_neg fun h => hv h.1]

theorem map_of_kept {k : Kept} (h : t.kept = k) : t.map = k.map := congrArg Kept.map h

theorem map_writeReserveLine (v : Nat) (s : State) : (writeReserveLine v s).map = (s.withLine v).map := by
  rw [map_of_kept (kept_writeReserveLine v s)]
  split <;> rfl

/-! ### The monitor at a sweep -/

/-- What a sweep-complete keeps: what the loop keeps, but for the monitor's state. -/
def State.keptBySweep (s : State) : Kept := { s.keptByLoop with sanitise := .initial }

theorem keptBySweep_of_loop (h : t.keptByLoop = s.keptByLoop) : t.keptBySweep = s.keptBySweep := by
  rw [State.keptBySweep, State.keptBySweep, h]

theorem keptBySweep_of_kept (h : t.kept = s.kept) : t.keptBySweep = s.keptBySweep :=
  keptBySweep_of_loop (keptByLoop_of_kept h)

theorem keptBySweep_sanitiseSweep (s : State) : (sanitiseSweep s).keptBySweep = s.keptBySweep := by
  unfold sanitiseSweep; split
  · exact keptBySweep_of_kept (s := (s.modSanitise _).raise _) (kept_revokeSanitise _ _)
  · rfl

theorem keptBySweep_announceMap (b s : State) : (announceMap b s).keptBySweep = s.withGuard.keptBySweep := by
  have hloop : (testOverlap (solarSweep (admitMap b s))).keptByLoop = s.withGuard.keptByLoop := by
    rw [keptByLoop_of_kept (kept_testOverlap _), keptByLoop_solarSweep, keptByLoop_of_kept (kept_admitMap b s)]
  unfold announceMap
  dsimp only
  rw [keptBySweep_of_kept (kept_passStart _), keptBySweep_of_kept (kept_tryTrial _),
    keptBySweep_of_kept (kept_callOffHotTrial _), keptBySweep_of_kept (kept_testAllFinishing _),
    keptBySweep_sanitiseSweep, keptBySweep_of_loop hloop]

end Sys2Proof.Machine

/-! Every parameter that is set is read back (§11.2). -/

namespace Sys2Proof.Machine

variable {s t : State}

/-! ### Settings written -/

theorem kept_writeLoopParams (p : LoopParams) (s : State) :
    (writeLoopParams p s).kept = { s.kept with params := p } := by
  simp only [writeLoopParams, kept_checkRecoolWindow, kept_resettle, kept_followInlet]
  split <;> rfl

theorem kept_writeSanitise (m : Sanitise) (s : State) :
    (writeSanitise m s).kept =
      { s.kept with sanitise := { m with accumulator := s.sanitise.accumulatorAfter m } } := by
  simp only [writeSanitise]
  split
  · rw [kept_revokeSanitise]; rfl
  · rfl

/-! ### Where a parameter is read -/

/-- No parameter is read from what the shared work changes. -/
theorem parameter?_of_kept (hk : t.kept = s.kept) (n : Nat) : t.parameter? n = s.parameter? n := by
  have hmap : t.map = s.map := congrArg Kept.map hk
  have hparams : t.solar.params = s.solar.params := congrArg Kept.params hk
  have hsan : t.sanitise = s.sanitise := congrArg Kept.sanitise hk
  have hauto : t.roster.autoCap = s.roster.autoCap := congrArg Kept.autoCap hk
  have hlimit : t.admission.topUpLimit = s.admission.topUpLimit := congrArg (fun k => k.desk.topUpLimit) hk
  have hhold : t.admission.finishHold = s.admission.finishHold := congrArg (fun k => k.desk.finishHold) hk
  have hhalf : t.admission.halfRate = s.admission.halfRate := congrArg (fun k => k.desk.halfRate) hk
  have hbudget : t.admission.siteBudget = s.admission.siteBudget := congrArg (fun k => k.desk.siteBudget) hk
  have hrating : t.admission.rating = s.admission.rating := congrArg (fun k => k.desk.rating) hk
  simp only [State.parameter?, State.stratum, hmap, hparams, hsan, hauto, hlimit, hhold, hhalf, hbudget, hrating]

theorem parameter?_volume {n : Nat} (h1 : 1 ≤ n) (h8 : n ≤ 8) : s.parameter? n = some ((s.stratum n).volume : Int) := by
  interval_cases n <;> rfl

theorem onOffValue_of_onOff {v : Int} {b : Bool} (h : onOff v = some b) : onOffValue b = v := by
  unfold onOff at h
  split at h
  · next h0 => cases h; exact h0.symm
  · split at h
    · next h1 => cases h; exact h1.symm
    · cases h

/-- A value of a range that starts at 0 or above is its own count. -/
theorem toNat_of_within {lo hi v : Int} (h : within lo hi v = true) (h0 : 0 ≤ lo) : (v.toNat : Int) = v :=
  Int.toNat_of_nonneg (h0.trans (within_iff.mp h).1)

/-! ### Each parameter set is read back -/

theorem takeStratumVolume_readBack {n : Nat} {v : Int} (h : (takeStratumVolume n v s).status = .ok) :
    (takeStratumVolume n v s).state.parameter? n = some v := by
  by_cases hin : (1 ≤ n ∧ n ≤ 8) ∧ 5 ≤ v ∧ v ≤ 125
  · obtain ⟨⟨h1, h8⟩, h5, h125⟩ := hin
    rw [takeStratumVolume_inRange h1 h8 ⟨h5, h125⟩] at h ⊢
    split
    · next heq => rw [state_ok, parameter?_volume h1 h8, heq, Int.toNat_of_nonneg (by omega)]
    · next hne =>
      rw [if_neg hne] at h
      split
      · have hvol := (stratum_withVolume s.map v.toNat ⟨h1, h8⟩ ⟨h1, h8⟩).trans (if_pos rfl)
        rw [state_ok, parameter?_volume h1 h8]
        refine congrArg some ?_
        refine (congrArg (fun x : Stratum => (x.volume : Int)) hvol).trans ?_
        exact Int.toNat_of_nonneg (by omega)
      · next hno => rw [if_neg hno] at h; cases h
  · rw [takeStratumVolume_badField hin] at h
    cases h

theorem takeThetaMax_readBack {v : Int} (h : (takeThetaMax v s).status = .ok) :
    (takeThetaMax v s).state.parameter? 9 = some v := by
  unfold takeThetaMax at h ⊢
  split
  · next hno => rw [if_pos hno] at h; cases h
  · split
    · next heq => exact congrArg some heq
    · rw [state_ok]
      exact congrArg (fun m : StratumMap => some m.thetaMax) (map_writeThetaMax v s)

theorem takeReserveLine_readBack {v : Int} (h : (takeReserveLine v s).status = .ok) :
    (takeReserveLine v s).state.parameter? 10 = some v := by
  unfold takeReserveLine at h ⊢
  split
  · next hno => rw [if_pos hno] at h; cases h
  · next hin =>
    rw [Bool.not_eq_false] at hin
    have hv : (v.toNat : Int) = v := toNat_of_within hin (by decide)
    split
    · next heq => exact congrArg some ((congrArg Nat.cast heq).trans hv)
    · rw [state_ok]
      refine congrArg some ((congrArg Nat.cast ?_).trans hv)
      exact congrArg StratumMap.reserveLine (map_writeReserveLine v.toNat s)

theorem takeMargin_readBack {v : Int} (h : (takeMargin v s).status = .ok) :
    (takeMargin v s).state.parameter? 11 = some v := by
  unfold takeMargin at h ⊢
  split
  · next hno => rw [if_pos hno] at h; cases h
  · split
    · next heq => exact congrArg some heq
    · rw [state_ok]
      exact parameter?_of_kept (kept_passStart _) 11

theorem setLease_readBack {n : Nat} {v : Int} {a : Admission} (h : s.admission.setLease n v = some a) :
    (s.modAdmission fun _ => a).parameter? n = some v := by
  unfold Admission.setLease at h
  split at h
  · split at h
    · next hin => cases h; exact congrArg some (toNat_of_within hin (by decide))
    · cases h
  · split at h
    · next hin => cases h; exact congrArg some (toNat_of_within hin (by decide))
    · cases h
  · obtain ⟨b, hb, rfl⟩ := Option.map_eq_some_iff.mp h
    exact congrArg some (onOffValue_of_onOff hb)
  · cases h

theorem takeLeaseParameter_readBack {n : Nat} {v : Int} (h : (takeLeaseParameter n v s).status = .ok) :
    (takeLeaseParameter n v s).state.parameter? n = some v := by
  unfold takeLeaseParameter at h ⊢
  split
  · next hno => rw [hno] at h; cases h
  · next a ha => exact setLease_readBack ha

/-- Watts that stand for a number of hundreds are read as that number. -/
theorem hundreds_readBack {w : Nat} {lo hi v : Int} (hin : within lo hi v = true) (h0 : 0 ≤ lo)
    (hw : w = 100 * v.toNat) : ((w / 100 : Nat) : Int) = v := by
  rw [hw, Nat.mul_div_cancel_left _ (by decide), toNat_of_within hin h0]

theorem takeSiteBudget_readBack {v : Int} (h : (takeSiteBudget v s).status = .ok) :
    (takeSiteBudget v s).state.parameter? 19 = some v := by
  unfold takeSiteBudget at h ⊢
  split
  · next hno => rw [if_pos hno] at h; cases h
  · next hin =>
    rw [Bool.not_eq_false] at hin
    split
    · next heq => exact congrArg some (hundreds_readBack hin (by decide) heq)
    · rw [state_ok]
      refine (parameter?_of_kept (kept_settling _ _) 19).trans (congrArg some ?_)
      exact hundreds_readBack hin (by decide) rfl

theorem takeSolarRating_readBack {v : Int} (h : (takeSolarRating v s).status = .ok) :
    (takeSolarRating v s).state.parameter? 20 = some v := by
  unfold takeSolarRating at h ⊢
  split
  · next hno => rw [if_pos hno] at h; cases h
  · next hin =>
    rw [Bool.not_eq_false] at hin
    split
    · next heq => exact congrArg some (hundreds_readBack hin (by decide) heq)
    · rw [state_ok]
      refine (parameter?_of_kept (kept_resettle _ _) 20).trans (congrArg some ?_)
      exact hundreds_readBack hin (by decide) rfl

theorem takeAutoCap_readBack {v : Int} (h : (takeAutoCap v s).status = .ok) :
    (takeAutoCap v s).state.parameter? 21 = some v := by
  unfold takeAutoCap at h ⊢
  split
  · next hno => rw [hno] at h; cases h
  · next b hb =>
    split
    · next heq => exact congrArg some ((congrArg onOffValue heq).trans (onOffValue_of_onOff hb))
    · rw [state_ok]
      exact (parameter?_of_kept (kept_settling _ _) 21).trans (congrArg some (onOffValue_of_onOff hb))

theorem params_of_kept {k : Kept} (h : t.kept = k) : t.solar.params = k.params := congrArg Kept.params h

theorem sanitise_of_kept {k : Kept} (h : t.kept = k) : t.sanitise = k.sanitise := congrArg Kept.sanitise h

/-- A loop parameter set stands in the parameters under its number. -/
theorem loopParams_readBack {n : Nat} {v : Int} {p q : LoopParams} (h : q.set n v = some p)
    (hp : t.solar.params = p) : t.parameter? n = some v := by
  subst hp
  unfold LoopParams.set at h
  split at h
  case h_5 =>
    split at h
    · next h0 => rw [h0]; exact congrArg (fun p => some (p.fixedTarget.getD 0)) (Option.some.inj h).symm
    · obtain ⟨-, hq⟩ := Option.ite_none_right_eq_some.mp h
      exact congrArg (fun p => some (p.fixedTarget.getD 0)) (Option.some.inj hq).symm
  case h_10 =>
    obtain ⟨b, hb, hq⟩ := Option.map_eq_some_iff.mp h
    exact (congrArg (fun p => some (onOffValue p.recooling)) hq.symm).trans (congrArg some (onOffValue_of_onOff hb))
  case h_13 => cases h
  all_goals
    obtain ⟨hin, hq⟩ := Option.ite_none_right_eq_some.mp h
    have hp := (Option.some.inj hq).symm
  case h_1 => exact congrArg (fun p => some p.startDiff) hp
  case h_2 => exact congrArg (fun p => some p.stopDiff) hp
  case h_3 =>
    exact (congrArg (fun p => some (p.primeTime : Int)) hp).trans (congrArg some (toNat_of_within hin (by decide)))
  case h_4 =>
    exact (congrArg (fun p => some (p.minSpeed : Int)) hp).trans (congrArg some (toNat_of_within hin (by decide)))
  case h_6 => exact congrArg (fun p => some p.stagnation) hp
  case h_7 => exact congrArg (fun p => some p.releaseTemp) hp
  case h_8 =>
    exact (congrArg (fun p => some (p.upperInlet : Int)) hp).trans (congrArg some (toNat_of_within hin (by decide)))
  case h_9 =>
    exact (congrArg (fun p => some (p.litresPerPulse : Int)) hp).trans
      (congrArg some (toNat_of_within hin (by decide)))
  case h_11 =>
    rw [Bool.and_eq_true] at hin
    exact (congrArg (fun p => some (p.windowStart : Int)) hp).trans
      (congrArg some (toNat_of_within hin.1 (by decide)))
  case h_12 =>
    rw [Bool.and_eq_true] at hin
    exact (congrArg (fun p => some (p.windowEnd : Int)) hp).trans
      (congrArg some (toNat_of_within hin.1 (by decide)))

theorem takeLoopParameter_readBack {n : Nat} {v : Int} (h : (takeLoopParameter n v s).status = .ok) :
    (takeLoopParameter n v s).state.parameter? n = some v := by
  unfold takeLoopParameter at h ⊢
  split
  · next hno => rw [hno] at h; cases h
  · next p hp =>
    split
    · next heq => exact loopParams_readBack hp heq.symm
    · rw [state_ok]
      exact loopParams_readBack hp (params_of_kept (kept_writeLoopParams p s))

/-- A sanitise setting set stands in the monitor under its number, whatever becomes of the accumulator. -/
theorem sanitise_readBack {n line a : Nat} {v : Int} {m old : Sanitise}
    (h : old.setting line n v = some m) (ht : t.sanitise = { m with accumulator := a }) :
    t.parameter? n = some v := by
  unfold Sanitise.setting at h
  split at h
  case h_1 =>
    split at h
    · next h0 =>
      cases h
      rw [h0]
      exact congrArg (fun m => some ((m.interval.getD 0 : Nat) : Int)) ht
    · obtain ⟨hin, hq⟩ := Option.ite_none_right_eq_some.mp h
      cases hq
      exact (congrArg (fun m => some ((m.interval.getD 0 : Nat) : Int)) ht).trans
        (congrArg some (toNat_of_within hin (by decide)))
  case h_7 => cases h
  all_goals
    obtain ⟨hin, hq⟩ := Option.ite_none_right_eq_some.mp h
    cases hq
  case h_2 => exact congrArg (fun m => some m.temp) ht
  case h_3 =>
    exact (congrArg (fun m => some (m.hold : Int)) ht).trans (congrArg some (toNat_of_within hin (by decide)))
  case h_4 =>
    exact (congrArg (fun m => some (m.floor : Int)) ht).trans
      (congrArg some (toNat_of_within hin (Int.natCast_nonneg line)))
  case h_5 =>
    exact (congrArg (fun m => some (m.startMinute : Int)) ht).trans
      (congrArg some (toNat_of_within hin (by decide)))
  case h_6 =>
    exact (congrArg (fun m => some (m.limit : Int)) ht).trans (congrArg some (toNat_of_within hin (by decide)))

theorem takeSanitiseSetting_readBack {n : Nat} {v : Int} (h : (takeSanitiseSetting n v s).status = .ok) :
    (takeSanitiseSetting n v s).state.parameter? n = some v := by
  unfold takeSanitiseSetting at h ⊢
  split
  · next hno => rw [hno] at h; cases h
  · next m hm =>
    split
    · next heq => exact sanitise_readBack hm (a := m.accumulator) heq.symm
    · rw [state_ok]
      exact sanitise_readBack hm (sanitise_of_kept (kept_writeSanitise m s))

/-! ### The request -/

/-- A request answered OK was judged OK, and closing and answering leave every parameter. -/
theorem parameter?_of_answered {code : Byte} {work : State → Reply} (hs : s.isWorking = false)
    (ha : (request code work s).answersWith .ok code []) :
    (work s).status = .ok ∧ ∀ n, (request code work s).parameter? n = (work s).state.parameter? n := by
  rw [request_idle hs] at ha ⊢
  have hok : (work s).status = .ok := congrArg Answer.status (PortState.working.inj ha.1)
  refine ⟨hok, fun n => ?_⟩
  rw [if_pos hok]
  exact parameter?_of_kept (kept_closing _) n

/-- Settles O6: each parameter by the write of its one field, which closing and answering leave. -/
theorem aSetParameterIsReadBack : Obligations.ASetParameterIsReadBack := by
  intro c n v s t hidle hc hex hans
  have readBack {work : State → Reply} (hwork : exec c s = .next (request 0x08#8 work s))
      (hread : (work s).status = .ok → (work s).state.parameter? n = some v) : t.parameter? n = some v := by
    obtain rfl : request 0x08#8 work s = t := Host.Outcome.next.inj (hwork.symm.trans hex)
    obtain ⟨hok, hsame⟩ := parameter?_of_answered hidle hans
    exact (hsame n).trans (hread hok)
  rcases hc with rfl | ⟨rfl, rfl⟩ | ⟨rfl, rfl⟩ | ⟨rfl, rfl⟩ | rfl | ⟨rfl, rfl⟩ | ⟨rfl, rfl⟩ | ⟨rfl, rfl⟩ | rfl | rfl
  · exact readBack rfl takeStratumVolume_readBack
  · exact readBack rfl takeThetaMax_readBack
  · exact readBack rfl takeReserveLine_readBack
  · exact readBack rfl takeMargin_readBack
  · exact readBack rfl takeLeaseParameter_readBack
  · exact readBack rfl takeSiteBudget_readBack
  · exact readBack rfl takeSolarRating_readBack
  · exact readBack rfl takeAutoCap_readBack
  · exact readBack rfl takeLoopParameter_readBack
  · exact readBack rfl takeSanitiseSetting_readBack

end Sys2Proof.Machine

/-! What a sweep-complete brings (R1 to R9). -/

namespace Sys2Proof.Machine

variable {e : Option EventFlag} {s t : State}

/-! ### What is raised stays raised while the map is taken -/

@[simp] theorem marked_loseMap (h : s.marked e) : (loseMap s).marked e := by
  refine marked_stopTrial (foldl_marked _ (fun u n hu => ?_) _ _ h)
  unfold loseMapFor; split
  · exact marked_beginEnding _ _ hu
  · exact hu

@[simp] theorem marked_tellFree (n : Nat) (h : s.marked e) : (tellFree s n).marked e := by
  unfold tellFree; repeat' split
  · exact h
  · exact marked_place _ _ h
  · exact h

@[simp] theorem marked_testAllFinishing (h : s.marked e) : (testAllFinishing s).marked e :=
  foldl_marked _ (fun _ n hu => marked_testFinishing n hu) _ _ h

@[simp] theorem marked_admitMap (b : State) (h : s.marked e) : (admitMap b s).marked e := by
  have hguard : s.withGuard.marked e := marked_modAdmission _ h
  have hrates : (resettle b (if (b.map.valid && !s.map.valid) = true then loseMap s.withGuard
      else s.withGuard)).marked e := by
    refine marked_resettle _ ?_
    split
    · exact marked_loseMap hguard
    · exact hguard
  unfold admitMap
  dsimp only
  split
  · exact foldl_marked _ (fun _ n hu => marked_tellFree n hu) _ _ hrates
  · exact hrates

theorem marked_announceMap (b : State) (h : s.marked e) : (announceMap b s).marked e := by
  have hloop : (testOverlap (solarSweep (admitMap b s))).marked e :=
    marked_testOverlap (marked_solarSweep (marked_admitMap b h))
  unfold announceMap
  dsimp only
  exact marked_passStart (marked_tryTrial (marked_callOffHotTrial
    (marked_testAllFinishing (marked_sanitiseSweep hloop))))

/-! ### The flags and the pass of a published map -/

theorem flagged_raiseIf (f : EventFlag) : (s.raiseIf true f).flagged f = true := raised f

/-- A flag that publishing the map raises is still raised when the sweep-complete has run its course. -/
theorem flagged_completed {r : Readings} {f : EventFlag} (h : (publishMap r s).flagged f = true) :
    (closing (announceMap s (publishMap r s))).flagged f = true :=
  marked_closing (e := some f) (marked_announceMap s h)

/-- Under a VALID map a sweep-complete leaves a pass in flight. -/
theorem pass_announceMap {b : State} (h : (announceMap b s).map.valid = true) :
    (announceMap b s).coverage.pass.isSome = true := by
  unfold announceMap at h ⊢
  dsimp only at h ⊢
  rw [map_of_keptByLoop (keptByLoop_of_kept (kept_passStart _))] at h
  exact passStart_inFlight h

theorem someProbeFell_iff {old new : StratumMap} :
    someProbeFell old new = true ↔ ∃ p ∈ old.probes.zip new.probes, p.1.state = .valid ∧ p.2.state = .faulted := by
  have hfaulted (p : Probe) : p.isValid = false ↔ p.state = .faulted := by
    unfold Probe.isValid; cases p.state <;> decide
  simp only [someProbeFell, List.any_eq_true, Bool.and_eq_true, Bool.not_eq_true', hfaulted, isValid_iff]

theorem flagged_probeFault {r : Readings}
    (h : ∃ p ∈ s.map.probes.zip (s.map.afterSweep r).probes, p.1.state = .valid ∧ p.2.state = .faulted) :
    (publishMap r s).flagged .probeFault = true := by
  unfold publishMap
  dsimp only
  rw [someProbeFell_iff.mpr h]
  exact marked_raiseIf (e := some .probeFault) _ _ (flagged_raiseIf _)

theorem flagged_mapInvalid {r : Readings} (hnew : (s.map.afterSweep r).valid = false)
    (hold : s.map.valid = true ∨ s.map.swept = false) : (publishMap r s).flagged .mapInvalid = true := by
  have hraised : invalidRaised s.map (s.map.afterSweep r) = true := by
    rw [invalidRaised, hnew]
    rcases hold with h | h <;> simp [h]
  unfold publishMap
  dsimp only
  rw [hraised]
  exact flagged_raiseIf _

/-! ### The sweep-complete -/

theorem kept_publishMap (r : Readings) (s : State) :
    (publishMap r s).withGuard.kept =
      { s.kept with
        map := s.map.afterSweep r, desk := { s.kept.desk with guard := (s.map.afterSweep r).guard } } := by
  unfold publishMap
  dsimp only
  cases someProbeFell s.map (s.map.afterSweep r) <;> cases invalidRaised s.map (s.map.afterSweep r) <;> rfl

theorem sameBooking_of_bare {x x' : Reservation} (h : x'.bare = x.bare) : sameBooking x x' := by
  unfold Reservation.bare at h
  obtain ⟨hterms, hstate, hfigures, -, hlast⟩ := Reservation.mk.inj h
  exact ⟨hterms, hstate, hfigures, hlast⟩

/-- A record stands but for its top-up link where the slots stand but for these links. -/
theorem sameBooking_of_slots (hslots : t.kept.slots = s.kept.slots) {n : Nat} {x : Reservation}
    (hx : s.record? n = some x) : ∃ x', t.record? n = some x' ∧ sameBooking x x' := by
  have hb := record?_of_slots hslots n
  rw [hx] at hb
  obtain ⟨x', hx', hbare⟩ := Option.map_eq_some_iff.mp hb
  exact ⟨x', hx', sameBooking_of_bare hbare⟩

/-- What stands of a sweep-complete's result can be read off what it keeps. -/
theorem keptBySweep_completed (r : Readings) (s : State) :
    (closing (announceMap s (publishMap r s))).keptBySweep =
      { s.keptBySweep with
        map := s.map.afterSweep r, desk := { s.kept.desk with guard := (s.map.afterSweep r).guard } } := by
  rw [keptBySweep_of_kept (kept_closing _), keptBySweep_announceMap, State.keptBySweep, State.keptByLoop,
    kept_publishMap]
  rfl

/-- Settles O13: the map, the guard and all that stays by what a sweep-complete keeps, the flags and the pass by what
the work after publishing leaves raised and in flight. -/
theorem sweepCompletePublishesTheMap : Obligations.SweepCompletePublishesTheMap := by
  intro r s
  refine ⟨rfl, fun hin => ?_, fun hin => congrArg Host.Outcome.next (if_neg (by rw [hin]; exact Bool.noConfusion))⟩
  have hdone : completeSweep r s = closing (announceMap s (publishMap r s)) := if_pos hin
  have hkept := keptBySweep_completed r s
  have hprobe := fun h => flagged_completed (flagged_probeFault (s := s) (r := r) h)
  have hinvalid := fun h1 h2 => flagged_completed (flagged_mapInvalid (s := s) (r := r) h1 h2)
  have hpass : (announceMap s (publishMap r s)).map.valid = true →
      (closing (announceMap s (publishMap r s))).coverage.pass.isSome = true :=
    fun h => marked_closing (e := none) (pass_announceMap h)
  rw [← map_of_keptByLoop (keptByLoop_of_kept (kept_closing _))] at hpass
  refine ⟨_, congrArg Host.Outcome.next hdone, ?_⟩
  generalize closing (announceMap s (publishMap r s)) = t at hkept hprobe hinvalid hpass
  have hmap : t.map = s.map.afterSweep r := congrArg Kept.map hkept
  have hslots : t.keptBySweep.slots = s.keptBySweep.slots := by rw [hkept]
  rw [hmap] at hpass ⊢
  exact ⟨rfl, congrArg (fun k => k.desk.guard) hkept, hprobe, hinvalid, hpass,
    fun n x hx => sameBooking_of_slots hslots hx, congrArg Kept.clock hkept,
    congrArg Kept.params hkept, congrArg Kept.portState hkept, congrArg Kept.mask hkept⟩

end Sys2Proof.Machine

/-! Leases that end, one slot at a time: what becomes of the slot worked on and of the others (R80, R84, R115). -/

namespace Sys2Proof.Machine

variable {n m : Nat} {s t : State}

/-! ### Work that does not touch the lease table -/

theorem lease_of_admission (h : t.admission = s.admission) (n : Nat) : t.lease? n = s.lease? n := by
  rw [State.lease?, State.lease?, State.leaseSlot, State.leaseSlot, h]

theorem admission_place (i : Nat) (c : LinkCmd) (s : State) : (place i c s).admission = s.admission := by
  unfold place; split
  · rfl
  · unfold markOvertaken; split <;> rfl

/-- A note on the eligible stations touches coverage alone. -/
theorem noteEligible_eq (b s : State) : noteEligible b s = s.modCoverage fun _ => (noteEligible b s).coverage := by
  unfold noteEligible; split
  · rfl
  · exact passStart_eq s

theorem admission_noteEligible (b s : State) : (noteEligible b s).admission = s.admission := by
  rw [noteEligible_eq]; rfl

/-- Taking a retired lease's reservations from their passes touches the book and coverage. -/
theorem unserve_eq (l : List Handle) (s : State) :
    ∃ b c, l.foldl (fun t r => passStart (clearTopUp r t)) s = { s with book := b, coverage := c } := by
  induction l generalizing s with
  | nil => exact ⟨_, _, rfl⟩
  | cons r l ih =>
    obtain ⟨b, c, h⟩ := ih (passStart (clearTopUp r s))
    rw [List.foldl_cons, h, passStart_eq]
    unfold clearTopUp
    split
    · exact ⟨b, c, rfl⟩
    · exact ⟨b, c, rfl⟩

theorem admission_tellOwner (k : LeaseKind) (out : LeaseOutcome) (s : State) :
    (tellOwner k out s).admission = s.admission := by
  unfold tellOwner; repeat' split
  · exact raiseIf_admission _ _ _
  all_goals rfl

/-! ### A lease dismissed -/

theorem admission_dismiss {l : Lease} (out : LeaseOutcome) (h : s.lease? n = some l) :
    (dismiss n out s).admission = (freeLease n l out s).admission := by
  obtain ⟨b, c, hb⟩ := unserve_eq l.serve s
  unfold dismiss
  rw [h]
  dsimp only
  rw [admission_tellOwner, hb]
  exact admission_noteEligible _ _

/-- A dismissed lease leaves its slot free. -/
theorem lease_dismiss (hn : n - 1 < 8) (out : LeaseOutcome) (s : State) : (dismiss n out s).lease? n = none := by
  cases h : s.lease? n with
  | none => rw [dismiss, h]; exact h
  | some l =>
    rw [lease_of_admission (admission_dismiss out h)]
    exact congrArg LeaseSlot.lease (leaseSlot_setLeaseSlot hn _ _)

theorem lease_dismiss_ne (h : m - 1 ≠ n - 1) (out : LeaseOutcome) (s : State) :
    (dismiss m out s).lease? n = s.lease? n := by
  cases hl : s.lease? m with
  | none => rw [dismiss, hl]
  | some l =>
    rw [lease_of_admission (admission_dismiss out hl)]
    exact congrArg LeaseSlot.lease (leaseSlot_setLeaseSlot_ne h _ _)

/-! ### A lease ended -/

/-- A lease that is ended is in REVOKING where it is still in the table. -/
theorem lease_beginEnding (hn : n - 1 < 8) {r : LeaseOutcome} {l : Lease}
    (hl : (beginEnding n r s).lease? n = some l) : l.state = .revoking := by
  unfold beginEnding at hl
  split at hl
  · next h => rw [h] at hl; cases hl
  · next l0 h =>
    split at hl
    · next hrev => rw [h] at hl; cases hl; exact hrev
    · split at hl
      · rw [lease_dismiss hn] at hl; cases hl
      · rw [beginRevoking, lease_of_admission (admission_place _ _ _), lease_modLease, h] at hl
        cases hl; rfl

theorem lease_beginEnding_ne (h : m - 1 ≠ n - 1) (r : LeaseOutcome) (s : State) :
    (beginEnding m r s).lease? n = s.lease? n := by
  unfold beginEnding; repeat' split
  · rfl
  · rfl
  · exact lease_dismiss_ne h r s
  · rw [beginRevoking, lease_of_admission (admission_place _ _ _), lease_modLease_ne h]

/-! ### The inlets -/

/-- The inlets that the roster's entries have of their own. -/
def State.inlets (s : State) : Vector Nat 8 := s.roster.entries.map Entry.inlet

theorem entryInlet_of_inlets (hv : t.kept.valve = s.kept.valve) (hp : t.kept.params = s.kept.params)
    (hi : t.inlets = s.inlets) (i : Nat) : t.entryInlet i = s.entryInlet i := by
  have hown : (t.entry i).inlet = (s.entry i).inlet := by
    have := congrArg (tget · i Entry.absent.inlet) hi
    simpa only [State.inlets, tget_map, State.entry] using this
  have hvalve : t.solar.valve = s.solar.valve := hv
  have hparams : t.solar.params = s.solar.params := hp
  rw [State.entryInlet, State.entryInlet, hown, Solar.inlet, Solar.inlet, hvalve, hparams]

theorem inlets_modEntry (i : Nat) {f : Entry → Entry} (hf : ∀ e, (f e).inlet = e.inlet) (s : State) :
    (s.modEntry i f).inlets = s.inlets :=
  map_tset_self Entry.inlet s.roster.entries i _ .absent (hf _)

theorem inlets_of_calm (h : t.calm = s.calm) : t.inlets = s.inlets := by
  obtain ⟨-, -, -, hent, -⟩ := calm_eq_iff.mp h
  rw [State.inlets, State.inlets, hent]

theorem inlets_tellOwner (k : LeaseKind) (out : LeaseOutcome) (s : State) :
    (tellOwner k out s).inlets = s.inlets := by
  unfold tellOwner; repeat' split
  · unfold State.raiseIf; split <;> rfl
  all_goals rfl

theorem inlets_freeLease (n : Nat) (l : Lease) (out : LeaseOutcome) (s : State) :
    (freeLease n l out s).inlets = s.inlets :=
  inlets_modEntry l.holder (f := fun e => { e with
    last := some { handle := s.leaseHandle n, kind := l.kind, outcome := out, delivered := l.delivered } })
    (fun _ => rfl) s

theorem inlets_dismiss (n : Nat) (out : LeaseOutcome) (s : State) : (dismiss n out s).inlets = s.inlets := by
  unfold dismiss
  split
  · rfl
  · next l _ =>
    obtain ⟨b, c, hb⟩ := unserve_eq l.serve s
    dsimp only
    rw [inlets_tellOwner, hb, noteEligible_eq]
    exact inlets_freeLease n l out _

theorem inlets_beginEnding (n : Nat) (r : LeaseOutcome) (s : State) : (beginEnding n r s).inlets = s.inlets := by
  unfold beginEnding; repeat' split
  · rfl
  · rfl
  · exact inlets_dismiss n r s
  · exact inlets_of_calm (calm_beginRevoking _ _ _ _)

/-! ### A slot after another -/

/-- Work that takes the eight slots in turn, and does for each slot what no later step of it undoes, has done it for
all. -/
theorem foldl_establishes {f : State → Nat → State} {Inv : State → Prop} {Q : State → Nat → Prop}
    (hinv : ∀ s m, Inv s → Inv (f s m)) (hself : ∀ s n, n - 1 < 8 → Inv s → Q (f s n) n)
    (hother : ∀ s m n, m - 1 ≠ n - 1 → Inv s → Q s n → Q (f s m) n) {s : State} (hs : Inv s) {n : Nat} (h1 : 1 ≤ n)
    (h8 : n ≤ 8) : Q (upTo8.foldl f s) n := by
  have key : ∀ (l : List Nat) (s : State), (∀ m ∈ l, 1 ≤ m) → Inv s → (n ∈ l ∨ Q s n) → Q (l.foldl f s) n := by
    intro l
    induction l with
    | nil => exact fun s _ _ h => h.resolve_left List.not_mem_nil
    | cons m l ih =>
      intro s hpos hs h
      rw [List.foldl_cons]
      refine ih _ (fun k hk => hpos k (List.mem_cons_of_mem m hk)) (hinv s m hs) ?_
      have hm := hpos m List.mem_cons_self
      by_cases hmn : m = n
      · subst hmn; exact .inr (hself s m (by omega) hs)
      · refine h.imp (fun hn => ?_) (hother s m n (by omega) hs)
        exact (List.mem_cons.mp hn).resolve_left fun e => hmn e.symm
  exact key upTo8 s (fun m hm => (mem_upTo8.mp hm).1) hs (.inl (mem_upTo8.mpr ⟨h1, h8⟩))

end Sys2Proof.Machine

/-! The reserve line and θmax (R11, R13, R15, R62, R91, R115, R169). -/

namespace Sys2Proof.Machine

variable {n : Nat} {s t : State}

/-! ### Leases below a raised reserve line -/

/-- A bought lease of slot `n` whose holder's inlet lies below the line is in REVOKING. -/
def State.endsBelow (inlet : Nat → Nat) (line : Nat) (s : State) (n : Nat) : Prop :=
  ∀ l, s.lease? n = some l → l.kind.isBought = true → inlet l.holder < line → l.state = .revoking

theorem endsBelow_of_lease {inlet : Nat → Nat} {line : Nat} (hl : t.lease? n = s.lease? n)
    (h : s.endsBelow inlet line n) : t.endsBelow inlet line n := by
  unfold State.endsBelow at h ⊢
  rw [hl]
  exact h

theorem core_state_revoking {l : Lease} : l.core.state = .revoking ↔ l.state = .revoking := by
  unfold Lease.core
  dsimp only
  cases l.state <;> decide

theorem same_of_root {l l' : Lease} (h : l'.root = l.root) :
    l'.kind = l.kind ∧ l'.holder = l.holder ∧ l'.ceiling = l.ceiling := by
  unfold Lease.root at h
  obtain ⟨hkind, -, hholder, -, -, hceiling, -⟩ := Lease.mk.inj h
  exact ⟨hkind, hholder, hceiling⟩

/-- The lease that a slot held before work that leaves the roots. -/
theorem exists_of_shelf (h : t.shelf = s.shelf) {l : Lease} (hl : t.lease? n = some l) :
    ∃ l0, s.lease? n = some l0 ∧ l0.root = l.root := by
  have hroot : (t.lease? n).map Lease.root = (s.lease? n).map Lease.root :=
    congrArg LeaseSlot.lease (root_of_shelf h n)
  rw [hl] at hroot
  exact Option.map_eq_some_iff.mp hroot.symm

/-- Work that leaves the roots of the leases, and the cores of those at rest, ends no lease's REVOKING. -/
theorem endsBelow_of_shelf {inlet : Nat → Nat} {line : Nat} (hshelf : t.shelf = s.shelf)
    (hcore : s.atRest n → t.core n = s.core n) (h : s.endsBelow inlet line n) : t.endsBelow inlet line n := by
  intro l hl hbought hbelow
  obtain ⟨l0, hl0, hroot0⟩ := exists_of_shelf hshelf hl
  obtain ⟨hkind, hholder, -⟩ := same_of_root hroot0
  have hrev : l0.state = .revoking := h l0 hl0 (hkind ▸ hbought) (hholder ▸ hbelow)
  have hrest : s.atRest n := by
    intro l1 hl1
    obtain rfl : l0 = l1 := Option.some.inj (hl0.symm.trans hl1)
    rw [hrev]
    decide
  have hcore0 : (t.lease? n).map Lease.core = (s.lease? n).map Lease.core :=
    congrArg LeaseSlot.lease (hcore hrest)
  rw [hl, hl0] at hcore0
  have hstate : l.core.state = l0.core.state := by rw [Option.some.inj hcore0]
  exact core_state_revoking.mp (hstate.trans (core_state_revoking.mpr hrev))

/-- What the leases that end below the line leave: the inlets and the line. -/
def State.hasLine (inlet : Nat → Nat) (line : Nat) (s : State) : Prop :=
  (∀ i, s.entryInlet i = inlet i) ∧ s.map.reserveLine = line

theorem hasLine_endBelowLine {inlet : Nat → Nat} {line : Nat} (m : Nat) (h : s.hasLine inlet line) :
    (endBelowLine s m).hasLine inlet line := by
  unfold endBelowLine
  split
  · refine ⟨fun i => ?_, ?_⟩
    · have hkept := kept_beginEnding m .revoked s
      exact (entryInlet_of_inlets (by rw [hkept]) (by rw [hkept]) (inlets_beginEnding m .revoked s) i).trans (h.1 i)
    · rw [map_of_keptByLoop (keptByLoop_of_kept (kept_beginEnding _ _ _))]
      exact h.2
  · exact h

theorem endsBelow_endBelowLine {inlet : Nat → Nat} {line : Nat} (hn : n - 1 < 8) (h : s.hasLine inlet line) :
    (endBelowLine s n).endsBelow inlet line n := by
  obtain ⟨hinlet, hline⟩ := h
  intro l hl hbought hbelow
  unfold endBelowLine at hl
  split at hl
  · exact lease_beginEnding hn hl
  · next hno =>
    refine absurd ?_ hno
    rw [hl, Option.any_some, State.belowLine, hbought, hinlet, hline, Bool.true_and]
    exact decide_eq_true hbelow

theorem endsBelow_endBelowLine_ne {inlet : Nat → Nat} {line m : Nat} (hne : m - 1 ≠ n - 1)
    (h : s.endsBelow inlet line n) : (endBelowLine s m).endsBelow inlet line n := by
  unfold endBelowLine
  split
  · exact endsBelow_of_lease (lease_beginEnding_ne hne _ _) h
  · exact h

/-- After the line has been raised no bought lease whose holder's inlet lies below it is left outside REVOKING. -/
theorem endsBelow_foldl (h1 : 1 ≤ n) (h8 : n ≤ 8) (s : State) :
    (upTo8.foldl endBelowLine s).endsBelow s.entryInlet s.map.reserveLine n :=
  foldl_establishes (Inv := State.hasLine s.entryInlet s.map.reserveLine)
    (Q := State.endsBelow s.entryInlet s.map.reserveLine)
    (fun _ m hs => hasLine_endBelowLine m hs) (fun _ _ hn hs => endsBelow_endBelowLine hn hs)
    (fun _ _ _ hne _ hq => endsBelow_endBelowLine_ne hne hq) ⟨fun _ => rfl, rfl⟩ h1 h8

theorem admission_liftFloor (s : State) : (liftFloor s).admission = s.admission := by
  unfold liftFloor; split <;> rfl

theorem admission_passStart (s : State) : (passStart s).admission = s.admission := by
  rw [passStart_eq]; rfl

theorem endsBelow_writeReserveLine {v : Nat} (hv : s.map.reserveLine < v) (h1 : 1 ≤ n) (h8 : n ≤ 8) :
    (closing (writeReserveLine v s)).endsBelow s.entryInlet v n := by
  have hfold : (upTo8.foldl endBelowLine (s.withLine v)).endsBelow s.entryInlet v n :=
    endsBelow_foldl h1 h8 (s.withLine v)
  have hrates := endsBelow_of_shelf (shelf_resettle s _) (core_resettle h1 s) hfold
  refine endsBelow_of_shelf (shelf_closing _) (core_closing h1) ?_
  rw [writeReserveLine_of_raised hv]
  refine endsBelow_of_lease (lease_of_admission ?_ n) hrates
  rw [admission_noteEligible, admission_passStart, admission_liftFloor]

theorem inlets_passStart (s : State) : (passStart s).inlets = s.inlets := by
  rw [passStart_eq]; rfl

theorem inlets_noteEligible (b s : State) : (noteEligible b s).inlets = s.inlets := by
  rw [noteEligible_eq]; rfl

theorem inlets_liftFloor (s : State) : (liftFloor s).inlets = s.inlets := by
  unfold liftFloor; split <;> rfl

theorem inlets_endBelowLine (s : State) (n : Nat) : (endBelowLine s n).inlets = s.inlets := by
  unfold endBelowLine; split
  · exact inlets_beginEnding _ _ _
  · rfl

theorem inlets_writeReserveLine (v : Nat) (s : State) : (writeReserveLine v s).inlets = s.inlets := by
  by_cases hv : s.map.reserveLine < v
  · rw [writeReserveLine_of_raised hv, inlets_noteEligible, inlets_passStart, inlets_liftFloor,
      inlets_of_calm (calm_resettle _ _), foldl_keeps State.inlets _ inlets_endBelowLine]
    rfl
  · rw [writeReserveLine_of_lowered hv, inlets_noteEligible, inlets_passStart]
    rfl

/-! ### The reserve line written -/

theorem pass_writeReserveLine (v : Nat) (h : s.map.valid = true) :
    (writeReserveLine v s).coverage.pass.isSome = true := by
  obtain ⟨u, hu⟩ : ∃ u, writeReserveLine v s = noteEligible s (passStart u) := ⟨_, rfl⟩
  have hmap : u.map = (s.withLine v).map :=
    calc u.map = (noteEligible s (passStart u)).map :=
          (map_of_kept ((kept_noteEligible s _).trans (kept_passStart u))).symm
      _ = (s.withLine v).map := hu ▸ map_writeReserveLine v s
  have hvalid : u.map.valid = true := by rw [hmap]; exact h
  rw [hu]
  exact marked_noteEligible (e := none) s (passStart_inFlight hvalid)

/-! ### The ceilings -/

/-- Every FREE and SOLAR lease of slot `n` has this ceiling. -/
def State.ceilingAt (v : Temp) (s : State) (n : Nat) : Prop :=
  ∀ l, s.lease? n = some l → l.kind.isBought = false → l.ceiling = v

theorem ceilingAt_of_lease {v : Temp} (hl : t.lease? n = s.lease? n) (h : s.ceilingAt v n) : t.ceilingAt v n := by
  unfold State.ceilingAt at h ⊢
  rw [hl]
  exact h

theorem ceilingAt_of_shelf {v : Temp} (hshelf : t.shelf = s.shelf) (h : s.ceilingAt v n) : t.ceilingAt v n := by
  intro l hl hfree
  obtain ⟨l0, hl0, hroot⟩ := exists_of_shelf hshelf hl
  obtain ⟨hkind, -, hceiling⟩ := same_of_root hroot
  exact hceiling.symm.trans (h l0 hl0 (hkind ▸ hfree))

theorem lease_of_place (h : n - 1 = m - 1) (s : State) : s.lease? n = s.lease? m := by
  rw [State.lease?, State.lease?, State.leaseSlot, State.leaseSlot, h]

/-- A slot written holds the ceiling where the lease written does. -/
theorem ceilingAt_setLeaseSlot {v : Temp} {x : LeaseSlot} (m : Nat)
    (hx : ∀ l, x.lease = some l → l.kind.isBought = false → l.ceiling = v) (h : s.ceilingAt v n) :
    (s.setLeaseSlot m x).ceilingAt v n := by
  intro l hl
  by_cases hmn : m - 1 = n - 1
  · by_cases hm : m - 1 < 8
    · have hslot : (s.setLeaseSlot m x).lease? m = x.lease :=
        congrArg LeaseSlot.lease (leaseSlot_setLeaseSlot hm x s)
      rw [← lease_of_place hmn, hslot] at hl
      exact hx l hl
    · have hfree : (s.setLeaseSlot m x).leaseSlot n = .initial := tget_of_le _ _ _ (by omega)
      rw [State.lease?, hfree] at hl
      cases hl
  · have hslot : (s.setLeaseSlot m x).lease? n = s.lease? n :=
      congrArg LeaseSlot.lease (leaseSlot_setLeaseSlot_ne hmn x s)
    rw [hslot] at hl
    exact h l hl

theorem ceilingAt_modLease {v : Temp} (m : Nat) {f : Lease → Lease}
    (hf : ∀ l, (f l).kind = l.kind ∧ (f l).ceiling = l.ceiling) (h : s.ceilingAt v n) :
    (s.modLease m f).ceilingAt v n := by
  intro l hl hfree
  by_cases hmn : m - 1 = n - 1
  · rw [← lease_of_place hmn, lease_modLease, lease_of_place hmn] at hl
    obtain ⟨l0, hl0, rfl⟩ := Option.map_eq_some_iff.mp hl
    obtain ⟨hkind, hceiling⟩ := hf l0
    exact hceiling.trans (h l0 hl0 (hkind ▸ hfree))
  · rw [lease_modLease_ne hmn] at hl
    exact h l hl hfree

/-- A FREE or SOLAR lease is given θmax as its ceiling. -/
theorem ceilingAt_followCeiling {v : Temp} (hv : s.map.thetaMax = v) : (followCeiling s n).ceilingAt v n := by
  unfold followCeiling
  split
  · next hnone =>
    intro l hl
    rw [hnone] at hl; cases hl
  · next l0 hl0 =>
    split
    · next hbought =>
      intro l hl hfree
      obtain rfl : l0 = l := Option.some.inj (hl0.symm.trans hl)
      rw [hbought] at hfree; cases hfree
    · have hset : (s.modLease n fun l => { l with ceiling := s.map.thetaMax }).ceilingAt v n := by
        intro l hl _
        rw [lease_modLease, hl0] at hl
        cases hl
        exact hv
      dsimp only
      split
      · exact ceilingAt_of_lease (lease_of_admission (admission_place _ _ _) n) hset
      · exact hset

theorem ceilingAt_followCeiling_ne {v : Temp} (hne : m - 1 ≠ n - 1) (h : s.ceilingAt v n) :
    (followCeiling s m).ceilingAt v n := by
  have hset : (s.modLease m fun l => { l with ceiling := s.map.thetaMax }).ceilingAt v n := by
    unfold State.ceilingAt
    rw [lease_modLease_ne hne]
    exact h
  unfold followCeiling
  dsimp only
  repeat' split
  · exact h
  · exact h
  · exact ceilingAt_of_lease (lease_of_admission (admission_place _ _ _) n) hset
  · exact hset

theorem ceilingAt_dismiss {v : Temp} (m : Nat) (out : LeaseOutcome) (h : s.ceilingAt v n) :
    (dismiss m out s).ceilingAt v n := by
  cases hl : s.lease? m with
  | none => rw [dismiss, hl]; exact h
  | some l =>
    refine ceilingAt_of_lease (lease_of_admission (admission_dismiss out hl) n) ?_
    exact ceilingAt_setLeaseSlot m (fun _ e => nomatch e) (ceilingAt_of_lease rfl h)

theorem ceilingAt_openSolar {v : Temp} (hv : s.map.thetaMax = v) (h : s.ceilingAt v n) :
    (openSolar s).ceilingAt v n := by
  unfold openSolar
  split
  · exact h
  · next m _ =>
    extract_lets src l s1 s2
    have hslot : (s.setLeaseSlot m { s.leaseSlot m with lease := some l }).ceilingAt v n :=
      ceilingAt_setLeaseSlot m (fun l' hl' _ => by cases hl'; exact hv) h
    have hput : s1.ceilingAt v n :=
      ceilingAt_modLease m (fun _ => ⟨rfl, rfl⟩) (ceilingAt_modLease m (fun _ => ⟨rfl, rfl⟩) hslot)
    have hstate : s2.ceilingAt v n := ceilingAt_modLease m (fun _ => ⟨rfl, rfl⟩) hput
    exact ceilingAt_of_lease rfl hstate

theorem ceilingAt_driveUpper {v : Temp} (h : s.ceilingAt v n) : (driveUpper s).ceilingAt v n := by
  have hinlet (u : State) (hu : u.ceilingAt v n) : (followInlet u).ceilingAt v n := by
    unfold followInlet
    split
    · exact hu
    · exact ceilingAt_modLease _ (fun _ => ⟨rfl, rfl⟩) hu
  unfold driveUpper
  split
  · exact hinlet _ (ceilingAt_of_lease rfl h)
  · exact h

theorem ceilingAt_testOff {v : Temp} (hv : s.map.thetaMax = v) (h : s.ceilingAt v n) :
    (testOff s).ceilingAt v n := by
  unfold testOff
  repeat' split
  · exact ceilingAt_of_lease rfl h
  · exact ceilingAt_of_lease rfl h
  · exact ceilingAt_of_lease rfl (ceilingAt_openSolar hv h)
  · exact ceilingAt_driveUpper (ceilingAt_of_lease rfl h)
  · exact h

theorem ceilingAt_endLoop {v : Temp} (st : LoopState) (h : s.ceilingAt v n) : (endLoop st s).ceilingAt v n := by
  have hstop : (stopLoop st s).ceilingAt v n := ceilingAt_of_lease rfl h
  unfold endLoop
  dsimp only
  split
  · exact hstop
  · unfold retire
    split
    · exact hstop
    · exact ceilingAt_of_shelf (shelf_resettle _ _) (ceilingAt_dismiss _ _ hstop)

theorem ceilingAt_solarGuardChange {v : Temp} (g : GuardState) (hv : s.map.thetaMax = v) (h : s.ceilingAt v n) :
    (solarGuardChange g s).ceilingAt v n := by
  unfold solarGuardChange
  repeat' split
  · exact ceilingAt_testOff hv h
  · exact h
  · exact ceilingAt_endLoop _ h
  · exact h

/-- With θmax written, every FREE and SOLAR lease has it as its ceiling. -/
theorem ceilingAt_writeThetaMax {v : Temp} (h1 : 1 ≤ n) (h8 : n ≤ 8) : (writeThetaMax v s).ceilingAt v n := by
  have hfold : (upTo8.foldl followCeiling (s.withTheta v)).ceilingAt v n :=
    foldl_establishes (Inv := fun s => s.map.thetaMax = v) (Q := State.ceilingAt v)
      (fun u m hu => (congrArg StratumMap.thetaMax (map_of_kept (kept_followCeiling u m))).trans hu)
      (fun _ _ _ hu => ceilingAt_followCeiling hu) (fun _ _ _ hne _ hq => ceilingAt_followCeiling_ne hne hq)
      (s := s.withTheta v) rfl h1 h8
  have hmap : (upTo8.foldl followCeiling (s.withTheta v)).map.thetaMax = v := by
    rw [map_of_kept (foldl_kept _ kept_followCeiling upTo8 (s.withTheta v))]
    rfl
  rw [writeThetaMax_eq]
  generalize upTo8.foldl followCeiling (s.withTheta v) = u at hfold hmap ⊢
  have hguard : u.withGuard.ceilingAt v n := ceilingAt_of_lease (s := u) rfl hfold
  unfold announceGuard
  split
  · exact hfold
  · refine ceilingAt_solarGuardChange _ ?_ (ceilingAt_of_shelf (shelf_resettle s u.withGuard) hguard)
    exact (congrArg StratumMap.thetaMax (map_of_kept (kept_takeGuard s u))).trans hmap

/-! ### The two requests -/

theorem takeReserveLine_badField {w : Int} (h : w < 2 ∨ 8 < w) : takeReserveLine w s = .no .badField s :=
  if_pos (Bool.eq_false_iff.mpr fun hw => by have := within_iff.mp hw; omega)

theorem takeReserveLine_inRange {v : Nat} (h2 : 2 ≤ v) (h8 : v ≤ 8) :
    takeReserveLine v s = if s.map.reserveLine = v then .ok s else .ok (writeReserveLine v s) :=
  if_neg (by rw [within_iff.mpr ⟨by omega, by omega⟩]; exact Bool.noConfusion)

theorem takeThetaMax_badField {w : Int} (h : w < 600 ∨ 950 < w) : takeThetaMax w s = .no .badField s :=
  if_pos (Bool.eq_false_iff.mpr fun hw => by have := within_iff.mp hw; omega)

theorem takeThetaMax_inRange {v : Int} (h600 : 600 ≤ v) (h950 : v ≤ 950) :
    takeThetaMax v s = if s.map.thetaMax = v then .ok s else .ok (writeThetaMax v s) :=
  if_neg (by rw [within_iff.mpr ⟨h600, h950⟩]; exact Bool.noConfusion)

theorem reserveLine_set {v : Nat} (hidle : s.isWorking = false) (h2 : 2 ≤ v) (h8 : v ≤ 8)
    (hne : v ≠ s.map.reserveLine) :
    ∃ t, exec (.setReserveLine v) s = .next t ∧ t.answersWith .ok 0x08#8 [] ∧
      t.map = { s.map with reserveLine := v } ∧ (s.map.valid = true → t.coverage.pass.isSome = true) ∧
      (s.map.reserveLine < v → s.sanitise.floor < v → t.sanitise = { s.sanitise with floor := v, accumulator := 0 }) ∧
      ((v < s.map.reserveLine ∨ v ≤ s.sanitise.floor) → t.sanitise = s.sanitise) ∧
      (s.map.reserveLine < v → ∀ n l, 1 ≤ n → n ≤ 8 → t.lease? n = some l → l.kind.isBought = true →
        t.entryInlet l.holder < v → l.state = .revoking) ∧
      (∀ n x, s.record? n = some x → ∃ x', t.record? n = some x' ∧ sameBooking x x') ∧ t.clock = s.clock := by
  have hw : takeReserveLine v s = .okWith [] (writeReserveLine v s) := by
    rw [takeReserveLine_inRange h2 h8, if_neg (Ne.symm hne)]; rfl
  have hkept := (kept_closing (writeReserveLine v s)).trans (kept_writeReserveLine v s)
  have hpass := fun h => marked_closing (e := none) (pass_writeReserveLine v (s := s) h)
  have hends := fun hv n h1 h8 => endsBelow_writeReserveLine (s := s) (n := n) (v := v) hv h1 h8
  have hinlets : (closing (writeReserveLine v s)).inlets = s.inlets :=
    (inlets_of_calm (calm_closing _)).trans (inlets_writeReserveLine v s)
  refine ⟨_, congrArg Host.Outcome.next (request_ok hidle hw), ⟨rfl, rfl⟩, ?_⟩
  generalize closing (writeReserveLine v s) = u at hkept hpass hends hinlets
  have hmap : u.map = { s.map with reserveLine := v } := by
    rw [map_of_kept hkept]; split <;> rfl
  have hslots : u.kept.slots = s.kept.slots := by
    rw [hkept]; split <;> rfl
  have hinlet (i : Nat) : u.entryInlet i = s.entryInlet i :=
    entryInlet_of_inlets (by rw [hkept]; split <;> rfl) (by rw [hkept]; split <;> rfl) hinlets i
  refine ⟨hmap, hpass, fun hraised hfloor => ?_, fun hkeeps => ?_, fun hraised n l h1 h8 hl hbought hbelow => ?_,
    fun n x hx => sameBooking_of_slots hslots hx, ?_⟩
  · rw [if_pos ⟨hraised, hfloor⟩] at hkept
    exact sanitise_of_kept hkept
  · rw [if_neg (by omega)] at hkept
    exact sanitise_of_kept hkept
  · exact hends hraised n h1 h8 l hl hbought (hinlet l.holder ▸ hbelow)
  · refine (congrArg Kept.clock hkept).trans ?_
    split <;> rfl

theorem thetaMax_set {v : Int} (hidle : s.isWorking = false) (h600 : 600 ≤ v) (h950 : v ≤ 950)
    (hne : v ≠ s.map.thetaMax) :
    ∃ t, exec (.setThetaMax v) s = .next t ∧ t.answersWith .ok 0x08#8 [] ∧
      t.map = { s.map with thetaMax := v, guard := guardOf s.map.valid (s.temp 8) v } ∧
      (t.map.guard ≠ s.map.guard → t.admission.guard = t.map.guard) ∧
      (t.map.guard = s.map.guard → t.admission.guard = s.admission.guard) ∧
      (∀ n l, 1 ≤ n → n ≤ 8 → t.lease? n = some l → l.kind.isBought = false → l.ceiling = v) ∧
      (∀ n x, s.record? n = some x → ∃ x', t.record? n = some x' ∧ sameBooking x x') ∧
      t.clock = s.clock ∧ t.sanitise = s.sanitise ∧ t.solar.params = s.solar.params := by
  have hw : takeThetaMax v s = .okWith [] (writeThetaMax v s) := by
    rw [takeThetaMax_inRange h600 h950, if_neg (Ne.symm hne)]; rfl
  have hkept := (keptByLoop_of_kept (kept_closing (writeThetaMax v s))).trans (keptByLoop_writeThetaMax v s)
  have hceiling (n : Nat) (h1 : 1 ≤ n) (h8 : n ≤ 8) : (closing (writeThetaMax v s)).ceilingAt v n :=
    ceilingAt_of_shelf (shelf_closing _) (ceilingAt_writeThetaMax h1 h8)
  refine ⟨_, congrArg Host.Outcome.next (request_ok hidle hw), ⟨rfl, rfl⟩, ?_⟩
  generalize closing (writeThetaMax v s) = u at hkept hceiling
  have hmap : u.map = (s.withTheta v).map := by
    rw [map_of_keptByLoop hkept]; split <;> rfl
  have hslots : u.keptByLoop.slots = s.kept.slots := by
    rw [hkept]; split <;> rfl
  refine ⟨hmap, fun hchanged => ?_, fun hsame => ?_, fun n l h1 h8 hl hfree => hceiling n h1 h8 l hl hfree,
    fun n x hx => sameBooking_of_slots hslots hx, ?_, ?_, ?_⟩
  · have hguard : (s.withTheta v).map.guard ≠ s.map.guard := hmap ▸ hchanged
    rw [if_neg hguard] at hkept
    exact (congrArg (fun k => k.desk.guard) hkept).trans (congrArg StratumMap.guard hmap).symm
  · have hguard : (s.withTheta v).map.guard = s.map.guard := hmap ▸ hsame
    rw [if_pos hguard] at hkept
    exact congrArg (fun k => k.desk.guard) hkept
  · refine (congrArg Kept.clock hkept).trans ?_
    split <;> rfl
  · refine (congrArg Kept.sanitise hkept).trans ?_
    split <;> rfl
  · refine (congrArg Kept.params hkept).trans ?_
    split <;> rfl

/-- Settles O16: each value in its cases, the work of a change by what it keeps, what it ends and what it gives. -/
theorem reserveLineAndThetaMaxAreSet : Obligations.ReserveLineAndThetaMaxAreSet := by
  constructor
  · intro s v hidle h2 h8 hne
    refine ⟨reserveLine_set hidle h2 h8 hne, fun lo hi => ?_, fun w hw => ?_⟩
    · exact equal_answered hidle (by rw [takeReserveLine_inRange lo hi, if_pos rfl])
    · exact congrArg Host.Outcome.next (request_refused hidle (takeReserveLine_badField hw) (by decide))
  · intro s v hidle h600 h950 hne
    refine ⟨thetaMax_set hidle h600 h950 hne, fun lo hi => ?_, fun w hw => ?_⟩
    · exact equal_answered hidle (by rw [takeThetaMax_inRange lo hi, if_pos rfl])
    · exact congrArg Host.Outcome.next (request_refused hidle (takeThetaMax_badField hw) (by decide))

end Sys2Proof.Machine

/-! The requests that only read: READ CLOCK, IDENTIFY PART and READ PARAMETER (§11.2). -/

namespace Sys2Proof.Machine

variable {s : State}

/-- A request that only reads is a query under its own code. -/
theorem exec_of_isReading {c : Instr} (hc : isReading c = true) (s : State) :
    ∃ code read, requestCode c = some code ∧ exec c s = .next (query code read s) := by
  cases c with
  | identifyPart => exact ⟨_, _, rfl, rfl⟩
  | readClock => exact ⟨_, _, rfl, rfl⟩
  | readParameter => exact ⟨_, _, rfl, rfl⟩
  | readStrata => exact ⟨_, _, rfl, rfl⟩
  | lookupReservation => exact ⟨_, _, rfl, rfl⟩
  | listReservations => exact ⟨_, _, rfl, rfl⟩
  | lookupLease => exact ⟨_, _, rfl, rfl⟩
  | listLeases => exact ⟨_, _, rfl, rfl⟩
  | readStation => exact ⟨_, _, rfl, rfl⟩
  | readSchedule => exact ⟨_, _, rfl, rfl⟩
  | readSolar => exact ⟨_, _, rfl, rfl⟩
  | _ => cases hc

theorem readParameter_of_some {n : Nat} {v : Int} (h : s.parameter? n = some v) :
    readParameter n s = (.ok, beSigned v) := by rw [readParameter, h]

theorem readParameter_of_none {n : Nat} (h : s.parameter? n = none) : readParameter n s = (.badField, []) := by
  rw [readParameter, h]

/-- The numbers that no parameter has (§11.2). -/
theorem parameter?_eq_none {n : Nat}
    (h : n = 0 ∨ (11 < n ∧ n < 16) ∨ (21 < n ∧ n < 32) ∨ (43 < n ∧ n < 48) ∨ 53 < n) : s.parameter? n = none := by
  unfold State.parameter?
  dsimp only
  split
  case h_36 => rfl
  all_goals omega

/-- Settles O5: every reading request is a query, which touches the port alone; the fields are those it reads. -/
theorem readingRequestsChangeOnlyThePort : Obligations.ReadingRequestsChangeOnlyThePort := by
  intro s hs
  refine ⟨fun c hc => ?_, congrArg _ (query_idle hs), congrArg _ ((query_idle hs).trans ?_), fun n v hv => ?_,
    fun n hn => ?_⟩
  · obtain ⟨code, read, hcode, hexec⟩ := exec_of_isReading hc s
    exact ⟨_, code, _, hcode, hexec.trans (congrArg _ (query_idle hs))⟩
  · rw [clockBytes, mark, List.append_assoc]
    rfl
  · refine congrArg _ ((query_idle hs).trans ?_)
    rw [readParameter_of_some hv]
    rfl
  · refine congrArg _ ((query_idle hs).trans ?_)
    rw [readParameter_of_none (parameter?_eq_none hn)]

end Sys2Proof.Machine

/-! A request that names a reservation or a lease: its handle resolved first, and the fields that LOOKUP and LIST answer
(§2.4, §4.11). -/

namespace Sys2Proof.Machine

variable {s t : State}

/-! ### Handles (R19, R61) -/

theorem resolveHandle_badField {size issue : Nat} {h : Handle} (occupied : Bool) (hs : h.slot < 1 ∨ size < h.slot) :
    resolveHandle size h issue occupied = .badField := if_pos hs

theorem resolveHandle_stale {size issue : Nat} {h : Handle} (occupied : Bool) (h1 : 1 ≤ h.slot)
    (hsize : h.slot ≤ size)
    (hi : h.issue ≠ issue) : resolveHandle size h issue occupied = .stale := by
  rw [resolveHandle, if_neg (by omega), if_pos hi]

theorem resolveHandle_current {size issue : Nat} {h : Handle} (occupied : Bool) (h1 : 1 ≤ h.slot)
    (hsize : h.slot ≤ size)
    (hi : h.issue = issue) : resolveHandle size h issue occupied = if occupied then .live else .noSuch := by
  rw [resolveHandle, if_neg (by omega), if_neg (not_not.mpr hi)]

/-- The three ways in which a handle may fail to name the occupant of one of `size` slots, with their answers. -/
theorem status_resolveHandle {α : Type} {size issue : Nat} {h : Handle} {occupant : Option α} {st : Status}
    (hf : ((h.slot < 1 ∨ size < h.slot) ∧ st = .badField) ∨
        (1 ≤ h.slot ∧ h.slot ≤ size ∧ h.issue ≠ issue ∧ st = .stale) ∨
        (1 ≤ h.slot ∧ h.slot ≤ size ∧ h.issue = issue ∧ occupant = none ∧ st = .noSuch)) :
    (resolveHandle size h issue occupant.isSome).status = some st ∧ st ≠ .ok := by
  rcases hf with ⟨hs, rfl⟩ | ⟨h1, hsize, hi, rfl⟩ | ⟨h1, hsize, hi, rfl, rfl⟩
  · rw [resolveHandle_badField _ hs]; exact ⟨rfl, by decide⟩
  · rw [resolveHandle_stale _ h1 hsize hi]; exact ⟨rfl, by decide⟩
  · rw [resolveHandle_current _ h1 hsize hi]; exact ⟨rfl, by decide⟩

theorem resolveReservation_live {h : Handle} {r : Reservation} (h1 : 1 ≤ h.slot) (h24 : h.slot ≤ 24)
    (hi : h.issue = (s.bookSlot h.slot).issue) (hr : s.record? h.slot = some r) : s.resolveReservation h = .live := by
  rw [State.resolveReservation, resolveHandle_current _ h1 h24 hi, hr]
  rfl

theorem resolveLease_live {h : Handle} {l : Lease} (h1 : 1 ≤ h.slot) (h8 : h.slot ≤ 8)
    (hi : h.issue = (s.leaseSlot h.slot).issue) (hl : s.lease? h.slot = some l) : s.resolveLease h = .live := by
  rw [State.resolveLease, resolveHandle_current _ h1 h8 hi, hl]
  rfl

/-! ### Requests on a reservation or a lease (R19, R61) -/

theorem withReservation_unresolved {h : Handle} {st : Status} (work : Reservation → State → Reply)
    (hst : (s.resolveReservation h).status = some st) : withReservation h work s = .no st s := by
  rw [withReservation, hst]

theorem withReservation_live {h : Handle} {r : Reservation} (work : Reservation → State → Reply)
    (hlive : s.resolveReservation h = .live) (hr : s.record? h.slot = some r) :
    withReservation h work s = work r s := by
  rw [withReservation, hlive, hr]
  rfl

theorem withLease_unresolved {h : Handle} {st : Status} (work : Lease → State → Reply)
    (hst : (s.resolveLease h).status = some st) : withLease h work s = .no st s := by
  rw [withLease, hst]

theorem lookupReservation_unresolved {h : Handle} {st : Status} (hst : (s.resolveReservation h).status = some st) :
    lookupReservation h s = (st, []) := by
  rw [lookupReservation, hst]

theorem lookupReservation_live {h : Handle} {r : Reservation} (hlive : s.resolveReservation h = .live)
    (hr : s.record? h.slot = some r) : lookupReservation h s = (.ok, recordBytes h r) := by
  rw [lookupReservation, hlive, hr]
  rfl

theorem lookupLease_unresolved {h : Handle} {st : Status} (hst : (s.resolveLease h).status = some st) :
    lookupLease h s = (st, []) := by
  rw [lookupLease, hst]

theorem lookupLease_live {h : Handle} {l : Lease} (hlive : s.resolveLease h = .live) (hl : s.lease? h.slot = some l) :
    lookupLease h s = (.ok, leaseBytes s h l) := by
  rw [lookupLease, hlive, hl]
  rfl

/-! ### The bytes of a record and of a lease (R29, R85) -/

theorem leaseField_eq : leaseField = fun h => [byte (16 * h.issue + h.slot)] := by
  funext h
  rw [leaseField, leaseByte_eq]

theorem contextBytes_eq :
    contextBytes = fun c =>
      [c.state.pos] ++ be16 c.rate ++ timerBytes (c.timer.getD 0) ++ sentOption 2 (c.hold.map be16) ++
        be32 c.freeMark ++ be32 c.deliveredMark := by
  funext c
  rw [contextBytes, optField_eq]

/-- The serve list is a field of a TOPUP lease alone (§4.2). -/
theorem map_serveBytes (l : Lease) :
    (if l.kind = .topUp then some l.serve else none).map serveBytes =
      if l.kind = .topUp then some (serveBytes l.serve) else none := by
  split <;> rfl

theorem placeIn_eq (h : Handle) (order : List Handle) :
    placeIn h order = (order.findIdx? (· == h)).elim 0 (· + 1) := by
  unfold placeIn
  cases order.findIdx? (· == h) <;> rfl

/-! ### Listing the occupied slots (R30, R85) -/

/-- The slots of a table in which something stands, each with what stands there, are the occupied slots. -/
theorem map_fst_occupied {α : Type} (occupant : Nat → Option α) (slots : List Nat) :
    (slots.filterMap fun n => (occupant n).map fun x => (n, x)).map (·.1) =
      slots.filter fun n => (occupant n).isSome := by
  induction slots with
  | nil => rfl
  | cons n slots ih => cases h : occupant n <;> simp [h, ih]

/-- The occupied slots of the book, ascending. -/
def State.bookedSlots (s : State) : List Nat := (countTo 24).filter fun n => (s.record? n).isSome

/-- The occupied slots of the lease table, ascending. -/
def State.leasedSlots (s : State) : List Nat := upTo8.filter fun n => (s.lease? n).isSome

theorem map_fst_records (s : State) : s.records.map (·.1) = s.bookedSlots := map_fst_occupied s.record? (countTo 24)

theorem map_fst_liveLeases (s : State) : s.liveLeases.map (·.1) = s.leasedSlots := map_fst_occupied s.lease? upTo8

theorem mem_countTo {n k : Nat} : k ∈ countTo n ↔ 1 ≤ k ∧ k ≤ n := by
  simp only [countTo, List.mem_map, List.mem_range]
  constructor
  · rintro ⟨j, hj, rfl⟩; omega
  · rintro ⟨h1, hn⟩; exact ⟨k - 1, by omega, by omega⟩

theorem pairwise_countTo (n : Nat) : (countTo n).Pairwise (· < ·) :=
  List.pairwise_lt_range.map _ fun _ _ h => Nat.add_lt_add_right h 1

theorem mem_bookedSlots {n : Nat} : n ∈ s.bookedSlots ↔ 1 ≤ n ∧ n ≤ 24 ∧ (s.record? n).isSome = true := by
  rw [State.bookedSlots, List.mem_filter, mem_countTo, and_assoc]

theorem mem_leasedSlots {n : Nat} : n ∈ s.leasedSlots ↔ 1 ≤ n ∧ n ≤ 8 ∧ (s.lease? n).isSome = true := by
  rw [State.leasedSlots, List.mem_filter, mem_upTo8, and_assoc]

theorem mem_liveLeases {p : Nat × Lease} (hp : p ∈ s.liveLeases) : s.lease? p.1 = some p.2 := by
  obtain ⟨n, -, hn⟩ := List.mem_filterMap.mp hp
  obtain ⟨l, hl, rfl⟩ := Option.map_eq_some_iff.mp hn
  exact hl

theorem bookBytes_eq (s : State) :
    bookBytes s =
      byte (24 - s.bookedSlots.length) :: s.bookedSlots.flatMap fun n =>
        [byte n, byte (s.bookSlot n).issue, ((s.record? n).map (·.state.pos)).getD 0#8] := by
  rw [bookBytes, ← map_fst_records, List.length_map, List.flatMap_map]
  refine congrArg _ (List.flatMap_congr fun p hp => ?_)
  rw [(mem_records.mp hp).2]
  rfl

theorem tableBytes_eq (s : State) :
    tableBytes s =
      byte (8 - s.leasedSlots.length) :: s.leasedSlots.flatMap fun n =>
        (s.lease? n).toList.flatMap fun l => [leaseByte (s.leaseHandle n), l.kind.pos, byte l.holder, l.state.pos] := by
  rw [tableBytes, ← map_fst_liveLeases, List.length_map, List.flatMap_map]
  refine congrArg _ (List.flatMap_congr fun p hp => ?_)
  rw [mem_liveLeases hp]
  simp

/-- Settles O8: a handle that names nothing live ends each request before its work; a live one gives the fields of the
record or the lease, and a list the occupied slots in the order in which they are searched. -/
theorem handlesAreResolvedFirst : Obligations.HandlesAreResolvedFirst := by
  unfold Obligations.HandlesAreResolvedFirst
  intro opt one flag lease
  have hopt : opt = sentOption := by
    funext w x
    cases x <;> rfl
  have hone : one = oneByte := rfl
  have hflag : flag = mark := rfl
  have hlease : lease = leaseField := leaseField_eq.symm
  clear_value opt one flag lease
  subst hopt hone hflag hlease
  refine ⟨⟨rfl, rfl, rfl, rfl, rfl⟩, fun s h hs => ⟨fun st hst => ?_, fun r h1 h24 hi hr => ?_, ?_⟩,
    fun s h hs => ⟨fun st hst => ?_, fun l h1 h8 hi hl => ?_, ?_⟩⟩
  · obtain ⟨hres, hne⟩ := status_resolveHandle hst
    refine ⟨fun x => ?_, ?_, ?_, ?_⟩
    · exact congrArg _ (request_refused hs (withReservation_unresolved _ hres) hne)
    · exact congrArg _ (request_refused hs (withReservation_unresolved _ hres) hne)
    · exact congrArg _ (request_refused hs (withReservation_unresolved _ hres) hne)
    · refine congrArg _ ((query_idle hs).trans ?_)
      rw [lookupReservation_unresolved hres]
  · refine congrArg _ ((query_idle hs).trans ?_)
    rw [lookupReservation_live (resolveReservation_live h1 h24 hi hr) hr]
    simp only [recordBytes, optField_eq]
    rfl
  · refine ⟨s.bookedSlots, (pairwise_countTo 24).filter _, fun n => mem_bookedSlots,
      List.length_filter_le _ (countTo 24), congrArg _ ((query_idle hs).trans ?_)⟩
    rw [bookBytes_eq]
  · obtain ⟨hres, hne⟩ := status_resolveHandle hst
    refine ⟨congrArg _ (request_refused hs (withLease_unresolved _ hres) hne), ?_⟩
    refine congrArg _ ((query_idle hs).trans ?_)
    rw [lookupLease_unresolved hres]
  · intro seconds
    refine congrArg _ ((query_idle hs).trans ?_)
    rw [lookupLease_live (resolveLease_live h1 h8 hi hl) hl]
    simp only [leaseBytes, optField_eq, contextBytes_eq, map_serveBytes, placeIn_eq]
    rfl
  · refine ⟨s.leasedSlots, List.Pairwise.filter _ (by decide), fun n => mem_leasedSlots,
      congrArg _ ((query_idle hs).trans ?_)⟩
    rw [tableBytes_eq]

end Sys2Proof.Machine

/-! The reservation book: its slots read and written, and the requests BOOK, AMEND and RELEASE, which change the book
and give a pass start (§2.1 to §2.4). -/

namespace Sys2Proof.Machine

variable {s t u : State}

/-! ### Reading a slot of the book after writing one -/

theorem bookSlot_of_book (h : t.book = s.book) (n : Nat) : t.bookSlot n = s.bookSlot n := by
  rw [State.bookSlot, State.bookSlot, h]

theorem record?_of_book (h : t.book = s.book) (n : Nat) : t.record? n = s.record? n :=
  congrArg BookSlot.record (bookSlot_of_book h n)

theorem bookSlot_setBookSlot_self {n : Nat} (hn : n - 1 < 24) (b : BookSlot) (s : State) :
    (s.setBookSlot n b).bookSlot n = b := tget_tset_self s.book.slots (n - 1) b .initial hn

theorem bookSlot_setBookSlot_ne {n m : Nat} (h : n - 1 ≠ m - 1) (b : BookSlot) (s : State) :
    (s.setBookSlot n b).bookSlot m = s.bookSlot m := tget_tset_ne s.book.slots (n - 1) (m - 1) b .initial h

/-- The slot of a changed record; a slot that no table has is free and stays so. -/
theorem bookSlot_modRecord (n : Nat) (f : Reservation → Reservation) (s : State) :
    (s.modRecord n f).bookSlot n = { s.bookSlot n with record := (s.record? n).map f } := by
  by_cases hn : n - 1 < 24
  · exact bookSlot_setBookSlot_self hn _ s
  · have hfree (u : State) : u.bookSlot n = .initial := tget_of_le _ _ _ (Nat.not_lt.mp hn)
    rw [hfree, State.record?, hfree]
    rfl

theorem record?_modRecord (n : Nat) (f : Reservation → Reservation) (s : State) :
    (s.modRecord n f).record? n = (s.record? n).map f := congrArg BookSlot.record (bookSlot_modRecord n f s)

theorem bookSlot_modRecord_ne {n m : Nat} (h : n - 1 ≠ m - 1) (f : Reservation → Reservation) (s : State) :
    (s.modRecord n f).bookSlot m = s.bookSlot m := bookSlot_setBookSlot_ne h _ s

theorem record?_modRecord_ne {n m : Nat} (h : n - 1 ≠ m - 1) (f : Reservation → Reservation) (s : State) :
    (s.modRecord n f).record? m = s.record? m := congrArg BookSlot.record (bookSlot_modRecord_ne h f s)

/-- The slot of a live handle is one of the 24, with the handle's issue. -/
theorem slot_of_resolved {h : Handle} (hlive : s.resolveReservation h = .live) :
    1 ≤ h.slot ∧ h.slot ≤ 24 ∧ h.issue = (s.bookSlot h.slot).issue := by
  unfold State.resolveReservation resolveHandle at hlive
  split at hlive
  · cases hlive
  · next hs =>
    split at hlive
    · cases hlive
    · next hi => exact ⟨by omega, by omega, not_not.mp hi⟩

/-- The lowest-numbered free slot is found (R18). -/
theorem freeBookSlot_eq_some {n : Nat} (h1 : 1 ≤ n) (h24 : n ≤ 24) (hfree : s.record? n = none)
    (hbelow : ∀ k, 1 ≤ k → k < n → s.record? k ≠ none) : s.freeBookSlot = some n := by
  refine find?_eq_of_pairwise (pairwise_countTo 24) (mem_countTo.mpr ⟨h1, h24⟩) (by rw [hfree]; rfl) ?_
  intro k hk hnone hlt
  exact hbelow k (mem_countTo.mp hk).1 hlt (Option.isNone_iff_eq_none.mp hnone)

theorem freeBookSlot_eq_none (hfull : ∀ n, 1 ≤ n → n ≤ 24 → s.record? n ≠ none) : s.freeBookSlot = none := by
  refine List.find?_eq_none.mpr fun n hn hnone => ?_
  obtain ⟨h1, h24⟩ := mem_countTo.mp hn
  exact hfull n h1 h24 (Option.isNone_iff_eq_none.mp hnone)

/-! ### A request that changes the book and gives a pass start -/

/-- Such a request leaves the book as its work left it, gives a pass start and does no more than closing outside the
book, coverage and the port. -/
theorem bookWork_answered {code : Byte} {fields : List Byte} {w : State}
    (hw : w = { s with book := w.book, coverage := w.coverage })
    (ht : t = (closing (passStart w)).answering code .ok fields) :
    s.answersOk t code fields ∧ t.book = w.book ∧ w.passStarted t ∧
      s.sameOutside t [.book, .coverage, .admission, .roster, .link, .port] ∧ s.sameTable t := by
  have hstart : w.passStarted t := ht ▸ passStarted_answered rfl
  have hu : passStart w = { s with book := w.book, coverage := (passStart w).coverage } := by
    rw [passStart_eq, hw]
    rfl
  rw [hu] at ht
  subst ht
  refine ⟨answersOk_answered rfl, (calm_eq_iff.mp (calm_closing _)).2.1, hstart,
    sameOutside_answered (by simp) ⟨fun b hb => ?_, rfl⟩, sameTable_answered rfl rfl rfl⟩
  cases b <;> first | rfl | simp at hb

/-! ### BOOK (R21 to R23) -/

theorem oneToSeven_iff {x : Option Nat} : oneToSeven x = true ↔ ∀ k, x = some k → 1 ≤ k ∧ k ≤ 7 := by
  cases x <;> simp [oneToSeven]

theorem dueOk_iff {day minute : Nat} : dueOk day minute = true ↔ day ≤ 65535 ∧ minute ≤ 1439 := by
  rw [dueOk, Bool.and_eq_true, decide_eq_true_iff, decide_eq_true_iff, Config.lastDay, Config.dayMinutes,
    Nat.lt_succ_iff]

theorem bookFault_unset {b : BookTerms} (hclock : s.clock.set = false) : s.bookFault b = some .clockUnset :=
  if_pos hclock

theorem bookFault_badField {b : BookTerms} (hclock : s.clock.set = true)
    (hbad : bookFieldsOk b = false ∨ s.map.cylinderVolume < b.volume ∨ dueOf b ≤ s.clock.now) :
    s.bookFault b = some .badField := by
  unfold State.bookFault
  rw [hclock, if_neg Bool.noConfusion]
  split
  · rfl
  · next hfields =>
    split
    · rfl
    · next hvolume => exact if_pos ((hbad.resolve_left hfields).resolve_left hvolume)

theorem bookFault_none {b : BookTerms} (hclock : s.clock.set = true) (hfields : bookFieldsOk b = true)
    (hvolume : b.volume ≤ s.map.cylinderVolume) (hdue : s.clock.now < dueOf b) : s.bookFault b = none := by
  unfold State.bookFault
  rw [hclock, hfields, if_neg Bool.noConfusion, if_neg Bool.noConfusion, if_neg (Nat.not_lt.mpr hvolume),
    if_neg (Nat.not_le.mpr hdue)]

theorem takeBook_refused {b : BookTerms} {st : Status} (h : s.bookFault b = some st) : takeBook b s = .no st s := by
  rw [takeBook, h]

theorem takeBook_full {b : BookTerms} (h : s.bookFault b = none) (hfull : s.freeBookSlot = none) :
    takeBook b s = .no .bookFull (starve s) := by
  rw [takeBook, h, hfull]

theorem takeBook_placed {b : BookTerms} {n : Nat} (h : s.bookFault b = none) (hfree : s.freeBookSlot = some n) :
    takeBook b s = .okWith (reservationBytes (s.bookHandle n))
      (passStart (s.setBookSlot n { s.bookSlot n with record := some (.booked b) })) := by
  rw [takeBook, h, hfree]

/-- A BOOK that is placed. -/
theorem book_placed {b : BookTerms} {n : Nat} (hidle : s.isWorking = false) (hfault : s.bookFault b = none) (h1 : 1 ≤ n)
    (h24 : n ≤ 24) (hfree : s.record? n = none) (hbelow : ∀ k, 1 ≤ k → k < n → s.record? k ≠ none) :
    ∃ t, exec (.book b) s = .next t ∧ s.answersOk t 0x10#8 [byte n, byte (s.bookSlot n).issue] ∧
      t.bookSlot n = { issue := (s.bookSlot n).issue, record := some (.booked b) } ∧
      (∀ k, 1 ≤ k → k ≤ 24 → k ≠ n → t.bookSlot k = s.bookSlot k) ∧ t.book.starved = s.book.starved ∧
      s.passStarted t ∧ s.sameOutside t [.book, .coverage, .admission, .roster, .link, .port] ∧ s.sameTable t := by
  have hplaced := takeBook_placed hfault (freeBookSlot_eq_some h1 h24 hfree hbelow)
  obtain ⟨hans, hbook, hstart, hout, htable⟩ := bookWork_answered (s := s) rfl (request_ok hidle hplaced)
  refine ⟨_, rfl, hans, ?_, fun k hk _ hkn => ?_, by rw [hbook]; rfl, hstart, hout, htable⟩
  · rw [bookSlot_of_book hbook, bookSlot_setBookSlot_self (by omega)]
  · rw [bookSlot_of_book hbook, bookSlot_setBookSlot_ne (by omega)]

/-- A BOOK against a full book is counted (R22). -/
theorem book_starved {b : BookTerms} (hidle : s.isWorking = false) (hfault : s.bookFault b = none)
    (hfull : s.freeBookSlot = none) :
    ∃ t, exec (.book b) s = .next t ∧ t.answersWith .bookFull 0x10#8 [] ∧ t.book.slots = s.book.slots ∧
      t.book.starved = (if s.book.starved < 65535 then s.book.starved + 1 else s.book.starved) ∧
      t.port.flags = s.port.flags ||| EventFlag.one .bookStarved ∧ s.sameOutside t [.book, .port] := by
  have htaken : request 0x10#8 (takeBook b) s = (starve s).answering 0x10#8 .bookFull [] := by
    rw [request_idle hidle, takeBook_full hfault hfull]
    rfl
  refine ⟨_, congrArg Host.Outcome.next htaken, ⟨rfl, rfl⟩, rfl, rfl, rfl, fun b hb => ?_, rfl⟩
  cases b <;> first | rfl | simp at hb

/-- Settles O17: the checks of R21 in their order, and behind them the search for a free slot. -/
theorem aBookingIsPlacedOrRefused : Obligations.ABookingIsPlacedOrRefused := by
  constructor
  · intro s b n hidle hclock hday hminute hvlo hvhi htlo hthi hllo hlhi hrep hpref hdue h1 h24 hfree hbelow
    have hfields : bookFieldsOk b = true := by
      simp only [bookFieldsOk, Bool.and_eq_true, volumeOk, thetaMinOk, leadOk, decide_eq_true_iff]
      exact ⟨⟨⟨⟨⟨dueOk_iff.mpr ⟨hday, hminute⟩, hvlo⟩, htlo, hthi⟩, hllo, hlhi⟩, oneToSeven_iff.mpr hrep⟩,
        oneToSeven_iff.mpr hpref⟩
    exact book_placed hidle (bookFault_none hclock hfields hvhi hdue) h1 h24 hfree hbelow
  · intro s b hidle
    refine ⟨fun hclock => ?_, fun hclock hbad => ?_, fun hclock hfields hvolume hdue hfull => ?_⟩
    · exact congrArg _ (request_refused hidle (takeBook_refused (bookFault_unset hclock)) (by decide))
    · exact congrArg _ (request_refused hidle (takeBook_refused (bookFault_badField hclock hbad)) (by decide))
    · exact book_starved hidle (bookFault_none hclock hfields hvolume hdue) (freeBookSlot_eq_none hfull)

/-! ### AMEND (R24 to R26) -/

/-- What the given fields of an AMEND must satisfy, field by field (R24). -/
theorem amendFieldsOk_iff {a : AmendTerms} : amendFieldsOk a = true ↔
    (∀ d m, a.due = some (d, m) → d ≤ 65535 ∧ m ≤ 1439) ∧ (∀ v, a.volume = some v → 10 ≤ v) ∧
      (∀ x, a.thetaMin = some x → 350 ≤ x ∧ x ≤ 700) ∧ (∀ k, a.lead = some k → 10 ≤ k ∧ k ≤ 360) ∧
      (∀ x, a.repeatDays = some x → oneToSeven x = true) ∧ (∀ x, a.preferred = some x → oneToSeven x = true) := by
  simp only [amendFieldsOk, Bool.and_eq_true, Option.all_eq_true, volumeOk, thetaMinOk, leadOk, decide_eq_true_iff,
    dueOk_iff, Prod.forall, and_assoc]

/-- A repeat interval or a preferred station given outside 1 to 7. -/
theorem not_oneToSeven {given : Option (Option Nat)} (h : ∃ k, given = some (some k) ∧ (k < 1 ∨ 7 < k)) :
    ¬∀ x, given = some x → oneToSeven x = true := by
  obtain ⟨k, hk, hout⟩ := h
  intro hall
  have := oneToSeven_iff.mp (hall _ hk) k rfl
  omega

theorem amendFault_wrongState {r : Reservation} (a : AmendTerms) (hopen : r.state.isOpen = false) :
    s.amendFault r a = some .wrongState := if_pos hopen

theorem amendFault_badField {r : Reservation} {a : AmendTerms} (hopen : r.state.isOpen = true)
    (hbad : amendFieldsOk a = false ∨ s.map.cylinderVolume < (amendedTerms a r.terms).volume ∨
      dueOf (amendedTerms a r.terms) ≤ s.clock.now) : s.amendFault r a = some .badField := by
  unfold State.amendFault
  rw [hopen, if_neg Bool.noConfusion]
  split
  · rfl
  · next hfields =>
    split
    · rfl
    · next hvolume => exact if_pos ((hbad.resolve_left hfields).resolve_left hvolume)

/-- The due that an AMEND results in, given or as it stood. -/
theorem dueOf_amendedTerms (a : AmendTerms) (b : BookTerms) :
    dueOf (amendedTerms a b) =
      (a.due.getD (b.dueDay, b.dueMinute)).1 * 1440 + (a.due.getD (b.dueDay, b.dueMinute)).2 := by
  unfold dueOf amendedTerms
  cases a.due <;> rfl

theorem amendRecord_refused {h : Handle} {a : AmendTerms} {r : Reservation} {st : Status}
    (hf : s.amendFault r a = some st) : amendRecord h a r s = .no st s := by
  rw [amendRecord, hf]

theorem amendRecord_same {h : Handle} {a : AmendTerms} {r : Reservation} (hf : s.amendFault r a = none)
    (hsame : amendedTerms a r.terms = r.terms) : amendRecord h a r s = .ok s := by
  rw [amendRecord, hf]
  exact if_pos hsame

/-- The part with a record amended and excepted from the pass in flight (R26, R31). -/
def State.withAmended (n : Nat) (a : AmendTerms) (s : State) : State :=
  exceptRecord n (s.modRecord n fun r => r.amended (amendedTerms a r.terms))

theorem amendRecord_changed {h : Handle} {a : AmendTerms} {r : Reservation} (hf : s.amendFault r a = none)
    (hne : amendedTerms a r.terms ≠ r.terms) :
    amendRecord h a r s = .ok (passStart (s.withAmended h.slot a)) := by
  rw [amendRecord, hf]
  exact if_neg hne

/-- The pass that a pass start after an exception leaves: a new one on the state that the request leaves, or the one in
flight with the record excepted, and a rerun pending (R31, R41). -/
theorem pass_of_passStarted {n : Nat} (h : (exceptRecord n u).passStarted t) (hmap : t.map = u.map) :
    (u.map.valid = true → u.coverage.pass = none → t.coverage.pass = some t.snapshot) ∧
      ∀ p, u.coverage.pass = some p →
        t.coverage.pass = some { p with excepted := n :: p.excepted } ∧
        (u.map.valid = true → t.coverage.rerun = true) := by
  have hpass : (exceptRecord n u).coverage.pass =
      u.coverage.pass.map fun p => { p with excepted := n :: p.excepted } := rfl
  unfold State.passStarted at h
  rw [hmap, hpass] at h
  refine ⟨fun hvalid hnone => ?_, fun p hp => ?_⟩
  · rw [if_pos hvalid, hnone] at h
    rw [h]
    rfl
  · rw [hp] at h hpass
    cases hvalid : u.map.valid with
    | true =>
      rw [hvalid, if_pos rfl] at h
      rw [h]
      exact ⟨hpass, fun _ => rfl⟩
    | false =>
      rw [hvalid, if_neg Bool.noConfusion] at h
      rw [h]
      exact ⟨hpass, Bool.noConfusion⟩

/-- An AMEND that changes a field. -/
theorem amend_changed {h : Handle} {a : AmendTerms} {r : Reservation} (hidle : s.isWorking = false)
    (hlive : s.resolveReservation h = .live) (hr : s.record? h.slot = some r) (hf : s.amendFault r a = none)
    (hne : amendedTerms a r.terms ≠ r.terms) :
    ∃ t, exec (.amend h a) s = .next t ∧ s.answersOk t 0x11#8 [] ∧
      t.bookSlot h.slot =
        { issue := (s.bookSlot h.slot).issue, record := some (r.amended (amendedTerms a r.terms)) } ∧
      (∀ k, 1 ≤ k → k ≤ 24 → k ≠ h.slot → t.bookSlot k = s.bookSlot k) ∧
      (s.map.valid = true → s.coverage.pass = none → t.coverage.pass = some t.snapshot) ∧
      (∀ p, s.coverage.pass = some p →
        t.coverage.pass = some { p with excepted := h.slot :: p.excepted } ∧
          (s.map.valid = true → t.coverage.rerun = true)) ∧
      s.sameOutside t [.book, .coverage, .admission, .roster, .link, .port] ∧ s.sameTable t := by
  obtain ⟨h1, -, -⟩ := slot_of_resolved hlive
  have hwork : withReservation h (amendRecord h a) s =
      .okWith [] (passStart (s.withAmended h.slot a)) :=
    (withReservation_live _ hlive hr).trans (amendRecord_changed hf hne)
  obtain ⟨hans, hbook, hstart, hout, htable⟩ := bookWork_answered (s := s) rfl (request_ok hidle hwork)
  have hslot (k : Nat) : (request 0x11#8 (withReservation h (amendRecord h a)) s).bookSlot k =
      (s.modRecord h.slot fun r => r.amended (amendedTerms a r.terms)).bookSlot k := bookSlot_of_book hbook k
  obtain ⟨hbegun, hrerun⟩ := pass_of_passStarted hstart (hout.1 .map (by simp))
  refine ⟨_, rfl, hans, ?_, fun k hk _ hkn => ?_, hbegun, hrerun, hout, htable⟩
  · rw [hslot, bookSlot_modRecord, hr]
    rfl
  · rw [hslot, bookSlot_modRecord_ne (by omega)]

/-- Settles O18: the checks of R24, an AMEND that finds nothing to change, and one that does. -/
theorem anAmendIsTaken : Obligations.AnAmendIsTaken := by
  refine ⟨?_, ?_, ?_⟩
  · intro s h a r hidle hlive hr repeats due
    have hrefused {st : Status} (hf : s.amendFault r a = some st) (hne : st ≠ .ok) :
        exec (.amend h a) s = .next (s.replies st 0x11#8 []) :=
      congrArg _ (request_refused hidle ((withReservation_live _ hlive hr).trans (amendRecord_refused hf)) hne)
    refine ⟨fun hopen => hrefused (amendFault_wrongState a hopen) (by decide), fun hopen hbad =>
      hrefused (amendFault_badField hopen ?_) (by decide)⟩
    have hfield := fun hno => Bool.eq_false_iff.mpr (mt (amendFieldsOk_iff (a := a)).mp hno)
    rcases hbad with ⟨d, m, hd, hout⟩ | ⟨v, hv, hout⟩ | ⟨x, hx, hout⟩ | ⟨k, hk, hout⟩ | hrep | hpref | hvolume | hdue
    · exact .inl (hfield fun ⟨h, _⟩ => by obtain ⟨hday, hminute⟩ := h d m hd; omega)
    · exact .inl (hfield fun ⟨_, h, _⟩ => by have := h v hv; omega)
    · exact .inl (hfield fun ⟨_, _, h, _⟩ => by obtain ⟨lo, hi⟩ := h x hx; exact hout.elim lo.not_gt hi.not_gt)
    · exact .inl (hfield fun ⟨_, _, _, h, _⟩ => by have := h k hk; omega)
    · exact .inl (hfield fun ⟨_, _, _, _, h, _⟩ => not_oneToSeven hrep h)
    · exact .inl (hfield fun ⟨_, _, _, _, _, h⟩ => not_oneToSeven hpref h)
    · exact .inr (.inl hvolume)
    · exact .inr (.inr (dueOf_amendedTerms a r.terms ▸ hdue))
  · intro s h a r hidle hlive hr hf hsame
    exact equal_answered hidle ((withReservation_live _ hlive hr).trans (amendRecord_same hf hsame))
  · intro s h a r hidle hlive hr hf hne
    obtain ⟨t, hexec, hans, hslot, hother, hbegun, hrerun, hout, htable⟩ := amend_changed hidle hlive hr hf hne
    refine ⟨t, _, hexec, hans, hslot, rfl, rfl, rfl, rfl, ?_, hother, hbegun, hrerun, ?_⟩
    · unfold Reservation.amended
      cases (amendedTerms a r.terms).repeatDays <;> rfl
    · unfold Reservation.amended amendedTerms
      refine ⟨fun e => by rw [e]; exact ⟨rfl, rfl⟩, fun d m e => by rw [e]; exact ⟨rfl, rfl⟩, fun v e => by rw [e]; rfl,
        fun e => by rw [e]; rfl, fun v e => by rw [e]; rfl, fun e => by rw [e]; rfl, fun v e => by rw [e]; rfl,
        fun e => by rw [e]; rfl, fun v e => by rw [e]; rfl, fun e => by rw [e]; rfl, fun v e => by rw [e]; rfl,
        fun e => by rw [e]; rfl, hout, htable⟩

/-! ### RELEASE (R28) -/

theorem releaseRecord_open {h : Handle} {r : Reservation} (hopen : r.state.isOpen = true) :
    releaseRecord h r s = .no .wrongState s := if_pos hopen

theorem releaseRecord_terminal {h : Handle} {r : Reservation} (hopen : r.state.isOpen = false) :
    releaseRecord h r s = .ok (passStart (freeBookSlotNo h.slot s)) :=
  if_neg (by rw [hopen]; exact Bool.noConfusion)

/-- A RELEASE of a terminal record. -/
theorem release_terminal {h : Handle} {r : Reservation} (hidle : s.isWorking = false)
    (hlive : s.resolveReservation h = .live) (hr : s.record? h.slot = some r) (hopen : r.state.isOpen = false) :
    ∃ t, exec (.release h) s = .next t ∧ s.answersOk t 0x13#8 [] ∧
      t.bookSlot h.slot = { issue := ((s.bookSlot h.slot).issue + 1) % 16, record := none } ∧
      (∀ k, 1 ≤ k → k ≤ 24 → k ≠ h.slot → t.bookSlot k = s.bookSlot k) ∧ s.passStarted t ∧
      s.sameOutside t [.book, .coverage, .admission, .roster, .link, .port] ∧ s.sameTable t := by
  obtain ⟨h1, h24, -⟩ := slot_of_resolved hlive
  have hwork : withReservation h (releaseRecord h) s = .okWith [] (passStart (freeBookSlotNo h.slot s)) :=
    (withReservation_live _ hlive hr).trans (releaseRecord_terminal hopen)
  obtain ⟨hans, hbook, hstart, hout, htable⟩ := bookWork_answered (s := s) rfl (request_ok hidle hwork)
  have hslot (k : Nat) : (request 0x13#8 (withReservation h (releaseRecord h)) s).bookSlot k =
      (freeBookSlotNo h.slot s).bookSlot k := bookSlot_of_book hbook k
  refine ⟨_, rfl, hans, ?_, fun k hk _ hkn => ?_, hstart, hout, htable⟩
  · rw [hslot, freeBookSlotNo, bookSlot_setBookSlot_self (by omega)]
  · rw [hslot, freeBookSlotNo, bookSlot_setBookSlot_ne (by omega)]

end Sys2Proof.Machine

/-! A record that is withdrawn, and a record at its due: what becomes of it, and what the end of its top-up link leaves
of
the others (§2.4 to §2.6). -/

namespace Sys2Proof.Machine

variable {n m : Nat} {s t : State}

/-! ### Top-up links (R32) -/

/-- The record in slot `n` has no top-up lease. -/
def State.unlinked (n : Nat) (s : State) : Prop := ∀ r, s.record? n = some r → r.topUp = none

theorem unlinked_of_book (h : t.book = s.book) (hs : s.unlinked n) : t.unlinked n := fun r hr =>
  hs r (record?_of_book h n ▸ hr)

/-- A record's link cleared, in this slot or in another. -/
theorem unlinked_clear (m : Nat) (hs : s.unlinked n) :
    (s.modRecord m fun r => { r with topUp := none }).unlinked n := by
  intro r hr
  by_cases hmn : m - 1 = n - 1
  · have hsame (u : State) : u.record? n = u.record? m := by
      rw [State.record?, State.record?, State.bookSlot, State.bookSlot, hmn]
    rw [hsame, record?_modRecord] at hr
    obtain ⟨r0, -, rfl⟩ := Option.map_eq_some_iff.mp hr
    rfl
  · rw [record?_modRecord_ne hmn] at hr
    exact hs r hr

theorem unlinked_clearTopUp (h : Handle) (hs : s.unlinked n) : (clearTopUp h s).unlinked n := by
  unfold clearTopUp; split
  · exact unlinked_clear h.slot hs
  · exact hs

theorem book_passStart (s : State) : (passStart s).book = s.book := by
  rw [passStart_eq]; rfl

theorem book_noteEligible (b s : State) : (noteEligible b s).book = s.book := by
  rw [noteEligible_eq]; rfl

theorem book_tellOwner (k : LeaseKind) (out : LeaseOutcome) (s : State) : (tellOwner k out s).book = s.book := by
  unfold tellOwner; repeat' split
  · exact raiseIf_book _ _ _
  all_goals rfl

/-- A retirement links no record (R84). -/
theorem unlinked_dismiss (m : Nat) (out : LeaseOutcome) (hs : s.unlinked n) : (dismiss m out s).unlinked n := by
  unfold dismiss; split
  · exact hs
  · next l _ =>
    have hserved : ∀ (l : List Handle) (u : State), u.unlinked n →
        (l.foldl (fun t r => passStart (clearTopUp r t)) u).unlinked n := by
      intro l
      induction l with
      | nil => exact fun _ h => h
      | cons r l ih => exact fun u hu => ih _ (unlinked_of_book (book_passStart _) (unlinked_clearTopUp r hu))
    refine unlinked_of_book ?_ (hserved l.serve s hs)
    rw [book_tellOwner, raise_book, book_noteEligible]
    rfl

theorem unlinked_beginEnding (m : Nat) (r : LeaseOutcome) (hs : s.unlinked n) : (beginEnding m r s).unlinked n := by
  unfold beginEnding; repeat' split
  · exact hs
  · exact hs
  · exact unlinked_dismiss m r hs
  · exact unlinked_of_book (calm_eq_iff.mp (calm_beginRevoking _ _ _ _)).2.1 hs

theorem unlinked_removeServed (l r : Handle) (hs : s.unlinked n) : (removeServed l r s).unlinked n := by
  unfold removeServed
  dsimp only
  repeat' split
  · exact hs
  · exact unlinked_beginEnding _ _ (unlinked_of_book rfl hs)
  · exact unlinked_of_book rfl hs

/-- The removal of a record's top-up link leaves it without one. -/
theorem unlinked_removeTopUp (n : Nat) (s : State) : (removeTopUp n s).unlinked n := by
  unfold removeTopUp
  split
  · next hnone =>
    intro r hr
    rw [hr] at hnone
    exact hnone
  · refine unlinked_removeServed _ _ fun r hr => ?_
    rw [record?_modRecord] at hr
    obtain ⟨r0, -, rfl⟩ := Option.map_eq_some_iff.mp hr
    rfl

theorem unlinked_leaveTopUp (n : Nat) (s : State) : (leaveTopUp n s).unlinked n := by
  unfold leaveTopUp
  split
  · next hnone =>
    intro r hr
    rw [hr] at hnone
    exact Option.isNone_iff_eq_none.mp hnone
  · exact unlinked_of_book (calm_eq_iff.mp (calm_afterRemovals _ _)).2.1 (unlinked_removeTopUp n s)

/-- The slots of the book stand but for the top-up links where the shared work is all that was done. -/
theorem bare_of_slots (hslots : t.kept.slots = s.kept.slots) (n : Nat) : (t.bookSlot n).bare = (s.bookSlot n).bare := by
  have := congrArg (tget · (n - 1) BookSlot.initial.bare) hslots
  simpa only [State.kept, tget_map, State.bookSlot] using this

/-- A slot whose record is left without a top-up lease is known by the rest of it. -/
theorem bookSlot_of_bare {b : BookSlot} {r : Reservation} (hbare : (t.bookSlot n).bare = b.bare)
    (hb : b.record = some r) (hlink : t.unlinked n) :
    t.bookSlot n = { issue := b.issue, record := some { r with topUp := none } } := by
  obtain ⟨issue, record⟩ := b
  obtain rfl : record = some r := hb
  have hissue : (t.bookSlot n).issue = issue := congrArg BookSlot.issue hbare
  have hrecord : (t.record? n).map Reservation.bare = some r.bare := congrArg BookSlot.record hbare
  obtain ⟨r', hr', hr'bare⟩ := Option.map_eq_some_iff.mp hrecord
  have hr'eq : r' = { r with topUp := none } := by
    rw [← (show r'.bare = { r with topUp := none } from hr'bare), Reservation.bare, ← hlink r' hr']
  rw [← hissue, ← hr'eq, ← hr']
  rfl

/-! ### WITHDRAW (R27, R32) -/

theorem withdrawRecord_terminal {h : Handle} {r : Reservation} (hopen : r.state.isOpen = false) :
    withdrawRecord h r s = .no .wrongState s := if_neg (by rw [hopen]; exact Bool.noConfusion)

/-- The part with a record withdrawn and excepted from the pass in flight. -/
def State.withWithdrawn (n : Nat) (s : State) : State :=
  exceptRecord n (s.modRecord n fun r => { r with state := .withdrawn })

theorem withdrawRecord_open {h : Handle} {r : Reservation} (hopen : r.state.isOpen = true) :
    withdrawRecord h r s = .ok (passStart (leaveTopUp h.slot (s.withWithdrawn h.slot))) := if_pos hopen

/-- A WITHDRAW of an open record. -/
theorem withdraw_open {h : Handle} {r : Reservation} (hidle : s.isWorking = false)
    (hlive : s.resolveReservation h = .live) (hr : s.record? h.slot = some r) (hopen : r.state.isOpen = true) :
    ∃ t, exec (.withdraw h) s = .next t ∧ t.answersWith .ok 0x12#8 [] ∧
      t.bookSlot h.slot =
        { issue := (s.bookSlot h.slot).issue, record := some { r with state := .withdrawn, topUp := none } } ∧
      (∀ k x, k ≠ h.slot → 1 ≤ k → s.record? k = some x → ∃ x', t.record? k = some x' ∧ sameBooking x x') ∧
      (s.map.valid = true → t.coverage.pass.isSome = true) ∧
      t.map = s.map ∧ t.clock = s.clock ∧ t.sanitise = s.sanitise ∧ t.solar.params = s.solar.params := by
  obtain ⟨h1, -, -⟩ := slot_of_resolved hlive
  have hwork : withReservation h (withdrawRecord h) s =
      .okWith [] (passStart (leaveTopUp h.slot (s.withWithdrawn h.slot))) :=
    (withReservation_live _ hlive hr).trans (withdrawRecord_open hopen)
  have hkept : (closing (passStart (leaveTopUp h.slot (s.withWithdrawn h.slot)))).kept =
      (s.withWithdrawn h.slot).kept := by
    rw [kept_closing, kept_passStart, kept_leaveTopUp]
  have hlink : (closing (passStart (leaveTopUp h.slot (s.withWithdrawn h.slot)))).unlinked h.slot :=
    unlinked_of_book ((calm_eq_iff.mp (calm_closing _)).2.1.trans (book_passStart _)) (unlinked_leaveTopUp _ _)
  have hpass : s.map.valid = true →
      (closing (passStart (leaveTopUp h.slot (s.withWithdrawn h.slot)))).coverage.pass.isSome = true := fun hvalid =>
    marked_closing (e := none) (passStart_inFlight
      ((congrArg StratumMap.valid (map_of_kept (kept_leaveTopUp _ _))).trans hvalid))
  refine ⟨_, congrArg Host.Outcome.next (request_ok hidle hwork), ⟨rfl, rfl⟩, ?_⟩
  generalize closing (passStart (leaveTopUp h.slot (s.withWithdrawn h.slot))) = u at hkept hlink hpass
  have hslots : u.kept.slots = (s.withWithdrawn h.slot).kept.slots := congrArg Kept.slots hkept
  have hslot : (s.withWithdrawn h.slot).bookSlot h.slot =
      { issue := (s.bookSlot h.slot).issue, record := some { r with state := .withdrawn } } :=
    (bookSlot_modRecord _ _ s).trans (by rw [hr]; rfl)
  refine ⟨?_, fun k x hk hk1 hx => ?_, hpass, map_of_kept hkept, congrArg Kept.clock hkept, sanitise_of_kept hkept,
    params_of_kept hkept⟩
  · exact (bookSlot_of_bare (bare_of_slots hslots h.slot) (congrArg BookSlot.record hslot) hlink).trans (by rw [hslot])
  · exact sameBooking_of_slots hslots ((record?_modRecord_ne (by omega) _ s).trans hx)

/-- Settles O19: the two requests on an open and on a terminal record. -/
theorem aRecordIsWithdrawnAndReleased : Obligations.ARecordIsWithdrawnAndReleased := by
  constructor
  · intro s h r hidle hlive hr
    refine ⟨fun hopen => ?_, withdraw_open hidle hlive hr⟩
    exact congrArg _
      (request_refused hidle ((withReservation_live _ hlive hr).trans (withdrawRecord_terminal hopen)) (by decide))
  · intro s h r hidle hlive hr
    refine ⟨fun hopen => ?_, release_terminal hidle hlive hr⟩
    exact congrArg _
      (request_refused hidle ((withReservation_live _ hlive hr).trans (releaseRecord_open hopen)) (by decide))

/-! ### A record at its due (R34 to R36) -/

theorem outcome_eq (r : Reservation) :
    r.outcome = { served := r.state == .covered, shortfall := r.endFigures.shortfall.getD 0, day := r.terms.dueDay } :=
  rfl

theorem state_ended (r : Reservation) : r.ended.state = if r.state = .covered then .served else .missed := by
  unfold Reservation.ended
  rw [outcome_eq]
  cases r.state <;> rfl

theorem afterDue_oneOff {now : Nat} {r : Reservation} (h : r.terms.repeatDays = none) : r.afterDue now = r.ended := by
  rw [Reservation.afterDue, h]

theorem afterDue_passedTheLastDay {now k : Nat} {r : Reservation} (h : r.terms.repeatDays = some k)
    (hlast : 65535 < rearmedDay now r.terms k) : r.afterDue now = { r.ended with last := some r.outcome } := by
  rw [Reservation.afterDue, h]
  exact if_pos hlast

theorem afterDue_rearmed {now k : Nat} {r : Reservation} (h : r.terms.repeatDays = some k)
    (hlast : rearmedDay now r.terms k ≤ 65535) : r.afterDue now = r.rearmed (rearmedDay now r.terms k) := by
  rw [Reservation.afterDue, h]
  exact if_neg (Nat.not_lt.mpr hlast)

/-- The due moved on by whole intervals is the first one later than now (R35). -/
theorem due_rearmedDay {now k : Nat} {b : BookTerms} (hdue : dueOf b ≤ now) (hk : 1 ≤ k) :
    now < rearmedDay now b k * 1440 + b.dueMinute ∧ rearmedDay now b k * 1440 + b.dueMinute ≤ now + k * 1440 := by
  have hpos : 0 < k * 1440 := by omega
  have hdm := Nat.div_add_mod (now - dueOf b) (k * 1440)
  have hlt := Nat.mod_lt (now - dueOf b) hpos
  have hday : rearmedDay now b k * 1440 + b.dueMinute =
      dueOf b + k * 1440 * ((now - dueOf b) / (k * 1440)) + k * 1440 := by
    unfold rearmedDay
    rw [dueOf, Config.dayMinutes]
    ring
  omega

/-- Settles O20: a record ends, is re-armed, or is left terminal where its next day would pass the last. -/
theorem aDueServesOrMisses : Obligations.ADueServesOrMisses := by
  intro now r hdue hopen r' figures
  have hfigures : figures = r.endFigures := rfl
  refine ⟨fun hone => ?_, fun k hrep hk => ?_⟩
  · rw [show r' = r.ended from afterDue_oneOff hone]
    exact ⟨rfl, rfl, rfl, rfl, state_ended r⟩
  · obtain ⟨hlater, hnext⟩ := due_rearmedDay hdue hk
    by_cases hlast : rearmedDay now r.terms k ≤ 65535
    · rw [show r' = r.rearmed (rearmedDay now r.terms k) from afterDue_rearmed hrep hlast]
      exact ⟨rfl, .inl ⟨rfl, rfl, hlast, hlater, hnext, rfl, _, rfl⟩⟩
    · rw [show r' = { r.ended with last := some r.outcome } from
        afterDue_passedTheLastDay hrep (Nat.not_le.mp hlast)]
      exact ⟨rfl, .inr ⟨rfl, rfl, state_ended r, _, Nat.not_le.mp hlast, hnext⟩⟩

end Sys2Proof.Machine

/-! The clock's events: the dues they bring, each open record that is due processed once (§2.6, §10.1). -/

namespace Sys2Proof.Machine

variable {n : Nat} {s t u : State}

/-! ### The daily attempt (R171) -/

theorem kept_openSanitise (i : Nat) (s : State) : (openSanitise i s).kept = s.kept := by
  unfold openSanitise; repeat' split
  · rfl
  · next e => exact kept_openOffered e
  · rfl

theorem kept_attempt (s : State) : (attempt s).kept = s.kept := by
  unfold attempt; repeat' split
  · rfl
  · rfl
  · rfl
  · exact kept_openSanitise _ s

/-- The daily attempt sets its mark and keeps the rest. -/
theorem kept_tryAttempt (s : State) : (tryAttempt s).kept = { s.kept with sanitise := (tryAttempt s).sanitise } := by
  unfold tryAttempt
  split
  · have hkept := kept_attempt (s.modSanitise fun m => { m with attempted := true })
    have hsanitise := sanitise_of_kept hkept
    rw [hkept, hsanitise]
    rfl
  · rfl

/-- At another minute than the start minute there is no attempt. -/
theorem tryAttempt_otherMinute (h : s.sanitise.startMinute ≠ s.clock.minute) : tryAttempt s = s :=
  if_neg fun hnow => h hnow.1.symm

/-! ### The records that are due (R33) -/

theorem mem_slotsDue :
    n ∈ s.slotsDue ↔
      (1 ≤ n ∧ n ≤ 24) ∧ ∃ r, s.record? n = some r ∧ r.state.isOpen = true ∧ dueOf r.terms ≤ s.clock.now := by
  have hopen (p : Nat × Reservation) : p ∈ s.openByDue ↔ p ∈ s.records ∧ p.2.state.isOpen = true :=
    (perm_sortBy _ _).mem_iff.trans List.mem_filter
  simp only [State.slotsDue, List.mem_map, List.mem_filter, hopen, decide_eq_true_iff]
  constructor
  · rintro ⟨⟨m, r⟩, ⟨⟨hrec, ho⟩, hdue⟩, rfl⟩
    obtain ⟨hm, hr⟩ := mem_records.mp hrec
    exact ⟨hm, r, hr, ho, hdue⟩
  · rintro ⟨hn, r, hr, ho, hdue⟩
    exact ⟨(n, r), ⟨⟨mem_records.mpr ⟨hn, hr⟩, ho⟩, hdue⟩, rfl⟩

/-- Each record that is due is processed once. -/
theorem nodup_slotsDue (s : State) : s.slotsDue.Nodup := by
  have hopen : (s.openByDue.map (·.1)).Nodup := by
    have hperm : (s.openByDue.map (·.1)).Perm ((s.records.filter fun p => p.2.state.isOpen).map (·.1)) :=
      (perm_sortBy _ _).map _
    have hsub : ((s.records.filter fun p => p.2.state.isOpen).map (·.1)).Sublist (countTo 24) :=
      (List.filter_sublist.map _).trans (slots_records s)
    exact hperm.nodup_iff.mpr (hsub.nodup (by decide))
  exact (List.filter_sublist.map _).nodup hopen

/-- What becomes of a record at its due does not hang on its top-up link. -/
theorem bare_afterDue (now : Nat) (r : Reservation) : (r.afterDue now).bare = r.bare.afterDue now := by
  unfold Reservation.afterDue
  rw [show r.bare.terms = r.terms from rfl]
  split
  · rfl
  · dsimp only
    split <;> rfl

/-! ### One due processed -/

/-- What due processing keeps: all that the shared work does, but the book. -/
def State.keptByDues (s : State) : Kept := { s.kept with slots := Vector.replicate 24 .initial }

theorem keptByDues_of_kept (h : t.kept = s.kept) : t.keptByDues = s.keptByDues := by
  rw [State.keptByDues, State.keptByDues, h]

theorem keptByDues_processDue (s : State) (n : Nat) : (processDue s n).keptByDues = s.keptByDues := by
  unfold processDue
  split
  · rfl
  · refine (keptByDues_of_kept (s := s.modRecord n fun r => r.afterDue s.clock.now) ?_).trans rfl
    rw [kept_passStart, kept_removeTopUp, kept_raise, kept_exceptRecord]

theorem clock_processDue (s : State) (n : Nat) : (processDue s n).clock = s.clock :=
  congrArg Kept.clock (keptByDues_processDue s n)

/-- A due leaves its record as `afterDue` says, but for the top-up link. -/
theorem record?_processDue (n : Nat) (s : State) :
    ((processDue s n).record? n).map Reservation.bare = (s.record? n).map fun r => r.bare.afterDue s.clock.now := by
  unfold processDue
  split
  · next hnone => rw [hnone]; rfl
  · have hkept : ∀ (e : EventFlag) (u : State), (passStart (removeTopUp n (u.raise e))).kept = u.kept := fun e u => by
      rw [kept_passStart, kept_removeTopUp, kept_raise]
    rw [record?_of_kept (hkept _ _), exceptRecord, record?_of_book (modCoverage_book _ _), record?_modRecord,
      Option.map_map]
    exact congrArg (Option.map · _) (funext fun r => bare_afterDue _ r)

theorem record?_processDue_ne {m : Nat} (h : n - 1 ≠ m - 1) (s : State) :
    ((processDue s n).record? m).map Reservation.bare = (s.record? m).map Reservation.bare := by
  unfold processDue
  split
  · rfl
  · have hkept : ∀ (e : EventFlag) (u : State), (passStart (removeTopUp n (u.raise e))).kept = u.kept := fun e u => by
      rw [kept_passStart, kept_removeTopUp, kept_raise]
    rw [record?_of_kept (hkept _ _), exceptRecord, record?_of_book (modCoverage_book _ _), record?_modRecord_ne h]

/-- SERVED or MISSED is set. -/
def State.endFlagged (s : State) : Prop := s.flagged .served = true ∨ s.flagged .missed = true

/-- Work that leaves raised what is raised leaves SERVED or MISSED set. -/
theorem endFlagged_of_marked (hm : ∀ f, s.marked (some f) → t.marked (some f)) (h : s.endFlagged) : t.endFlagged :=
  h.imp (hm _) (hm _)

theorem endFlagged_processDue {r : Reservation} (hr : s.record? n = some r) : (processDue s n).endFlagged := by
  have hraised (f : EventFlag) (u : State) : (passStart (removeTopUp n (u.raise f))).flagged f = true :=
    marked_passStart (e := some f) (marked_removeTopUp n (raised f))
  unfold processDue
  rw [hr]
  dsimp only
  cases r.outcome.served
  · exact .inr (hraised _ _)
  · exact .inl (hraised _ _)

/-! ### All dues processed -/

/-- Processing a list of slots, each once, does to the record of each what its due does, and nothing to the others. -/
theorem record?_foldl_processDue {slots : List Nat} (hnodup : slots.Nodup) (hpos : ∀ m ∈ slots, 1 ≤ m) (hn : 1 ≤ n)
    (s : State) :
    ((slots.foldl processDue s).record? n).map Reservation.bare =
      (s.record? n).map fun r => if n ∈ slots then r.bare.afterDue s.clock.now else r.bare := by
  induction slots generalizing s with
  | nil => simp only [List.foldl_nil, List.not_mem_nil, if_false]
  | cons m slots ih =>
    obtain ⟨hm, hnodup⟩ := List.nodup_cons.mp hnodup
    have hm1 := hpos m List.mem_cons_self
    rw [List.foldl_cons, ih hnodup fun k hk => hpos k (List.mem_cons_of_mem m hk)]
    by_cases hmn : n = m
    · subst hmn
      have hdue := record?_processDue n s
      simp only [hm, if_false, List.mem_cons_self, if_true]
      exact hdue
    · have hsame := record?_processDue_ne (n := m) (m := n) (by omega) s
      simp only [List.mem_cons, hmn, false_or, clock_processDue]
      split
      · have hdue := congrArg (Option.map fun r => r.afterDue s.clock.now) hsame
        rw [Option.map_map, Option.map_map] at hdue
        exact hdue
      · exact hsame

theorem endFlagged_foldl_processDue {slots : List Nat} (hn : n ∈ slots) {r : Reservation} (hr : s.record? n = some r)
    (hnodup : slots.Nodup) (hpos : ∀ m ∈ slots, 1 ≤ m) : (slots.foldl processDue s).endFlagged := by
  obtain ⟨before, after, rfl⟩ := List.append_of_mem hn
  obtain ⟨hbefore, -, hdisjoint⟩ := List.nodup_append.mp hnodup
  have hsame := record?_foldl_processDue hbefore (fun m hm => hpos m (by simp [hm])) (hpos n hn) s
  rw [hr, Option.map_some] at hsame
  obtain ⟨r', hr', -⟩ := Option.map_eq_some_iff.mp hsame
  rw [List.foldl_append, List.foldl_cons]
  exact endFlagged_of_marked (fun f => foldl_marked _ (fun _ m h => marked_processDue m h) _ _)
    (endFlagged_processDue hr')

/-- Due processing keeps all but the book, the lease table and what hangs on it. -/
theorem keptByDues_processDues (s : State) : (processDues s).keptByDues = s.keptByDues := by
  unfold processDues
  split
  · rfl
  · exact (keptByDues_of_kept (kept_afterRemovals _ _)).trans
      (foldl_keeps State.keptByDues _ keptByDues_processDue _ s)

/-- Due processing does to each record that is due what its due does, and nothing to the others (R33). -/
theorem record?_processDues (hn : 1 ≤ n) (s : State) :
    ((processDues s).record? n).map Reservation.bare =
      (s.record? n).map fun r => if n ∈ s.slotsDue then r.bare.afterDue s.clock.now else r.bare := by
  have hfold := record?_foldl_processDue (nodup_slotsDue s) (fun m hm => (mem_slotsDue.mp hm).1.1) hn s
  unfold processDues
  split
  · next hnone => rw [List.isEmpty_iff.mp hnone] at hfold ⊢; exact hfold
  · rw [record?_of_kept (kept_afterRemovals _ _)]; exact hfold

theorem endFlagged_processDues (hn : n ∈ s.slotsDue) : (processDues s).endFlagged := by
  obtain ⟨-, r, hr, -⟩ := mem_slotsDue.mp hn
  unfold processDues
  rw [if_neg fun h => by rw [List.isEmpty_iff.mp h] at hn; cases hn]
  exact endFlagged_of_marked (fun f => marked_afterRemovals s) (endFlagged_foldl_processDue hn hr (nodup_slotsDue s)
    fun m hm => (mem_slotsDue.mp hm).1.1)

/-! ### A clock event -/

/-- What a clock event does to the book, by the clock before and after it, with the monitor's mark (R33, R168). -/
def State.duesDone (s t : State) : Prop :=
  t.map = s.map ∧ t.solar.params = s.solar.params ∧
    (∀ n r, 1 ≤ n → n ≤ 24 → s.record? n = some r → ∃ r', t.record? n = some r' ∧
      if s.clock.now < t.clock.now ∧ r.state.isOpen = true ∧ dueOf r.terms ≤ t.clock.now then
        sameBooking (r.afterDue t.clock.now) r' ∧ (t.flagged .served = true ∨ t.flagged .missed = true)
      else sameBooking r r') ∧
    (t.clock.day ≠ s.clock.day → s.sanitise.startMinute ≠ t.clock.minute → t.sanitise.attempted = false)

/-- A day change touches the monitor alone. -/
theorem takeDayChange_eq (b s : State) : takeDayChange b s = s.modSanitise fun _ => (takeDayChange b s).sanitise := by
  unfold takeDayChange; split <;> rfl

theorem attempted_takeDayChange (h : s.clock.day ≠ u.clock.day) : (takeDayChange u s).sanitise.attempted = false := by
  rw [takeDayChange, if_neg h]
  rfl

theorem startMinute_takeDayChange (b s : State) :
    (takeDayChange b s).sanitise.startMinute = s.sanitise.startMinute := by
  unfold takeDayChange; split <;> rfl

/-- The part with its clock set, before the clock event runs its course. -/
def State.setTo (c : Clock) (s : State) : State := { s with clock := c }

/-- The state of a clock event with its day change taken: the book as it was, the clock as it is set. -/
def State.withClock (c : Clock) (s : State) : State := takeDayChange s (s.setTo c)

theorem withClock_eq (c : Clock) (s : State) :
    s.withClock c = (s.setTo c).modSanitise fun _ => (s.withClock c).sanitise := takeDayChange_eq s _

theorem record?_withClock (c : Clock) (s : State) (n : Nat) : (s.withClock c).record? n = s.record? n :=
  record?_of_book (by rw [withClock_eq]; rfl) n

theorem clock_withClock (c : Clock) (s : State) : (s.withClock c).clock = c := by rw [withClock_eq]; rfl

/-- The state of a clock event before the overlap test, the recool window and the daily attempt: the day change taken
and, where the clock went forward, the dues processed. -/
def State.withDues (c : Clock) (s : State) : State :=
  if s.clock.now < c.now then processDues (s.withClock c) else s.withClock c

theorem clockEvent_eq (c : Clock) (s : State) :
    clockEvent s (s.setTo c) = tryAttempt (checkRecoolWindow (testOverlap (s.withDues c))) := rfl

theorem keptByDues_withDues (c : Clock) (s : State) : (s.withDues c).keptByDues = (s.withClock c).keptByDues := by
  unfold State.withDues
  split
  · exact keptByDues_processDues _
  · rfl

theorem kept_clockEvent (c : Clock) (s : State) :
    (clockEvent s (s.setTo c)).kept =
      { (s.withDues c).kept with sanitise := (clockEvent s (s.setTo c)).sanitise } := by
  rw [clockEvent_eq, kept_tryAttempt, kept_checkRecoolWindow, kept_testOverlap]

/-- What a clock event keeps: what due processing does, but the monitor and the clock. -/
def State.keptByClock (s : State) : Kept := { s.keptByDues with sanitise := .initial, clock := .initial }

theorem same_of_keptByClock (h : t.keptByClock = s.keptByClock) :
    t.map = s.map ∧ t.solar.params = s.solar.params ∧ t.port.state = s.port.state :=
  ⟨congrArg Kept.map h, congrArg Kept.params h, congrArg Kept.portState h⟩

theorem keptByClock_clockEvent (c : Clock) (s : State) : (clockEvent s (s.setTo c)).keptByClock = s.keptByClock := by
  have hdues := keptByDues_withDues c s
  rw [withClock_eq] at hdues
  rw [State.keptByClock, State.keptByDues, kept_clockEvent]
  exact congrArg (fun k : Kept => { k with sanitise := .initial, clock := .initial }) hdues

theorem clock_clockEvent (c : Clock) (s : State) : (clockEvent s (s.setTo c)).clock = c := by
  have hclock : (clockEvent s (s.setTo c)).clock = (s.withDues c).clock := congrArg Kept.clock (kept_clockEvent c s)
  have hdues : (s.withDues c).clock = (s.withClock c).clock := congrArg Kept.clock (keptByDues_withDues c s)
  exact hclock.trans (hdues.trans (clock_withClock c s))

/-- The record in slot `n` is open and due at a clock. -/
theorem mem_slotsDue_withClock {c : Clock} {r : Reservation} (h1 : 1 ≤ n) (h24 : n ≤ 24) (hr : s.record? n = some r) :
    n ∈ (s.withClock c).slotsDue ↔ r.state.isOpen = true ∧ dueOf r.terms ≤ c.now := by
  rw [mem_slotsDue, record?_withClock, clock_withClock, hr]
  simp [h1, h24]

theorem record?_clockEvent (c : Clock) (s : State) (n : Nat) :
    ((clockEvent s (s.setTo c)).record? n).map Reservation.bare =
      ((s.withDues c).record? n).map Reservation.bare := by
  refine record?_of_slots ?_ n
  rw [kept_clockEvent]

/-- A clock event that brings a record's due does to it what its due does. -/
theorem record?_clockEvent_due {c : Clock} {r : Reservation} (hr : s.record? n = some r) (hnow : s.clock.now < c.now)
    (hn : n ∈ (s.withClock c).slotsDue) :
    ∃ r', (clockEvent s (s.setTo c)).record? n = some r' ∧ sameBooking (r.afterDue c.now) r' := by
  have hdone := record?_processDues (mem_slotsDue.mp hn).1.1 (s.withClock c)
  rw [record?_withClock, hr, clock_withClock, Option.map_some, if_pos hn, ← bare_afterDue] at hdone
  have hrec := record?_clockEvent c s n
  rw [State.withDues, if_pos hnow, hdone] at hrec
  obtain ⟨r', hr', hbare⟩ := Option.map_eq_some_iff.mp hrec
  exact ⟨r', hr', sameBooking_of_bare hbare⟩

/-- Every other record stands but for its top-up link. -/
theorem record?_clockEvent_notDue {c : Clock} {r : Reservation} (h1 : 1 ≤ n) (hr : s.record? n = some r)
    (hn : ¬(s.clock.now < c.now ∧ n ∈ (s.withClock c).slotsDue)) :
    ∃ r', (clockEvent s (s.setTo c)).record? n = some r' ∧ sameBooking r r' := by
  have hdone := record?_processDues h1 (s.withClock c)
  have hrec := record?_clockEvent c s n
  rw [State.withDues] at hrec
  have hsame : ((clockEvent s (s.setTo c)).record? n).map Reservation.bare = some r.bare := by
    rw [hrec]
    split
    · next hnow =>
      rw [hdone, record?_withClock, hr, Option.map_some, if_neg fun h => hn ⟨hnow, h⟩]
    · rw [record?_withClock, hr]; rfl
  obtain ⟨r', hr', hbare⟩ := Option.map_eq_some_iff.mp hsame
  exact ⟨r', hr', sameBooking_of_bare hbare⟩

theorem endFlagged_clockEvent {c : Clock} (hnow : s.clock.now < c.now) (hn : n ∈ (s.withClock c).slotsDue) :
    (clockEvent s (s.setTo c)).endFlagged := by
  have hdone : (s.withDues c).endFlagged := by
    rw [State.withDues, if_pos hnow]
    exact endFlagged_processDues hn
  exact endFlagged_of_marked
    (fun _ h => marked_tryAttempt (marked_checkRecoolWindow (marked_testOverlap h))) hdone

/-- A new day finds the mark of the attempt cleared, unless its first minute is the start minute (R168, R171). -/
theorem attempted_clockEvent {c : Clock} (hday : c.day ≠ s.clock.day) (hminute : s.sanitise.startMinute ≠ c.minute) :
    (clockEvent s (s.setTo c)).sanitise.attempted = false := by
  have hkept : (checkRecoolWindow (testOverlap (s.withDues c))).keptByDues =
      (s.withClock c).keptByDues := by
    rw [keptByDues_of_kept (kept_checkRecoolWindow _), keptByDues_of_kept (kept_testOverlap _), keptByDues_withDues]
  rw [clockEvent_eq]
  generalize checkRecoolWindow (testOverlap (s.withDues c)) = u at hkept ⊢
  have hsanitise : u.sanitise = (s.withClock c).sanitise := congrArg Kept.sanitise hkept
  have hclock : u.clock = c := (congrArg Kept.clock hkept).trans (clock_withClock c s)
  have hother : u.sanitise.startMinute ≠ u.clock.minute := by
    rw [hsanitise, hclock, State.withClock, startMinute_takeDayChange]
    exact hminute
  rw [tryAttempt_otherMinute hother, hsanitise]
  exact attempted_takeDayChange hday

/-- The clock event as the clock is set to `c`. -/
theorem duesDone_clockEvent (c : Clock) (s : State) : s.duesDone (clockEvent s (s.setTo c)) := by
  obtain ⟨hmap, hparams, -⟩ := same_of_keptByClock (keptByClock_clockEvent c s)
  refine ⟨hmap, hparams, fun n r h1 h24 hr => ?_, ?_⟩
  · have hdue := mem_slotsDue_withClock (c := c) h1 h24 hr
    rw [clock_clockEvent]
    by_cases hbrought : s.clock.now < c.now ∧ r.state.isOpen = true ∧ dueOf r.terms ≤ c.now
    · simp only [if_pos hbrought]
      obtain ⟨hnow, hopen⟩ := hbrought
      obtain ⟨r', hr', hbooking⟩ := record?_clockEvent_due hr hnow (hdue.mpr hopen)
      exact ⟨r', hr', hbooking, endFlagged_clockEvent hnow (hdue.mpr hopen)⟩
    · simp only [if_neg hbrought]
      exact record?_clockEvent_notDue h1 hr fun ⟨hnow, hn⟩ => hbrought ⟨hnow, hdue.mp hn⟩
  · rw [clock_clockEvent]
    exact attempted_clockEvent

/-- What a clock event did is read off the map, the loop, the book, the clock, the monitor and the flags. -/
theorem duesDone_of_eq (hmap : u.map = t.map) (hbook : u.book = t.book) (hsol : u.solar = t.solar)
    (hsan : u.sanitise = t.sanitise) (hclk : u.clock = t.clock) (hflags : u.port.flags = t.port.flags)
    (h : s.duesDone t) : s.duesDone u := by
  have hrec (n : Nat) := record?_of_book hbook n
  have hflag (f : EventFlag) : u.flagged f = t.flagged f := by rw [State.flagged, State.flagged, hflags]
  unfold State.duesDone at h ⊢
  simpa only [hmap, hsol, hsan, hclk, hrec, hflag] using h

theorem duesDone_closing (h : s.duesDone t) : s.duesDone (closing t) := by
  obtain ⟨hmap, hbook, -, -, -, hsol, hsan, hclk, hport, -⟩ := calm_eq_iff.mp (calm_closing t)
  exact duesDone_of_eq hmap hbook hsol hsan hclk (congrArg Port.flags hport) h

theorem duesDone_answering {code : Byte} {st : Status} {fields : List Byte} (h : s.duesDone t) :
    s.duesDone (t.answering code st fields) := duesDone_of_eq rfl rfl rfl rfl rfl rfl h

theorem answersWith_answering (code : Byte) (st : Status) (fields : List Byte) (s : State) :
    (s.answering code st fields).answersWith st code fields := ⟨rfl, rfl⟩

/-! ### SET CLOCK and the advance to a new minute -/

theorem takeSetClock_badField {day minute : Nat} (h : 65535 < day ∨ 1439 < minute) :
    takeSetClock day minute s = .no .badField s := if_pos h

theorem takeSetClock_inRange {day minute : Nat} (hd : day ≤ 65535) (hm : minute ≤ 1439) :
    takeSetClock day minute s =
      .ok (clockEvent s (s.setTo { set := true, day := day, minute := minute, second := 0 })) :=
  if_neg (by rw [Config.lastDay, Config.dayMinutes]; omega)

theorem setClock_inRange {day minute : Nat} (hidle : s.isWorking = false) (hd : day ≤ 65535) (hm : minute ≤ 1439) :
    ∃ t, exec (.setClock day minute) s = .next t ∧ t.answersWith .ok 0x02#8 [] ∧
      t.clock = { set := true, day := day, minute := minute, second := 0 } ∧ s.duesDone t := by
  have hw : takeSetClock day minute s = .okWith [] _ := takeSetClock_inRange hd hm
  refine ⟨_, congrArg Host.Outcome.next (request_ok hidle hw), answersWith_answering _ _ _ _, ?_⟩
  have hdone := duesDone_closing (duesDone_clockEvent { set := true, day := day, minute := minute, second := 0 } s)
  have hclk := clock_clockEvent { set := true, day := day, minute := minute, second := 0 } s
  generalize clockEvent s (s.setTo { set := true, day := day, minute := minute, second := 0 }) = u at hdone hclk ⊢
  obtain ⟨-, -, -, -, -, -, -, hclosed, -⟩ := calm_eq_iff.mp (calm_closing u)
  exact ⟨hclosed.trans hclk, duesDone_answering hdone⟩

theorem atEnd_iff {c : Clock} : c.atEnd = true ↔ c.day = 65535 ∧ c.minute = 1439 := by
  simp only [Clock.atEnd, Config.lastDay, Config.dayMinutes, Bool.and_eq_true, beq_iff_eq]

/-- The next minute is one minute later, on the minute (R168). -/
theorem nextMinute_spec {c : Clock} (hc : c.minute < 1440) :
    c.nextMinute.now = c.now + 1 ∧ c.nextMinute.minute < 1440 ∧ c.nextMinute.second = 0 ∧ c.nextMinute.set = c.set := by
  unfold Clock.nextMinute Clock.now
  rw [Config.dayMinutes]
  split
  · next h => exact ⟨by dsimp only; omega, h, rfl, rfl⟩
  · next h => exact ⟨by dsimp only; omega, Nat.zero_lt_succ _, rfl, rfl⟩

theorem advanceMinute_of_running (hset : s.clock.set = true) (hend : s.clock.atEnd = false) :
    advanceMinute s = closing (clockEvent s (s.setTo s.clock.nextMinute)) := if_pos ⟨hset, hend⟩

theorem advanceMinute_of_standing (h : s.clock.set = false ∨ s.clock.atEnd = true) : advanceMinute s = s := by
  refine if_neg ?_
  rintro ⟨hset, hend⟩
  rw [hset, hend] at h
  exact h.elim Bool.noConfusion Bool.noConfusion

theorem minute_advanced (hc : s.clock.minute < 1440) (hset : s.clock.set = true) (hend : s.clock.atEnd = false) :
    ∃ t, exec .clockMinuteAdvance s = .next t ∧ t.clock.now = s.clock.now + 1 ∧ t.clock.minute < 1440 ∧
      t.clock.second = 0 ∧ t.clock.set = true ∧ t.port.state = s.port.state ∧ s.duesDone t := by
  obtain ⟨hnow, hminute, hsecond, hstill⟩ := nextMinute_spec hc
  refine ⟨_, congrArg Host.Outcome.next (advanceMinute_of_running hset hend), ?_⟩
  obtain ⟨-, -, -, -, -, -, -, hclk, hport, -⟩ :=
    calm_eq_iff.mp (calm_closing (clockEvent s (s.setTo s.clock.nextMinute)))
  rw [hclk, hport, clock_clockEvent]
  obtain ⟨-, -, hstate⟩ := same_of_keptByClock (keptByClock_clockEvent s.clock.nextMinute s)
  exact ⟨hnow, hminute, hsecond, hstill.trans hset, hstate,
    duesDone_closing (duesDone_clockEvent _ s)⟩

/-- Settles O21: both commands are one clock event, which processes the dues that it brings. -/
theorem theClockProcessesDues : Obligations.TheClockProcessesDues := by
  intro s day minute hlegal duesDone
  obtain ⟨-, hminute, -⟩ := hlegal
  refine ⟨fun hidle hout => ?_, setClock_inRange, fun hset hnot => minute_advanced hminute hset ?_, fun hstands => ?_⟩
  · exact congrArg _ (request_refused hidle (takeSetClock_badField hout) (by decide))
  · refine Bool.eq_false_iff.mpr fun hend => ?_
    obtain ⟨hday, hmin⟩ := atEnd_iff.mp hend
    omega
  · exact congrArg _ (advanceMinute_of_standing (hstands.imp_right atEnd_iff.mpr))

end Sys2Proof.Machine

/-! A pass that ends: its verdicts written record by record, its claims stratum by stratum, and what the top-up
decisions, the rerun and the finishing tests leave of both (§3.1, §3.3, R31, R41, R49). -/

namespace Sys2Proof.Machine

variable {n : Nat} {s t u : State} {p : Pass}

/-! ### The walks judge every record and visit every stratum (R43) -/

theorem no_coverageWalk (thetaMin : Temp) (need : Nat) (layers : List Layer) :
    ((coverageWalk thetaMin need layers).visited ++ (coverageWalk thetaMin need layers).rest).map (·.no) =
      layers.map (·.no) := by
  induction layers generalizing need with
  | nil => rfl
  | cons l below ih =>
    unfold coverageWalk
    split
    · rfl
    · exact congrArg (l.no :: ·) (ih _)

theorem no_accountingWalk (need : Nat) (layers : List Layer) :
    (accountingWalk need layers).visited.map (·.no) = layers.map (·.no) := by
  induction layers generalizing need with
  | nil => rfl
  | cons l below ih => exact congrArg (l.no :: ·) (ih _)

/-- A judgement leaves the strata in their order. -/
theorem no_judge (line : Nat) (margin : Temp) (b : BookTerms) (layers : List Layer) :
    (judge line margin b layers).2.map (·.no) = layers.map (·.no) := by
  have hcover := no_coverageWalk b.thetaMin b.volume layers
  unfold judge
  dsimp only
  split
  · exact hcover
  · rw [List.map_append, no_accountingWalk, ← List.map_append]
    exact hcover

theorem no_judgeAll (line : Nat) (margin : Temp) (layers : List Layer) (records : List PassRecord) :
    (judgeAll line margin layers records).2.map (·.no) = layers.map (·.no) := by
  induction records generalizing layers with
  | nil => rfl
  | cons r rs ih => exact (ih _).trans (no_judge line margin r.terms layers)

theorem records_judgeAll (line : Nat) (margin : Temp) (layers : List Layer) (records : List PassRecord) :
    (judgeAll line margin layers records).1.map (·.1) = records := by
  induction records generalizing layers with
  | nil => rfl
  | cons r rs ih => exact congrArg (r :: ·) (ih _)

/-- A pass has a verdict for each of its records, in their order. -/
theorem records_results (p : Pass) : p.results.1.map (·.1) = p.records := records_judgeAll _ _ _ _

theorem slots_results (p : Pass) : p.results.1.map (·.1.handle.slot) = p.records.map (·.handle.slot) := by
  rw [← records_results p, List.map_map]
  rfl

/-! ### A verdict written (R31, R49) -/

/-- A record that takes its verdict stands open in its slot. -/
theorem passRecord?_eq_some {r : PassRecord} {x : Reservation} (h : s.passRecord? p r = some x) :
    s.record? r.handle.slot = some x ∧ x.state.isOpen = true ∧ s.recordOf? r.handle = some x := by
  unfold State.passRecord? at h
  split at h
  · cases h
  · obtain ⟨hx, hopen⟩ := Option.filter_eq_some_iff.mp h
    refine ⟨?_, hopen, hx⟩
    unfold State.recordOf? at hx
    split at hx
    · exact hx
    · cases hx

theorem recordOf?_of_slot {h : Handle} (hslot : t.bookSlot h.slot = s.bookSlot h.slot) :
    t.recordOf? h = s.recordOf? h := by
  rw [State.recordOf?, State.recordOf?, State.record?, State.record?, hslot]

/-- Whether a record takes its verdict is read off its slot. -/
theorem passRecord?_of_slot {r : PassRecord} (h : t.bookSlot r.handle.slot = s.bookSlot r.handle.slot) :
    t.passRecord? p r = s.passRecord? p r := by
  rw [State.passRecord?, State.passRecord?, recordOf?_of_slot h]

theorem writeVerdict_none {r : PassRecord × Verdict} (h : s.passRecord? p r.1 = none) : writeVerdict p s r = s := by
  rw [writeVerdict, h]

theorem writeVerdict_some {r : PassRecord × Verdict} {x : Reservation} (h : s.passRecord? p r.1 = some x) :
    writeVerdict p s r =
      (s.modRecord r.1.handle.slot fun x => { x with state := r.2.state, figures := r.2.figures }).raiseIf
        (r.2.atRisk && x.state != .atRisk) .atRisk := by
  rw [writeVerdict, h]

/-- Writing a verdict touches the book and the flags alone. -/
def State.besideVerdicts (s : State) : State :=
  { s with book := State.reset.book, port := { s.port with flags := 0 } }

theorem besideVerdicts_writeVerdict (s : State) (r : PassRecord × Verdict) :
    (writeVerdict p s r).besideVerdicts = s.besideVerdicts := by
  cases h : s.passRecord? p r.1 with
  | none => rw [writeVerdict_none h]
  | some x =>
    rw [writeVerdict_some h]
    unfold State.raiseIf
    split <;> rfl

theorem bookSlot_writeVerdict {r : PassRecord × Verdict} {x : Reservation} (h : s.passRecord? p r.1 = some x) :
    (writeVerdict p s r).bookSlot r.1.handle.slot =
      { issue := (s.bookSlot r.1.handle.slot).issue
        record := some { x with state := r.2.state, figures := r.2.figures } } := by
  obtain ⟨hx, -⟩ := passRecord?_eq_some h
  rw [writeVerdict_some h, bookSlot_of_book (raiseIf_book _ _ _), bookSlot_modRecord, hx]
  rfl

theorem bookSlot_writeVerdict_ne {r : PassRecord × Verdict} (hne : r.1.handle.slot - 1 ≠ n - 1) (s : State) :
    (writeVerdict p s r).bookSlot n = s.bookSlot n := by
  cases h : s.passRecord? p r.1 with
  | none => rw [writeVerdict_none h]
  | some x => rw [writeVerdict_some h, bookSlot_of_book (raiseIf_book _ _ _), bookSlot_modRecord_ne hne]

theorem flagged_writeVerdict {r : PassRecord × Verdict} {x : Reservation} (h : s.passRecord? p r.1 = some x)
    (hrisk : r.2.atRisk = true) (hx : x.state ≠ .atRisk) : (writeVerdict p s r).flagged .atRisk = true := by
  rw [writeVerdict_some h, hrisk, bne_iff_ne.mpr hx]
  exact flagged_raiseIf _

/-- A slot none of whose records takes a verdict stands. -/
theorem bookSlot_foldl_writeVerdict {verdicts : List (PassRecord × Verdict)}
    (hpos : ∀ r ∈ verdicts, 1 ≤ r.1.handle.slot)
    (hn : 1 ≤ n) (hnone : ∀ r ∈ verdicts, r.1.handle.slot = n → s.passRecord? p r.1 = none) :
    (verdicts.foldl (writeVerdict p) s).bookSlot n = s.bookSlot n := by
  induction verdicts generalizing s with
  | nil => rfl
  | cons r verdicts ih =>
    have hr1 := hpos r List.mem_cons_self
    have hfirst : (writeVerdict p s r).bookSlot n = s.bookSlot n := by
      by_cases hrn : r.1.handle.slot = n
      · rw [writeVerdict_none (hnone r List.mem_cons_self hrn)]
      · exact bookSlot_writeVerdict_ne (by omega) s
    have hrest : ∀ q ∈ verdicts, q.1.handle.slot = n → (writeVerdict p s r).passRecord? p q.1 = none :=
      fun q hq hqn =>
        (passRecord?_of_slot (by rw [hqn, hfirst])).trans (hnone q (List.mem_cons_of_mem r hq) hqn)
    exact (ih (fun q hq => hpos q (List.mem_cons_of_mem r hq)) hrest).trans hfirst

/-- The verdicts of a pass, each on a record of its own. -/
structure Pass.InOrder (p : Pass) : Prop where
  nodup : (p.results.1.map (·.1.handle.slot)).Nodup
  pos : ∀ r ∈ p.results.1, 1 ≤ r.1.handle.slot ∧ r.1.handle.slot ≤ 24
  layers : p.results.2.map (·.no) = [8, 7, 6, 5, 4, 3, 2, 1]

theorem inOrder_of_legal (h : s.coverage.legal) (hp : s.coverage.pass = some p) : p.InOrder := by
  obtain ⟨hnodup, hpos, hlayers⟩ := h p hp
  refine ⟨slots_results p ▸ hnodup, fun r hr => ?_, (no_judgeAll _ _ _ _).trans hlayers⟩
  exact hpos r.1 (records_results p ▸ List.mem_map_of_mem hr)

/-- The state with a pass's verdicts written. -/
def Pass.judged (p : Pass) (s : State) : State := p.results.1.foldl (writeVerdict p) s

/-- Of the verdicts written one after the other, each finds its record as the pass's end found it, and no later one
touches it. -/
theorem judged_at (hp : p.InOrder) {r : PassRecord × Verdict} (hr : r ∈ p.results.1) (s : State) :
    ∃ u, u.bookSlot r.1.handle.slot = s.bookSlot r.1.handle.slot ∧
      (p.judged s).bookSlot r.1.handle.slot = (writeVerdict p u r).bookSlot r.1.handle.slot ∧
      ∀ f, (writeVerdict p u r).flagged f = true → (p.judged s).flagged f = true := by
  obtain ⟨before, after, hsplit⟩ := List.append_of_mem hr
  have hnodup := hp.nodup
  rw [hsplit, List.map_append, List.map_cons, List.nodup_middle, List.nodup_cons, List.mem_append] at hnodup
  have hpos := hp.pos
  rw [hsplit] at hpos
  have hother (l : List (PassRecord × Verdict)) (hl : l ⊆ before ++ r :: after)
      (hnot : r.1.handle.slot ∉ l.map (·.1.handle.slot)) (v : State) :
      (l.foldl (writeVerdict p) v).bookSlot r.1.handle.slot = v.bookSlot r.1.handle.slot :=
    bookSlot_foldl_writeVerdict (fun q hq => (hpos q (hl hq)).1) (hpos r (by simp)).1
      fun q hq hqr => absurd (hqr ▸ List.mem_map_of_mem hq) hnot
  refine ⟨before.foldl (writeVerdict p) s, hother before (by simp) (fun h => hnodup.1 (.inl h)) s, ?_, fun f hf => ?_⟩
  · rw [Pass.judged, hsplit, List.foldl_append, List.foldl_cons]
    exact hother after (by simp) (fun h => hnodup.1 (.inr h)) _
  · rw [Pass.judged, hsplit, List.foldl_append, List.foldl_cons]
    exact foldl_marked (e := some f) _ (fun _ q h => marked_writeVerdict p q h) _ _ hf

theorem bookSlot_judged (hp : p.InOrder) {r : PassRecord × Verdict} (hr : r ∈ p.results.1) {x : Reservation}
    (hx : s.passRecord? p r.1 = some x) :
    (p.judged s).bookSlot r.1.handle.slot =
      { issue := (s.bookSlot r.1.handle.slot).issue
        record := some { x with state := r.2.state, figures := r.2.figures } } := by
  obtain ⟨u, hu, hjudged, -⟩ := judged_at hp hr s
  rw [hjudged, bookSlot_writeVerdict ((passRecord?_of_slot hu).trans hx), hu]

theorem flagged_judged (hp : p.InOrder) {r : PassRecord × Verdict} (hr : r ∈ p.results.1) {x : Reservation}
    (hx : s.passRecord? p r.1 = some x) (hrisk : r.2.atRisk = true) (hstate : x.state ≠ .atRisk) :
    (p.judged s).flagged .atRisk = true := by
  obtain ⟨u, hu, -, hflag⟩ := judged_at hp hr s
  exact hflag _ (flagged_writeVerdict ((passRecord?_of_slot hu).trans hx) hrisk hstate)

theorem besideVerdicts_judged (p : Pass) (s : State) : (p.judged s).besideVerdicts = s.besideVerdicts :=
  foldl_keeps State.besideVerdicts _ besideVerdicts_writeVerdict _ s

/-! ### The claims written (R16) -/

/-- A stratum beside its claim. -/
def Stratum.unclaimed (x : Stratum) : Stratum := { x with claimed := 0 }

/-- Writing the claims touches the map alone, and of it the claims. -/
def State.besideClaims (s : State) : State := s.modMap fun m => { m with strata := m.strata.map Stratum.unclaimed }

theorem besideClaims_writeClaims (s : State) (l : Layer) : (writeClaims s l).besideClaims = s.besideClaims := by
  have hstrata : (tset s.map.strata (l.no - 1) { s.stratum l.no with claimed := l.claimed }).map Stratum.unclaimed =
      s.map.strata.map Stratum.unclaimed :=
    map_tset_self Stratum.unclaimed s.map.strata (l.no - 1) { s.stratum l.no with claimed := l.claimed } .initial rfl
  unfold State.besideClaims writeClaims
  simp only [State.modMap, hstrata]

theorem besideClaims_foldl (layers : List Layer) (s : State) :
    (layers.foldl writeClaims s).besideClaims = s.besideClaims :=
  foldl_keeps State.besideClaims _ besideClaims_writeClaims layers s

theorem temp_of_besideClaims (h : t.besideClaims = s.besideClaims) (k : Nat) :
    (t.stratum k).temp = (s.stratum k).temp := by
  have hstrata : t.map.strata.map Stratum.unclaimed = s.map.strata.map Stratum.unclaimed :=
    congrArg (fun u => u.map.strata) h
  have hk := congrArg (tget · (k - 1) Stratum.initial.unclaimed) hstrata
  rw [tget_map Stratum.unclaimed, tget_map Stratum.unclaimed] at hk
  have htemp := congrArg Stratum.temp hk
  exact htemp

theorem claimed_writeClaims {l : Layer} (hl : l.no - 1 < 8) (s : State) :
    ((writeClaims s l).stratum l.no).claimed = l.claimed :=
  congrArg Stratum.claimed (tget_tset_self s.map.strata (l.no - 1) _ .initial hl)

theorem stratum_writeClaims_ne {l : Layer} {k : Nat} (h : l.no - 1 ≠ k - 1) (s : State) :
    (writeClaims s l).stratum k = s.stratum k := tget_tset_ne s.map.strata (l.no - 1) (k - 1) _ .initial h

/-- Each stratum is given the claim of its own layer. -/
theorem claimed_foldl_writeClaims {layers : List Layer} (hnodup : (layers.map (·.no)).Nodup)
    (hno : ∀ l ∈ layers, 1 ≤ l.no ∧ l.no ≤ 8) {l : Layer} (hl : l ∈ layers) (s : State) :
    ((layers.foldl writeClaims s).stratum l.no).claimed = l.claimed := by
  obtain ⟨before, after, rfl⟩ := List.append_of_mem hl
  rw [List.map_append, List.map_cons, List.nodup_middle, List.nodup_cons, List.mem_append] at hnodup
  have hlater : ∀ (rest : List Layer) (u : State), rest ⊆ after →
      (rest.foldl writeClaims u).stratum l.no = u.stratum l.no := by
    intro rest
    induction rest with
    | nil => exact fun _ _ => rfl
    | cons a rest ih =>
      intro u hrest
      have ha : a ∈ after := hrest List.mem_cons_self
      have hne : a.no ≠ l.no := fun e => hnodup.1 (.inr (e ▸ List.mem_map_of_mem ha))
      have hl1 := hno l hl
      have ha1 := hno a (by simp [ha])
      rw [List.foldl_cons, ih _ fun q hq => hrest (List.mem_cons_of_mem a hq)]
      exact stratum_writeClaims_ne (by omega) u
  have hl1 := hno l hl
  rw [List.foldl_append, List.foldl_cons, hlater after _ (List.Subset.refl _)]
  exact claimed_writeClaims (by omega) _

/-! ### The top-up decisions leave the verdicts and the claims -/

/-- The state with a pass's verdicts and claims written, before its top-up decisions. -/
def Pass.written (p : Pass) (s : State) : State := p.results.2.foldl writeClaims (p.judged s)

/-- The state with a pass's top-up decisions taken, while the pass still stands. -/
def Pass.decided (p : Pass) (s : State) : State := (p.results.1.foldl (decideTopUp p) (p.written s, false)).1

theorem completePass_eq (p : Pass) (s : State) :
    completePass p s = upTo8.foldl (fun t n => testFinishingUnlessSanitise n t) (endPass (p.decided s)) := rfl

/-- What follows the end of the pass is work on leases alone. -/
theorem calm_completed (p : Pass) (s : State) :
    (closing (completePass p s)).calm = (endPass (p.decided s)).calm := by
  rw [calm_closing, completePass_eq, foldl_calm _ fun t n => calm_testFinishingUnlessSanitise n t]

theorem foldl_decideTopUp {β : Type} (proj : State → β)
    (h : ∀ (acc : State × Bool) r, proj (decideTopUp p acc r).1 = proj acc.1) (l : List (PassRecord × Verdict))
    (acc : State × Bool) : proj (l.foldl (decideTopUp p) acc).1 = proj acc.1 := by
  induction l generalizing acc with
  | nil => rfl
  | cons r l ih => rw [List.foldl_cons, ih, h]

theorem kept_decided (p : Pass) (s : State) : (p.decided s).kept = (p.written s).kept :=
  foldl_decideTopUp State.kept (kept_decideTopUp p) _ _

theorem kept_completed (p : Pass) (s : State) : (closing (completePass p s)).kept = (p.written s).kept := by
  rw [kept_of_calm (calm_completed p s), kept_endPass, kept_decided]

/-- A flag that stands with the verdicts and claims written stands at the end. -/
theorem flagged_completed_of_written {f : EventFlag} (h : (p.written s).flagged f = true) :
    (closing (completePass p s)).flagged f = true := by
  have hdecided : ∀ (l : List (PassRecord × Verdict)) (acc : State × Bool), acc.1.marked (some f) →
      (l.foldl (decideTopUp p) acc).1.marked (some f) := by
    intro l
    induction l with
    | nil => exact fun _ h => h
    | cons r l ih => exact fun acc h => ih _ (marked_decideTopUp p acc r h)
  have hended : (endPass (p.decided s)).flagged f = true :=
    flagged_endPass f (hdecided p.results.1 (p.written s, false) h)
  exact marked_of_calm (e := some f) (calm_completed p s) hended

/-! ### The rerun (R41) -/

/-- A pass stands in flight with a rerun pending. -/
def Coverage.reruns (c : Coverage) : Prop := c.pass.isSome = true ∧ c.rerun = true

theorem reruns_passStart (h : s.coverage.reruns) : (passStart s).coverage.reruns := by
  obtain ⟨hpass, hrerun⟩ := h
  unfold passStart
  split
  · split
    · next hnone => rw [hnone] at hpass; cases hpass
    · exact ⟨hpass, rfl⟩
  · exact ⟨hpass, hrerun⟩

theorem coverage_of_calm (h : t.calm = s.calm) : t.coverage = s.coverage := (calm_eq_iff.mp h).2.2.1

theorem coverage_join (n : Nat) (h : Handle) (x : Temp) (d : Nat) (s : State) :
    (join n h x d s).coverage = s.coverage := by
  unfold join
  dsimp only
  split
  · rfl
  · exact (coverage_of_calm ((calm_testOverlap _).trans ((calm_testFinishing _ _).trans (calm_place _ _ _)))).trans rfl

/-- An opening touches coverage by its note on the eligible stations alone. -/
theorem openOffered_eq_some {l : Lease} {h : Handle} (e : openOffered l s = some (h, t)) :
    ∃ n l1, s.freeLeaseSlot = some n ∧ h = s.leaseHandle n ∧ (noteEligible s (putLease n l s)).lease? n = some l1 ∧
      t = place l1.holder ((noteEligible s (putLease n l s)).grantOf n l1) (noteEligible s (putLease n l s)) := by
  unfold openOffered at e
  split at e
  · cases e
  · next n hn =>
    dsimp only at e
    split at e
    · cases e
    · next l1 hl1 =>
      cases e
      exact ⟨n, l1, hn, rfl, hl1, rfl⟩

theorem reruns_openOffered {l : Lease} {h : Handle} (e : openOffered l s = some (h, t)) (hs : s.coverage.reruns) :
    t.coverage.reruns := by
  obtain ⟨n, l1, -, -, -, rfl⟩ := openOffered_eq_some e
  rw [coverage_of_calm (calm_place _ _ _)]
  unfold noteEligible
  split
  · exact hs
  · exact reruns_passStart hs

theorem reruns_openTopUp (i : Nat) (h : Handle) (x : Temp) (d : Nat) (hs : s.coverage.reruns) :
    (openTopUp i h x d s).coverage.reruns := by
  unfold openTopUp
  split
  · split
    · exact hs
    · next e =>
      have ht := reruns_openOffered e hs
      exact ht
  · exact hs

theorem reruns_decideTopUp (acc : State × Bool) (r : PassRecord × Verdict) (h : acc.1.coverage.reruns) :
    (decideTopUp p acc r).1.coverage.reruns := by
  unfold decideTopUp
  dsimp only
  repeat' split
  · rw [coverage_join]; exact h
  · exact h
  · exact h
  · exact reruns_openTopUp _ _ _ _ h
  · exact h

theorem reruns_decided (h : (p.written s).coverage.reruns) : (p.decided s).coverage.reruns := by
  have hfold : ∀ (l : List (PassRecord × Verdict)) (acc : State × Bool), acc.1.coverage.reruns →
      (l.foldl (decideTopUp p) acc).1.coverage.reruns := by
    intro l
    induction l with
    | nil => exact fun _ h => h
    | cons r l ih => exact fun acc h => ih _ (reruns_decideTopUp acc r h)
  exact hfold _ _ h

theorem rerun_endPass (s : State) : (endPass s).coverage.rerun = false := by
  unfold endPass
  dsimp only
  split
  · unfold passStart; repeat' split
    · rfl
    · next h => cases h
    · rfl
  · rfl

/-- A rerun that is pending under a VALID map begins as the pass ends. -/
theorem pass_endPass (hrerun : s.coverage.rerun = true) (hvalid : s.map.valid = true) :
    (endPass s).coverage.pass.isSome = true := by
  unfold endPass
  dsimp only
  rw [if_pos hrerun]
  exact passStart_inFlight hvalid

/-! ### The end of a pass -/

theorem besideClaims_written (p : Pass) (s : State) : (p.written s).besideClaims = (p.judged s).besideClaims :=
  besideClaims_foldl _ _

/-- The verdicts and the claims leave everything but the book, the claims and the flags. -/
theorem beside_written (p : Pass) (s : State) :
    (p.written s).besideVerdicts.besideClaims = s.besideVerdicts.besideClaims := by
  have h1 : (p.written s).besideVerdicts.besideClaims = (p.judged s).besideVerdicts.besideClaims :=
    congrArg State.besideVerdicts (besideClaims_written p s)
  rw [h1, besideVerdicts_judged]

theorem finishPass_inFlight (hp : s.coverage.pass = some p) : finishPass s = closing (completePass p s) := by
  rw [finishPass, hp]

/-! ### What is written, read at the end -/

theorem book_written (p : Pass) (s : State) : (p.written s).book = (p.judged s).book := by
  have h := congrArg State.book (besideClaims_written p s)
  exact h

theorem flagged_written (p : Pass) (s : State) (f : EventFlag) : (p.written s).flagged f = (p.judged s).flagged f := by
  have h := congrArg (fun u => u.flagged f) (besideClaims_written p s)
  exact h

theorem record?_written_of_verdict (hp : p.InOrder) {r : PassRecord} {v : Verdict} (hr : (r, v) ∈ p.results.1)
    {x : Reservation} (hx : s.passRecord? p r = some x) :
    (p.written s).record? r.handle.slot = some { x with state := v.state, figures := v.figures } :=
  (record?_of_book (book_written p s) _).trans (congrArg BookSlot.record (bookSlot_judged hp hr hx))

theorem record?_written_of_none (hp : p.InOrder) (hn : 1 ≤ n)
    (hnone : ∀ r ∈ p.records, r.handle.slot = n → s.passRecord? p r = none) :
    (p.written s).record? n = s.record? n := by
  refine (record?_of_book (book_written p s) _).trans (congrArg BookSlot.record ?_)
  refine bookSlot_foldl_writeVerdict (fun r hr => (hp.pos r hr).1) hn fun r hr hrn => hnone r.1 ?_ hrn
  exact records_results p ▸ List.mem_map_of_mem hr

/-- The layers of a pass are the eight strata. -/
theorem Pass.InOrder.bounds (hp : p.InOrder) :
    (p.results.2.map (·.no)).Nodup ∧ ∀ l ∈ p.results.2, 1 ≤ l.no ∧ l.no ≤ 8 := by
  refine ⟨hp.layers ▸ by decide, fun l hl => ?_⟩
  have hmem : l.no ∈ p.results.2.map (·.no) := List.mem_map_of_mem hl
  rw [hp.layers] at hmem
  revert hmem
  generalize l.no = k
  intro hmem
  simp only [List.mem_cons, List.not_mem_nil, or_false] at hmem
  omega

theorem stratum_written (hp : p.InOrder) {l : Layer} (hl : l ∈ p.results.2) (s : State) :
    ((p.written s).stratum l.no).claimed = l.claimed ∧ ((p.written s).stratum l.no).temp = (s.stratum l.no).temp := by
  obtain ⟨hnodup, hno⟩ := hp.bounds
  refine ⟨claimed_foldl_writeClaims hnodup hno hl _, ?_⟩
  rw [temp_of_besideClaims (besideClaims_written p s)]
  have hmap := congrArg (fun u => (u.stratum l.no).temp) (besideVerdicts_judged p s)
  exact hmap

theorem beside_of_written (p : Pass) (s : State) :
    (p.written s).coverage = s.coverage ∧ (p.written s).map.valid = s.map.valid ∧ (p.written s).clock = s.clock ∧
      (p.written s).sanitise = s.sanitise ∧ (p.written s).solar.params = s.solar.params ∧
      (p.written s).port.state = s.port.state := by
  have h := beside_written p s
  refine ⟨?_, ?_, ?_, ?_, ?_, ?_⟩
  · exact congrArg (fun u => u.coverage) h
  · exact congrArg (fun u => u.map.valid) h
  · exact congrArg (fun u => u.clock) h
  · exact congrArg (fun u => u.sanitise) h
  · exact congrArg (fun u => u.solar.params) h
  · exact congrArg (fun u => u.port.state) h

theorem coverage_completed (p : Pass) (s : State) :
    (closing (completePass p s)).coverage = (endPass (p.decided s)).coverage := coverage_of_calm (calm_completed p s)

/-- A rerun pending at the end of a pass begins under a VALID map. -/
theorem rerun_completed (hp : s.coverage.pass = some p) (hrerun : s.coverage.rerun = true)
    (hvalid : s.map.valid = true) :
    (closing (completePass p s)).coverage.pass.isSome = true := by
  obtain ⟨hcov, hmap, -⟩ := beside_of_written p s
  have hstands : (p.written s).coverage.reruns := by
    rw [Coverage.reruns, hcov, hp]
    exact ⟨rfl, hrerun⟩
  rw [coverage_completed]
  refine pass_endPass (reruns_decided hstands).2 ?_
  rw [map_of_kept (kept_decided p s)]
  exact hmap.trans hvalid

/-- Settles O25: the records by the verdicts written and what is kept of them, the claims by the map that the decisions
keep, the rerun by what stands pending. -/
theorem aPassWritesItsVerdicts : Obligations.APassWritesItsVerdicts := by
  intro s
  refine ⟨fun hnone => ?_, fun p hlegal hp => ?_⟩
  · exact congrArg Host.Outcome.next (by rw [finishPass, hnone])
  have hin := inOrder_of_legal hlegal hp
  refine ⟨_, congrArg Host.Outcome.next (finishPass_inFlight hp), ?_⟩
  have hkept := kept_completed p s
  have hflags := flagged_completed_of_written (p := p) (s := s) (f := .atRisk)
  have hended : (closing (completePass p s)).coverage.rerun = false :=
    (congrArg Coverage.rerun (coverage_completed p s)).trans (rerun_endPass _)
  have hagain := rerun_completed hp
  generalize closing (completePass p s) = t at hkept hflags hended hagain ⊢
  have hslots : t.kept.slots = (p.written s).kept.slots := congrArg Kept.slots hkept
  obtain ⟨-, -, hclock, hsan, hparams, hport⟩ := beside_of_written p s
  refine ⟨fun r v x hr hx _ _ => ⟨fun hrisk hstate => hflags ?_, ?_⟩, fun n x h1 _ hx hnone => ?_, fun l hl => ?_,
    hended, hagain, (congrArg Kept.clock hkept).trans hclock, (sanitise_of_kept hkept).trans hsan,
    (params_of_kept hkept).trans hparams, (congrArg Kept.portState hkept).trans hport⟩
  · exact (flagged_written p s _).trans (flagged_judged hin hr hx hrisk hstate)
  · obtain ⟨x', hx', hterms, hstate, hfigures, hlast⟩ :=
      sameBooking_of_slots hslots (record?_written_of_verdict hin hr hx)
    exact ⟨x', hx', hstate, hterms, hlast, hfigures⟩
  · exact sameBooking_of_slots hslots ((record?_written_of_none hin h1 hnone).trans hx)
  · have hmap : t.map = (p.written s).map := map_of_kept hkept
    rw [State.stratum, hmap]
    exact stratum_written hin hl s

end Sys2Proof.Machine

/-! Which lease a candidate joins: the foremost of those joinable (R53). -/

namespace Sys2Proof.Machine

variable {n : Nat} {s : State}

/-- Of a list, the one of the least key, and of these the least (R53). -/
def Leads (key : Nat → Nat) (l : List Nat) (n : Nat) : Prop :=
  n ∈ l ∧ ∀ k ∈ l, key n < key k ∨ key n = key k ∧ n ≤ k

theorem leads_unique {key : Nat → Nat} {l : List Nat} {m n : Nat} (hm : Leads key l m) (hn : Leads key l n) :
    m = n := by
  have h1 := hm.2 n hn.1
  have h2 := hn.2 m hm.1
  omega

theorem sortBy_concat {α : Type} (key : α → Nat) (l : List α) (x : α) :
    sortBy key (l ++ [x]) = insertBy key x (sortBy key l) := by simp [sortBy, List.foldl_append]

theorem head_insertBy_cons {α : Type} (key : α → Nat) (x y : α) (ys : List α) :
    (insertBy key x (y :: ys)).head? = some (if key y ≤ key x then y else x) := by
  unfold insertBy
  split <;> rfl

/-- The head of an ascending list sorted by a key is the foremost of it. -/
theorem leads_of_head_sortBy {key : Nat → Nat} {l : List Nat} (hl : l.Pairwise (· < ·))
    (h : (sortBy key l).head? = some n) : Leads key l n := by
  induction l using List.reverseRecOn generalizing n with
  | nil => cases h
  | append_singleton l x ih =>
    obtain ⟨hl', -, hlast⟩ := List.pairwise_append.mp hl
    have hbelow : ∀ a ∈ l, a < x := fun a ha => hlast a ha x List.mem_cons_self
    rw [sortBy_concat] at h
    have hmem : ∀ k, k ∈ l ++ [x] ↔ k ∈ l ∨ k = x := by simp
    cases hsorted : sortBy key l with
    | nil =>
      have hnil : l = [] := (hsorted ▸ perm_sortBy key l : [].Perm l).symm.eq_nil
      rw [hsorted] at h
      cases h
      subst hnil
      exact ⟨List.mem_cons_self, fun k hk => .inr (by obtain rfl := List.mem_singleton.mp hk; simp)⟩
    | cons y ys =>
      obtain ⟨hy, hleads⟩ := ih hl' (congrArg List.head? hsorted)
      rw [hsorted, head_insertBy_cons, Option.some.injEq] at h
      have hyx := hbelow y hy
      split at h
      · next hle =>
        subst h
        refine ⟨(hmem y).mpr (.inl hy), fun k hk => ?_⟩
        rcases (hmem k).mp hk with hk | rfl
        · exact hleads k hk
        · omega
      · next hlt =>
        subst h
        refine ⟨(hmem x).mpr (.inr rfl), fun k hk => ?_⟩
        rcases (hmem k).mp hk with hk | rfl
        · have := hleads k hk
          omega
        · omega

theorem head_sortBy_iff {key : Nat → Nat} {l : List Nat} (hl : l.Pairwise (· < ·)) :
    (sortBy key l).head? = some n ↔ Leads key l n := by
  refine ⟨leads_of_head_sortBy hl, fun hn => ?_⟩
  have hmem := (perm_sortBy key l).mem_iff.mpr hn.1
  cases hhead : (sortBy key l).head? with
  | none => rw [List.head?_eq_none_iff.mp hhead] at hmem; cases hmem
  | some m => rw [leads_unique (leads_of_head_sortBy hl hhead) hn]

/-- The lease in slot `k` is one that a candidate may join. -/
def State.mayJoin (s : State) (line depth k : Nat) : Prop :=
  1 ≤ k ∧ k ≤ 8 ∧ ∃ l, s.lease? k = some l ∧ l.kind = .topUp ∧ l.state ≠ .revoking ∧
    l.inlet ≤ max depth line ∧ l.serve.length < 8

theorem joinable_iff {l : Lease} {line depth : Nat} :
    l.joinable line depth = true ↔
      l.kind = .topUp ∧ l.state ≠ .revoking ∧ l.inlet ≤ max depth line ∧ l.serve.length < 8 := by
  simp only [Lease.joinable, Bool.and_eq_true, beq_iff_eq, bne_iff_ne, decide_eq_true_eq, and_assoc]

theorem mem_joinable {line depth k : Nat} :
    (k ∈ upTo8.filter fun n => (s.lease? n).any fun l => l.joinable line depth) ↔ s.mayJoin line depth k := by
  have hk8 : k ∈ upTo8 ↔ 1 ≤ k ∧ k ≤ 8 := by
    simp only [upTo8, List.mem_cons, List.not_mem_nil, or_false]
    omega
  rw [List.mem_filter, hk8, Option.any_eq_true, and_assoc, State.mayJoin]
  simp only [joinable_iff]

/-- The inlet of the lease in a slot. -/
def State.inletIn (s : State) (k : Nat) : Nat := ((s.lease? k).map (·.inlet)).getD 0

theorem joinTarget_iff {line depth : Nat} (hin : ∀ k l, s.lease? k = some l → l.inlet ≤ 8) :
    s.joinTarget line depth = some n ↔
      s.mayJoin line depth n ∧
        ∀ k, s.mayJoin line depth k → s.inletIn k < s.inletIn n ∨ s.inletIn k = s.inletIn n ∧ n ≤ k := by
  have hbound : ∀ k, s.inletIn k ≤ 8 := by
    intro k
    unfold State.inletIn
    cases hl : s.lease? k with
    | none => exact Nat.zero_le 8
    | some l => exact hin k l hl
  have hascending : (upTo8.filter fun n => (s.lease? n).any fun l => l.joinable line depth).Pairwise (· < ·) :=
    List.Pairwise.filter _ (by decide)
  have hkey : ∀ k, 8 - s.inletIn n < 8 - s.inletIn k ∨ 8 - s.inletIn n = 8 - s.inletIn k ∧ n ≤ k ↔
      s.inletIn k < s.inletIn n ∨ s.inletIn k = s.inletIn n ∧ n ≤ k := by
    intro k
    have := hbound k
    have := hbound n
    omega
  refine (head_sortBy_iff hascending).trans ?_
  simp only [Leads, mem_joinable]
  exact and_congr_right fun _ => forall_congr' fun k => imp_congr_right fun _ => hkey k

/-- What a lease to be joined is. -/
theorem mayJoin_of_joinTarget {line depth : Nat} (h : s.joinTarget line depth = some n) : s.mayJoin line depth n := by
  have hmem := List.mem_of_head? h
  exact mem_joinable.mp ((perm_sortBy _ _).mem_iff.mp hmem)

end Sys2Proof.Machine

/-! An AMEND that waits for a lease: what the commands for the same lease leave of the
queue it waits in (R142, R143). -/

namespace Sys2Proof.Machine

variable {bears p : LinkCmd → Bool} {h : Handle} {a c : LinkCmd} {k : Nat} {x : Queued} {q : List Queued}

/-! ### The seats of a lease's commands -/

/-- The seat that a command takes among those for one lease past OFFERED, its AMEND, its SET RATE, and its SUSPEND or
RESUME; seat 0 is that of a command which may not wait for such a lease. -/
def LinkCmd.seat? (h : Handle) : LinkCmd → Option Nat
  | .amend h' _ _ => if h' = h then some 1 else none
  | .setRate h' _ => some (if h' = h then 2 else 0)
  | .suspend h' | .resume h' _ => if h' = h then some 3 else none
  | .grant h' _ _ _ _ | .revoke h' => if h' = h then some 0 else none
  | .identify | .poll | .qualify _ | .refuse _ | .linkClear | .allStop => none

/-- The seats taken in a queue. -/
def seats (h : Handle) (q : List Queued) : List Nat := q.filterMap fun x => x.cmd.seat? h

/-- A queue in which each seat of a lease is taken once, and none that may not be. -/
def Tidy (h : Handle) (q : List Queued) : Prop := (seats h q).Nodup ∧ 0 ∉ seats h q

theorem seat?_le (hc : c.seat? h = some k) : k ≤ 3 := by
  unfold LinkCmd.seat? at hc
  repeat' split at hc
  all_goals simp only [Option.some.injEq, reduceCtorEq] at hc
  all_goals omega

theorem mem_seats : k ∈ seats h q ↔ ∃ x ∈ q, x.cmd.seat? h = some k := List.mem_filterMap

theorem tidy_sublist {q' : List Queued} (hq : q'.Sublist q) (ht : Tidy h q) : Tidy h q' := by
  have hs : (seats h q').Sublist (seats h q) := hq.filterMap _
  exact ⟨ht.1.sublist hs, fun h0 => ht.2 (hs.subset h0)⟩

/-- Three seats at most are taken in a tidy queue. -/
theorem length_seats_of_tidy (ht : Tidy h q) : (seats h q).length < 4 := by
  have hsub : seats h q ⊆ [1, 2, 3] := by
    intro k hk
    obtain ⟨x, -, hx⟩ := mem_seats.mp hk
    have hle := seat?_le hx
    have h0 : k ≠ 0 := fun e => ht.2 (e ▸ hk)
    simp only [List.mem_cons, List.not_mem_nil, or_false]
    omega
  exact Nat.lt_succ_of_le (ht.1.subperm hsub).length_le

theorem seat?_isSome (hc : c.handle? = some h) : (c.seat? h).isSome = true := by
  cases c <;> simp_all [LinkCmd.handle?, LinkCmd.seat?]

/-- Fewer than four commands of a tidy queue bear the lease. -/
theorem length_bearing (hb : ∀ c, bears c = true → c.handle? = some h) (ht : Tidy h q) :
    (q.filter fun x => bears x.cmd).length < 4 := by
  refine Nat.lt_of_le_of_lt ?_ (length_seats_of_tidy ht)
  rw [seats, List.length_filterMap_eq_countP, ← List.countP_eq_length_filter]
  exact List.countP_mono_left fun x _ hx => seat?_isSome (hb _ hx)

/-! ### A command in the place of another -/

/-- A command that takes the place of one of the same seat leaves the seats. -/
theorem seats_replaceFirst (hp : ∀ y, p y = true → y.seat? h = c.seat? h) (q : List Queued) :
    seats h (replaceFirst p c q) = seats h q := by
  induction q with
  | nil => rfl
  | cons y q ih =>
    unfold replaceFirst
    split
    · next hy => simp only [seats, List.filterMap_cons, hp _ hy]
    · simp only [seats, List.filterMap_cons] at ih ⊢
      rw [ih]

/-- A command that is not replaced stays. -/
theorem mem_replaceFirst (hx : x ∈ q) (hp : p x.cmd = false) : x ∈ replaceFirst p c q := by
  induction q with
  | nil => cases hx
  | cons y q ih =>
    unfold replaceFirst
    rcases List.mem_cons.mp hx with rfl | hx
    · rw [hp]; exact List.mem_cons_self
    · split
      · exact List.mem_cons_of_mem _ hx
      · exact List.mem_cons_of_mem _ (ih hx)

/-- The command placed waits where one is replaced by it. -/
theorem waits_replaceFirst (hw : anyWaiting p q = true) : ∃ y ∈ replaceFirst p c q, y.cmd = c := by
  induction q with
  | nil => cases hw
  | cons y q ih =>
    unfold replaceFirst
    split
    · exact ⟨_, List.mem_cons_self, rfl⟩
    · next hy =>
      have hw' : anyWaiting p q = true := by simpa [anyWaiting, hy] using hw
      obtain ⟨z, hz, hc⟩ := ih hw'
      exact ⟨z, List.mem_cons_of_mem _ hz, hc⟩

theorem mem_removeAll (hx : x ∈ q) (hp : p x.cmd = false) : x ∈ removeAll p q :=
  List.mem_filter.mpr ⟨hx, by rw [hp]; rfl⟩

theorem not_mem_seats (hw : anyWaiting p q = false) (hp : ∀ y, y.seat? h = some k → p y = true) : k ∉ seats h q := by
  intro hk
  obtain ⟨x, hx, hseat⟩ := mem_seats.mp hk
  have := List.any_eq_false.mp hw x hx
  exact this (hp _ hseat)

/-! ### A command that stays while others are placed -/

/-- A command for the lease waits in a tidy queue. -/
def Tended (h : Handle) (a : LinkCmd) (q : List Queued) : Prop := (∃ y ∈ q, y.cmd = a) ∧ Tidy h q

theorem tended_removeAll (hp : p a = false) (ht : Tended h a q) : Tended h a (removeAll p q) := by
  obtain ⟨⟨y, hy, rfl⟩, ht⟩ := ht
  exact ⟨⟨y, mem_removeAll hy hp, rfl⟩, tidy_sublist (sublist_removeAll q) ht⟩

theorem tended_replaceFirst (hp : p a = false) (hseat : ∀ y, p y = true → y.seat? h = c.seat? h)
    (ht : Tended h a q) : Tended h a (replaceFirst p c q) := by
  obtain ⟨⟨y, hy, rfl⟩, ht⟩ := ht
  refine ⟨⟨y, mem_replaceFirst hy hp, rfl⟩, ?_⟩
  rw [Tidy, seats_replaceFirst hseat]
  exact ht

/-- Which commands bear the lease that a handle names. -/
def Bearing (bears : LinkCmd → Bool) (h : Handle) : Prop := ∀ c, bears c = true ↔ c.handle? = some h

theorem tidy_enqueue (hk : x.cmd.seat? h = some k) (h0 : k ≠ 0) (hfree : k ∉ seats h q) (ht : Tidy h q) :
    Tidy h (makeRoom bears q ++ [x]) := by
  have hroom := tidy_sublist (sublist_makeRoom (bears := bears) q) ht
  have hsub : (seats h (makeRoom bears q)).Sublist (seats h q) := (sublist_makeRoom q).filterMap _
  have hseats : seats h (makeRoom bears q ++ [x]) = seats h (makeRoom bears q) ++ [k] := by
    rw [seats, List.filterMap_append]
    simp only [List.filterMap_cons, hk, List.filterMap_nil]
    rfl
  rw [Tidy, hseats]
  refine ⟨List.nodup_append.mpr ⟨hroom.1, List.nodup_singleton k, ?_⟩, ?_⟩
  · intro a ha b hb e
    rw [List.mem_singleton.mp hb] at e
    exact hfree (hsub.subset (e ▸ ha))
  · simp only [List.mem_append, List.mem_singleton]
    rintro (h' | h')
    · exact hroom.2 h'
    · exact h0 h'.symm

/-- In a tidy queue every SET RATE is the lease's own, so that none gives its place to a first one for the lease. -/
theorem takesSetRatePlace_of_tidy (ht : Tidy h q) (hk : c.seat? h = some k) (h0 : k ≠ 0) (hfree : k ∉ seats h q) :
    takesSetRatePlace c q = false := by
  cases c with
  | setRate h' r =>
    refine Bool.and_eq_false_iff.mpr (.inr (List.any_eq_false.mpr fun y hy hrate => ?_))
    obtain ⟨cmd, age⟩ := y
    cases cmd with
    | setRate h'' r' =>
      have hseat : (if h'' = h then 2 else 0) ∈ seats h q := mem_seats.mpr ⟨_, hy, rfl⟩
      have hk2 : (if h' = h then 2 else 0) = k := Option.some.inj hk
      split at hseat
      · split at hk2
        · exact hfree (hk2 ▸ hseat)
        · exact h0 hk2.symm
      · exact ht.2 hseat
    | _ => cases hrate
  | _ => rfl

/-- The command placed waits. -/
theorem waits_enqueue : ∃ y ∈ enqueue bears x q, y.cmd = x.cmd := by
  unfold enqueue
  split
  · next hplace =>
    refine waits_replaceFirst ?_
    revert hplace
    unfold takesSetRatePlace
    split
    · intro hplace
      exact (Bool.and_eq_true_iff.mp hplace).2
    · intro hplace
      cases hplace
  · exact ⟨x, List.mem_append_right _ List.mem_cons_self, rfl⟩

theorem waits_replaceOrEnqueue : ∃ y ∈ replaceOrEnqueue bears p x q, y.cmd = x.cmd := by
  unfold replaceOrEnqueue
  split
  · next hw => exact waits_replaceFirst hw
  · exact waits_enqueue

section placed

variable (hb : Bearing bears h) (hp : ∀ y, p y = true → y.seat? h = some k) (hk : x.cmd.seat? h = some k)
  (h0 : k ≠ 0) (hfree : anyWaiting p q = false → k ∉ seats h q)

include hp hk h0 hfree

/-- A command placed where its seat is its own leaves a tidy queue tidy. -/
theorem tidy_replaceOrEnqueue (ht : Tidy h q) : Tidy h (replaceOrEnqueue bears p x q) := by
  unfold replaceOrEnqueue
  split
  · rw [Tidy, seats_replaceFirst fun y hy => (hp y hy).trans hk.symm]
    exact ht
  · next hw =>
    have hfree := hfree (Bool.not_eq_true _ ▸ hw)
    rw [enqueue, takesSetRatePlace_of_tidy ht hk h0 hfree, if_neg Bool.false_ne_true]
    exact tidy_enqueue hk h0 hfree ht

include hb

/-- And a command that it does not replace stays: in a tidy queue no room is made at a lease's cost. -/
theorem tended_replaceOrEnqueue (ha : a.handle? = some h) (hpa : p a = false) (ht : Tended h a q) :
    Tended h a (replaceOrEnqueue bears p x q) := by
  obtain ⟨⟨y, hy, rfl⟩, ht⟩ := ht
  refine ⟨⟨y, ?_, rfl⟩, tidy_replaceOrEnqueue hp hk h0 hfree ht⟩
  unfold replaceOrEnqueue
  split
  · exact mem_replaceFirst hy hpa
  · next hw =>
    have hfree := hfree (Bool.not_eq_true _ ▸ hw)
    rw [enqueue, takesSetRatePlace_of_tidy ht hk h0 hfree, if_neg Bool.false_ne_true]
    exact List.mem_append_left _ (mem_makeRoom (length_bearing (fun c => (hb c).mp) ht) hy ((hb _).mpr ha))

end placed

theorem seat?_of_isSetRate {y : LinkCmd} (hy : y.isSetRate h = true) : y.seat? h = some 2 := by
  cases y with
  | setRate h' r => exact congrArg some (if_pos (beq_iff_eq.mp hy))
  | _ => cases hy

theorem isSetRate_of_seat? {y : LinkCmd} (hy : y.seat? h = some 2) : y.isSetRate h = true := by
  unfold LinkCmd.seat? at hy
  split at hy <;> simp_all [LinkCmd.isSetRate]

theorem seat?_of_isAmend {y : LinkCmd} (hy : y.isAmend h = true) : y.seat? h = some 1 := by
  cases y with
  | amend h' c b => exact if_pos (beq_iff_eq.mp hy)
  | _ => cases hy

theorem isAmend_of_seat? {y : LinkCmd} (hy : y.seat? h = some 1) : y.isAmend h = true := by
  cases y with
  | setRate h' r =>
    have hseat : (if h' = h then 2 else 0) = 1 := Option.some.inj hy
    split at hseat <;> cases hseat
  | _ => simp_all [LinkCmd.seat?, LinkCmd.isAmend]

theorem seat?_of_isSuspend {y : LinkCmd} (hy : y.isSuspend h = true) : y.seat? h = some 3 := by
  cases y with
  | suspend h' => exact if_pos (beq_iff_eq.mp hy)
  | _ => cases hy

theorem seat?_of_isResume {y : LinkCmd} (hy : y.isResume h = true) : y.seat? h = some 3 := by
  cases y with
  | resume h' r => exact if_pos (beq_iff_eq.mp hy)
  | _ => cases hy

theorem suspend_or_resume_of_seat? {y : LinkCmd} (hy : y.seat? h = some 3) :
    y.isSuspend h = true ∨ y.isResume h = true := by
  cases y with
  | setRate h' r =>
    have hseat : (if h' = h then 2 else 0) = 3 := Option.some.inj hy
    split at hseat <;> cases hseat
  | _ => simp_all [LinkCmd.seat?, LinkCmd.isSuspend, LinkCmd.isResume]

theorem anyWaiting_removeAll (q : List Queued) : anyWaiting p (removeAll p q) = false := by
  simp [anyWaiting, removeAll]

/-- The last seat is free where neither a SUSPEND nor a RESUME waits. -/
theorem free_of_none (hs : anyWaiting (·.isSuspend h) q = false) (hr : anyWaiting (·.isResume h) q = false) :
    3 ∉ seats h q := by
  intro h3
  obtain ⟨x, hx, hseat⟩ := mem_seats.mp h3
  rcases suspend_or_resume_of_seat? hseat with hc | hc
  · exact List.any_eq_false.mp hs x hx hc
  · exact List.any_eq_false.mp hr x hx hc

/-- The seats of a lease's AMEND, whatever its content. -/
theorem tidy_placeAmend {ceiling : Temp} {budget : Option Nat} {age : Nat} (ht : Tidy h q) :
    Tidy h (replaceOrEnqueue bears (·.isAmend h) { cmd := .amend h ceiling budget, age := age } q) :=
  tidy_replaceOrEnqueue (fun _ => seat?_of_isAmend) (if_pos rfl) (by decide)
    (fun hw => not_mem_seats hw fun _ => isAmend_of_seat?) ht

section own

variable (hb : Bearing bears h) {ceiling : Temp} {budget : Option Nat} {age rate : Nat} {v : LeaseView}

include hb

/-- An AMEND stays while the lease's SET RATE is placed. -/
theorem tended_placeSetRate (ht : Tended h (.amend h ceiling budget) q) :
    Tended h (.amend h ceiling budget) (placeSetRate bears h rate age q) := by
  unfold placeSetRate
  split
  · exact tended_replaceFirst rfl (fun y hy => (seat?_of_isResume hy).trans (if_pos rfl).symm) (tended_removeAll rfl ht)
  · exact tended_replaceOrEnqueue hb (fun _ => seat?_of_isSetRate) (congrArg some (if_pos rfl)) (by decide)
      (fun hw => not_mem_seats hw fun _ => isSetRate_of_seat?) rfl rfl ht

theorem tended_replaceOrSuspend (hr : anyWaiting (·.isResume h) q = false) (ht : Tended h (.amend h ceiling budget) q) :
    Tended h (.amend h ceiling budget)
      (replaceOrEnqueue bears (·.isSuspend h) { cmd := .suspend h, age := age } q) :=
  tended_replaceOrEnqueue hb (fun _ => seat?_of_isSuspend) (if_pos rfl) (by decide)
    (fun hs => free_of_none hs hr) rfl rfl ht

/-- An AMEND stays while a SUSPEND for its lease is placed. -/
theorem tended_placeSuspend (ht : Tended h (.amend h ceiling budget) q) :
    Tended h (.amend h ceiling budget) (placeSuspend bears v h age q) := by
  have hrates : Tended h (.amend h ceiling budget) (removeAll (·.isSetRate h) q) := tended_removeAll rfl ht
  unfold placeSuspend
  dsimp only
  split
  · have hresume := tended_removeAll (p := (·.isResume h)) rfl hrates
    split
    · exact hresume
    · exact tended_replaceOrSuspend hb (anyWaiting_removeAll _) hresume
  · next hr => exact tended_replaceOrSuspend hb (Bool.not_eq_true _ ▸ hr) hrates

/-- An AMEND stays while a RESUME for its lease is placed. -/
theorem tended_placeResume (ht : Tended h (.amend h ceiling budget) q) :
    Tended h (.amend h ceiling budget) (placeResume bears v h rate age q) := by
  unfold placeResume
  split
  · have hsuspend := tended_removeAll (p := (·.isSuspend h)) rfl ht
    dsimp only
    split
    · exact hsuspend
    · exact tended_placeSetRate hb hsuspend
  · next hs =>
    exact tended_replaceOrEnqueue hb (fun _ => seat?_of_isResume) (if_pos rfl) (by decide)
      (fun hr => free_of_none (Bool.not_eq_true _ ▸ hs) hr) rfl rfl ht

end own

/-- The commands that the work on a heating or a SUSPENDED lease places for it. -/
def LinkCmd.isOwn (h : Handle) (c : LinkCmd) : Bool := c.isSetRate h || c.isSuspend h || c.isResume h

theorem tended_coalesce (hb : Bearing bears h) {ceiling : Temp} {budget : Option Nat} {age : Nat} {v : LeaseView}
    (hc : c.isOwn h = true) (ht : Tended h (.amend h ceiling budget) q) :
    Tended h (.amend h ceiling budget) (coalesce bears v c age q) := by
  cases c with
  | setRate h' r =>
    obtain rfl : h' = h := by simpa [LinkCmd.isOwn, LinkCmd.isSetRate, LinkCmd.isSuspend, LinkCmd.isResume] using hc
    exact tended_placeSetRate hb ht
  | suspend h' =>
    obtain rfl : h' = h := by simpa [LinkCmd.isOwn, LinkCmd.isSetRate, LinkCmd.isSuspend, LinkCmd.isResume] using hc
    exact tended_placeSuspend hb ht
  | resume h' r =>
    obtain rfl : h' = h := by simpa [LinkCmd.isOwn, LinkCmd.isSetRate, LinkCmd.isSuspend, LinkCmd.isResume] using hc
    exact tended_placeResume hb ht
  | _ => cases hc

end Sys2Proof.Machine

/-! The work that closes a step, as it bears on one lease and on its holder's queue: a
chain of turns, each of them a change
that leaves both alone or one of the few that the lease's own state calls for (§4.7, §5.1, §6.1). -/

namespace Sys2Proof.Machine

variable {n i : Nat} {s t u v : State}

/-! ### A command placed, as its own and another queue see it -/

theorem station_markOvertaken (i j : Nat) (c : LinkCmd) (s : State) :
    (markOvertaken j c s).station i = s.station i := by
  unfold markOvertaken
  split <;> rfl

theorem station_place_ne {j : Nat} (h : j ≠ i) (c : LinkCmd) (s : State) : (place j c s).station i = s.station i := by
  unfold place
  split
  · rfl
  · rw [station_markOvertaken]
    exact tget_tset_ne s.link.stations j i _ _ h

theorem queue_place (h1 : 1 ≤ i) (h7 : i ≤ 7) (c : LinkCmd) (s : State) :
    ((place i c s).station i).queue = coalesce (s.bears i) (s.leaseView i c) c s.moment (s.station i).queue := by
  unfold place
  rw [if_neg (by omega), station_markOvertaken]
  exact congrArg Station.queue (tget_tset_self s.link.stations i _ _ (by omega))

theorem lease?_place (i : Nat) (c : LinkCmd) (s : State) (n : Nat) : (place i c s).lease? n = s.lease? n :=
  lease_of_admission (admission_place i c s) n

/-! ### A lease and its holder -/

/-- Slot `n` holds the lease of station `i`, which is READY, and no other slot does. -/
structure State.Holds (s : State) (n i : Nat) : Prop where
  slot : 1 ≤ n ∧ n ≤ 8
  index : 1 ≤ i ∧ i ≤ 7
  ready : (s.entry i).state = .ready
  lease : ∃ l, s.lease? n = some l ∧ l.holder = i
  only : ∀ k l, s.lease? k = some l → l.holder = i → k - 1 = n - 1

theorem holds_of_shelf (hentries : t.roster.entries = s.roster.entries) (hshelf : t.shelf = s.shelf)
    (h : s.Holds n i) : t.Holds n i := by
  refine ⟨h.slot, h.index, ?_, ?_, fun k l hl hi => ?_⟩
  · rw [State.entry, hentries]
    exact h.ready
  · obtain ⟨l, hl, hi⟩ := h.lease
    obtain ⟨l', hl', hroot⟩ := exists_of_shelf hshelf.symm hl
    exact ⟨l', hl', (same_of_root hroot.symm).2.1.symm.trans hi⟩
  · obtain ⟨l', hl', hroot⟩ := exists_of_shelf hshelf hl
    exact h.only k l' hl' ((same_of_root hroot).2.1.trans hi)

theorem leaseHandle_of_shelf (hshelf : t.shelf = s.shelf) (n : Nat) : t.leaseHandle n = s.leaseHandle n := by
  have hissue := congrArg LeaseSlot.issue (root_of_shelf hshelf n)
  exact congrArg (Handle.mk n) hissue

/-- The commands that bear the lease are those that name it. -/
theorem bearing_of_holds (h : s.Holds n i) : Bearing (s.bears i) (s.leaseHandle n) := by
  obtain ⟨h1, h8⟩ := h.slot
  obtain ⟨l, hl, hi⟩ := h.lease
  have hheld : s.slotHeldBy i = some n := by
    refine find?_eq_of_pairwise (R := (· < ·)) (by decide) ?_ ?_ fun k hk hpk hlt => ?_
    · simp only [upTo8, List.mem_cons, List.not_mem_nil, or_false]
      omega
    · simp [hl, hi]
    · obtain ⟨l', hl', hi'⟩ := (Option.any_eq_true _ _).mp hpk
      have h1k : 1 ≤ k := (by decide : ∀ k ∈ upTo8, 1 ≤ k) k hk
      have := h.only k l' hl' (beq_iff_eq.mp hi')
      omega
  intro c
  unfold State.bears State.handleHeldBy
  rw [hheld]
  cases c.handle? with
  | none => exact ⟨fun h => (Bool.false_ne_true h).elim, fun h => nomatch h⟩
  | some h' => rw [Option.map_some, beq_iff_eq, eq_comm]

/-! ### Turns -/

/-- What the turns of slot `n` and of station `i`'s queue start from: the slot's core and the queue, beside the blocks
that such work never touches. -/
def State.plot (s : State) (n i : Nat) : Calm × Shelf × LeaseSlot × List Queued :=
  (s.calm, s.shelf, s.core n, (s.station i).queue)

theorem plot_eq_iff :
    t.plot n i = s.plot n i ↔
      t.calm = s.calm ∧ t.shelf = s.shelf ∧ t.core n = s.core n ∧ (t.station i).queue = (s.station i).queue := by
  simp only [State.plot, Prod.mk.injEq]

/-- One change that the work on leases makes as slot `n` and station `i`'s queue see it. -/
inductive Turn (n i : Nat) : State → State → Prop
  /-- A change elsewhere, or of a rate. -/
  | elsewhere {s t : State} (h : t.plot n i = s.plot n i) : Turn n i s t
  /-- A heating lease's station is told its rate, or to resume. -/
  | told {s : State} {l : Lease} {c : LinkCmd} (hl : s.lease? n = some l) (hheat : l.state.isHeating = true)
      (hc : c.isOwn (s.leaseHandle n) = true) : Turn n i s (place i c s)
  | suspended {s : State} {l : Lease} (hl : s.lease? n = some l) (hheat : l.state.isHeating = true) :
      Turn n i s (beginSuspension s n)
  | resumed {s : State} {l : Lease} {ctx : SavedContext} (hl : s.lease? n = some l) (hsaved : l.saved = some ctx) :
      Turn n i s (beginResumption s n)
  | finishing {s : State} {l : Lease} (hl : s.lease? n = some l) (hrun : l.state.isRunning = true) :
      Turn n i s (beginFinishing n s)
  | ended {s : State} {l : Lease} (reason : LeaseOutcome) (hl : s.lease? n = some l) (hfin : l.state = .finishing) :
      Turn n i s (beginRevoking n l reason s)
  | recharged {s : State} {l : Lease} (hl : s.lease? n = some l) (hfin : l.state = .finishing) :
      Turn n i s (s.modLease n fun l => { l with state := .admitted, hold := none })

/-- A chain of turns. -/
abbrev Turns (n i : Nat) : State → State → Prop := Relation.ReflTransGen (Turn n i)

theorem calm_of_turn (h : Turn n i s t) : t.calm = s.calm := by
  cases h with
  | elsewhere h => exact (plot_eq_iff.mp h).1
  | told => exact calm_place _ _ _
  | suspended => exact calm_beginSuspension _ _
  | resumed => exact calm_beginResumption _ _
  | finishing => exact calm_beginFinishing _ _
  | ended => exact calm_beginRevoking _ _ _ _
  | recharged => exact calm_modLease _ _ _

theorem shelf_of_turn (h : Turn n i s t) : t.shelf = s.shelf := by
  cases h with
  | elsewhere h => exact (plot_eq_iff.mp h).2.1
  | told => exact shelf_place _ _ _
  | suspended => exact shelf_beginSuspension _ _
  | resumed => exact shelf_beginResumption _ _
  | finishing => exact shelf_beginFinishing _ _
  | ended => exact shelf_beginRevoking _ _ _ _
  | recharged =>
    apply shelf_modLease
    intro _
    rfl

theorem holds_of_turn (h : Turn n i s t) (hs : s.Holds n i) : t.Holds n i :=
  holds_of_shelf (calm_eq_iff.mp (calm_of_turn h)).2.2.2.1 (shelf_of_turn h) hs

theorem holds_of_turns (h : Turns n i s t) (hs : s.Holds n i) : t.Holds n i := by
  induction h with
  | refl => exact hs
  | tail _ hturn ih => exact holds_of_turn hturn ih

theorem turns_of_plot (h : t.plot n i = s.plot n i) : Turns n i s t := .single (.elsewhere h)

/-- A fold whose changes are turns, each from a state that still holds the lease. -/
theorem turns_foldl {α : Type} {f : State → α → State} {l : List α}
    (hf : ∀ u, ∀ a ∈ l, u.Holds n i → Turns n i u (f u a)) (hs : s.Holds n i) : Turns n i s (l.foldl f s) := by
  induction l generalizing s with
  | nil => exact .refl
  | cons a l ih =>
    have hfirst := hf s a List.mem_cons_self hs
    exact hfirst.trans (ih (fun u b hb => hf u b (List.mem_cons_of_mem a hb)) (holds_of_turns hfirst hs))

/-! ### Changes elsewhere -/

theorem plot_modLease (m : Nat) {f : Lease → Lease} (hcore : ∀ l, (f l).core = l.core) (s : State) :
    (s.modLease m f).plot n i = s.plot n i := by
  have hroot : ∀ l, (f l).root = l.root := fun l => by
    have h := congrArg Lease.root (hcore l)
    exact h
  exact plot_eq_iff.mpr ⟨calm_modLease _ _ _, shelf_modLease m f hroot s, core_modLease n m f hcore s, rfl⟩

theorem plot_modLease_ne {m : Nat} (hm : m - 1 ≠ n - 1) {f : Lease → Lease} (hroot : ∀ l, (f l).root = l.root)
    (s : State) :
    (s.modLease m f).plot n i = s.plot n i :=
  plot_eq_iff.mpr ⟨calm_modLease _ _ _, shelf_modLease m f hroot s, core_modLease_ne hm f s, rfl⟩

theorem plot_place_ne {j : Nat} (h : j ≠ i) (c : LinkCmd) (s : State) : (place j c s).plot n i = s.plot n i :=
  plot_eq_iff.mpr
    ⟨calm_place _ _ _, shelf_place _ _ _, core_place _ _ _ _, congrArg Station.queue (station_place_ne h c s)⟩

theorem holder_ne (hs : s.Holds n i) {m : Nat} (hm : m - 1 ≠ n - 1) {l : Lease} (hl : s.lease? m = some l) :
    l.holder ≠ i := fun hi => hm (hs.only m l hl hi)

/-- The lease's station is the holder of its lease alone. -/
theorem holder_eq (hs : s.Holds n i) {l : Lease} (hl : s.lease? n = some l) : l.holder = i := by
  obtain ⟨l', hl', hi⟩ := hs.lease
  rw [hl'] at hl
  cases hl
  exact hi

theorem plot_beginRevoking_ne {m : Nat} (hm : m - 1 ≠ n - 1) {l : Lease} (hl : l.holder ≠ i) (r : LeaseOutcome)
    (s : State) :
    (beginRevoking m l r s).plot n i = s.plot n i := by
  unfold beginRevoking
  rw [plot_place_ne hl]
  apply plot_modLease_ne hm
  intro _
  rfl

section elsewhere

variable {m : Nat} (hm : m - 1 ≠ n - 1) (hs : s.Holds n i)

include hm hs

theorem plot_beginSuspension_ne : (beginSuspension s m).plot n i = s.plot n i := by
  unfold beginSuspension
  split
  · rfl
  · next l hl =>
    rw [plot_place_ne (holder_ne hs hm hl)]
    apply plot_modLease_ne hm
    intro _
    rfl

theorem plot_beginResumption_ne : (beginResumption s m).plot n i = s.plot n i := by
  unfold beginResumption
  split
  · rfl
  · next l hl =>
    have hi := holder_ne hs hm hl
    split
    · rfl
    · dsimp only
      split
      · rw [beginRevoking, plot_place_ne hi]
        repeat rw [plot_modLease_ne hm (by intro _; rfl)]
      · split
        · rw [plot_modLease_ne hm (by intro _; rfl)]
        · rw [plot_place_ne hi, plot_modLease_ne hm (by intro _; rfl)]

end elsewhere

/-! ### The arbiter -/

/-- The trial that is stopped is another station's: its own is QUALIFYING. -/
theorem plot_stopTrial (hs : s.Holds n i) : (stopTrial s).plot n i = s.plot n i := by
  unfold stopTrial
  split
  · rfl
  · next x _ =>
    dsimp only
    split
    · next hqual =>
      refine plot_place_ne (fun e => ?_) _ _
      have hready : (s.entry x.entry).state = .ready := e ▸ hs.ready
      have hstate : (s.entry x.entry).state = .qualifying := hqual
      rw [hready] at hstate
      cases hstate
    · rfl

theorem plot_takePower (m : Nat) (s : State) : (takePower s m).plot n i = s.plot n i := by
  apply plot_modLease
  intro _
  rfl

theorem plot_followEntitlement (m : Nat) (s : State) : (followEntitlement s m).plot n i = s.plot n i := by
  apply plot_modLease
  intro _
  rfl

theorem plot_givePower (m : Nat) (s : State) : (givePower s m).plot n i = s.plot n i := by
  unfold givePower
  split
  · rfl
  · dsimp only
    split
    · rfl
    · apply plot_modLease
      intro _
      rfl

theorem plot_followDemand (b : State) (m : Nat) (s : State) : (followDemand b s m).plot n i = s.plot n i := by
  unfold followDemand
  repeat' split
  · rfl
  all_goals apply plot_modLease; intro _; rfl

theorem core_settledState (valid : Bool) (l : Lease) :
    ({ l with state := settledState valid l } : Lease).core = l.core := by
  have hstate : (if (settledState valid l).isRunning then LeaseState.admitted else settledState valid l) =
      if l.state.isRunning then .admitted else l.state := by
    unfold settledState
    by_cases hrun : l.state.isRunning = true
    · rw [if_pos hrun, if_pos hrun]
      split <;> rfl
    · rw [if_neg hrun, if_neg hrun]
  unfold Lease.core
  simp only [hstate]

/-- What a lease's core tells of it. -/
theorem same_of_core {l l' : Lease} (h : l'.core = l.core) :
    l'.state.isHeating = l.state.isHeating ∧ (l'.state = .offered ↔ l.state = .offered) ∧
      (l'.state = .revoking ↔ l.state = .revoking) ∧ (l'.state = .suspended ↔ l.state = .suspended) ∧
      l'.saved = l.saved ∧ l'.budget = l.budget ∧ l'.ceiling = l.ceiling := by
  have hstates : ∀ a b : LeaseState,
      (if a.isRunning then LeaseState.admitted else a) = (if b.isRunning then .admitted else b) →
      a.isHeating = b.isHeating ∧ (a = .offered ↔ b = .offered) ∧ (a = .revoking ↔ b = .revoking) ∧
        (a = .suspended ↔ b = .suspended) := by
    intro a b
    cases a <;> cases b <;> decide
  obtain ⟨hheat, hoffered, hrevoking, hsuspended⟩ := hstates l'.state l.state (congrArg Lease.state h)
  exact ⟨hheat, hoffered, hrevoking, hsuspended, (congrArg Lease.saved h :), (congrArg Lease.budget h :),
    (congrArg Lease.ceiling h :)⟩

/-- The lease in a slot whose core stands. -/
theorem lease_of_core (h : t.core n = s.core n) {l : Lease} (hl : s.lease? n = some l) :
    ∃ l', t.lease? n = some l' ∧ l'.core = l.core := by
  have hcore : (t.lease? n).map Lease.core = (s.lease? n).map Lease.core := congrArg LeaseSlot.lease h
  rw [hl] at hcore
  exact Option.map_eq_some_iff.mp hcore

theorem isOwn_setRate (h : Handle) (rate : Nat) : (LinkCmd.setRate h rate).isOwn h = true := by
  simp [LinkCmd.isOwn, LinkCmd.isSetRate]

theorem isOwn_resume (h : Handle) (rate : Nat) : (LinkCmd.resume h rate).isOwn h = true := by
  simp [LinkCmd.isOwn, LinkCmd.isResume]

/-- Two slots of the table in one place are one. -/
theorem slot_eq (hs : s.Holds n i) {m : Nat} (hm : 1 ≤ m) (h : m - 1 = n - 1) : m = n := by
  have := hs.slot.1
  omega

/-- A heating lease's own station, or another's, is told of it. -/
theorem turns_told {m : Nat} (hm : 1 ≤ m) (hs : s.Holds n i) {l : Lease} (hl : s.lease? m = some l) {c : LinkCmd}
    (hheat : l.state.isHeating = true) (hc : c.isOwn (s.leaseHandle m) = true) : Turns n i s (place l.holder c s) := by
  by_cases hmn : m - 1 = n - 1
  · obtain rfl := slot_eq hs hm hmn
    rw [holder_eq hs hl]
    exact .single (.told hl hheat hc)
  · exact turns_of_plot (plot_place_ne (holder_ne hs hmn hl) _ _)

theorem turns_publishRate (b : State) {m : Nat} (hm : 1 ≤ m) (hs : s.Holds n i) : Turns n i s (publishRate b s m) := by
  unfold publishRate
  split
  · exact .refl
  · next l hl =>
    have hsettled : (s.modLease m fun l => { l with state := settledState s.map.valid l }).plot n i = s.plot n i :=
      plot_modLease m (core_settledState s.map.valid) s
    have hturns := turns_of_plot hsettled
    dsimp only
    split
    · next hheat =>
      have hheat := (Bool.and_eq_true_iff.mp hheat).1
      have hhandle : (s.modLease m fun l => { l with state := settledState s.map.valid l }).leaseHandle m =
          s.leaseHandle m := by
        rw [State.leaseHandle, leaseSlot_modLease]
        rfl
      have hl1 : (s.modLease m fun l => { l with state := settledState s.map.valid l }).lease? m =
          some { l with state := settledState s.map.valid l } := by
        rw [lease_modLease, hl]
        rfl
      refine hturns.trans (turns_told hm (holds_of_turns hturns hs) hl1 ?_ (hhandle ▸ isOwn_setRate _ _))
      exact (same_of_core (core_settledState s.map.valid l)).1.trans hheat
    · exact hturns

theorem turns_removeExcess (hs : s.Holds n i) : Turns n i s (removeExcess s) := by
  have htaken :=
    turns_of_plot (foldl_keeps (State.plot · n i) takePower (fun s m => plot_takePower m s) s.removalOrder s)
  unfold removeExcess
  dsimp only
  split
  · exact htaken.trans (turns_of_plot (plot_stopTrial (holds_of_turns htaken hs)))
  · exact htaken

theorem turns_settle (b : State) (hs : s.Holds n i) : Turns n i s (settle b s) := by
  unfold settle
  extract_lets s1 s2 s3 s4
  have h1 : Turns n i s s1 :=
    turns_of_plot (foldl_keeps (State.plot · n i) _ (fun s m => plot_followEntitlement m s) _ _)
  have h2 : Turns n i s s2 :=
    h1.trans (turns_of_plot (foldl_keeps (State.plot · n i) _ (fun s m => plot_followDemand b m s) _ _))
  have h3 : Turns n i s s3 := by
    unfold s3
    split
    · exact h2.trans (turns_removeExcess (holds_of_turns h2 hs))
    · exact h2
  have h4 : Turns n i s s4 :=
    h3.trans (turns_of_plot (foldl_keeps (State.plot · n i) _ (fun s m => plot_givePower m s) _ _))
  refine h4.trans (turns_foldl (fun u m hm hu => turns_publishRate b ?_ hu) (holds_of_turns h4 hs))
  exact (by decide : ∀ m ∈ upTo8, 1 ≤ m) m hm

theorem turns_settling {f : State → State} (hf : Turns n i s (f s)) (hs : s.Holds n i) : Turns n i s (settling f s) :=
  hf.trans (turns_settle s (holds_of_turns hf hs))

/-! ### Finishing (§4.7) -/

section finishing

variable {m : Nat} (hm : 1 ≤ m) (hs : s.Holds n i) {l : Lease} (hl : s.lease? m = some l)

include hm hs hl

theorem turns_beginFinishing (hrun : l.state.isRunning = true) : Turns n i s (beginFinishing m s) := by
  by_cases hmn : m - 1 = n - 1
  · obtain rfl := slot_eq hs hm hmn
    exact .single (.finishing hl hrun)
  · refine turns_of_plot ?_
    unfold beginFinishing
    rw [plot_modLease_ne hmn (by intro _; rfl)]

theorem turns_beginRevoking (r : LeaseOutcome) (hfin : l.state = .finishing) : Turns n i s (beginRevoking m l r s) := by
  by_cases hmn : m - 1 = n - 1
  · obtain rfl := slot_eq hs hm hmn
    exact .single (.ended r hl hfin)
  · exact turns_of_plot (plot_beginRevoking_ne hmn (holder_ne hs hmn hl) r s)

/-- A lease that recharges is told its rate once the arbiter has acted. -/
theorem turns_recharge (hfin : l.state = .finishing) : Turns n i s (recharge m s) := by
  unfold recharge
  extract_lets s1
  have hcharged : Turns n i s (s.modLease m fun l => { l with state := .admitted, hold := none }) := by
    by_cases hmn : m - 1 = n - 1
    · obtain rfl := slot_eq hs hm hmn
      exact .single (.recharged hl hfin)
    · refine turns_of_plot ?_
      rw [plot_modLease_ne hmn (by intro _; rfl)]
  have hsettled : Turns n i s s1 := turns_settling hcharged hs
  have hcore : s1.core m = (s.modLease m fun l => { l with state := .admitted, hold := none }).core m :=
    core_settling _ _ _
  have hl1 : (s.modLease m fun l => { l with state := .admitted, hold := none }).lease? m =
      some { l with state := .admitted, hold := none } := by
    rw [lease_modLease, hl]
    rfl
  obtain ⟨l', hl', hcore'⟩ := lease_of_core hcore hl1
  rw [hl']
  exact hsettled.trans (turns_told hm (holds_of_turns hsettled hs) hl' (same_of_core hcore').1 (isOwn_setRate _ _))

end finishing

theorem turns_endZeroHold {m : Nat} (hm : 1 ≤ m) (hs : s.Holds n i) : Turns n i s (endZeroHold m s) := by
  unfold endZeroHold
  split
  · exact .refl
  · next l hl =>
    split
    · next hfin => exact turns_settling (turns_beginRevoking hm hs hl _ hfin.1) hs
    · exact .refl

theorem turns_testFinishing {m : Nat} (hm : 1 ≤ m) (hs : s.Holds n i) : Turns n i s (testFinishing m s) := by
  unfold testFinishing
  split
  · exact .refl
  · next l hl =>
    split
    · next hmet =>
      have hrun : l.state.isRunning = true := by
        simp only [Bool.and_eq_true] at hmet
        exact hmet.1.1
      have hbegun := turns_settling (turns_beginFinishing hm hs hl hrun) hs
      exact hbegun.trans (turns_endZeroHold hm (holds_of_turns hbegun hs))
    · split
      · next hfin => exact turns_recharge hm hs hl (beq_iff_eq.mp (Bool.and_eq_true_iff.mp hfin).1)
      · exact .refl

theorem turns_testFinishingUnlessSanitise {m : Nat} (hm : 1 ≤ m) (hs : s.Holds n i) :
    Turns n i s (testFinishingUnlessSanitise m s) := by
  unfold testFinishingUnlessSanitise
  split
  · exact .refl
  · exact turns_testFinishing hm hs

/-! ### The overlap (§6.1) -/

/-- A slot to be suspended holds a heating lease. -/
theorem heating_of_toSuspend (h : n ∈ s.toSuspend) : ∃ l, s.lease? n = some l ∧ l.state.isHeating = true := by
  obtain ⟨l, hl, hp⟩ := (Option.any_eq_true _ _).mp (List.mem_filter.mp h).2
  simp only [Bool.and_eq_true] at hp
  exact ⟨l, hl, hp.1.1.2⟩

/-- Suspensions one after the other, each of a lease that heats as its turn comes. -/
theorem turns_suspensions {slots : List Nat} (hnodup : slots.Nodup) (hpos : ∀ m ∈ slots, 1 ≤ m) (hs : s.Holds n i)
    (hheat : n ∈ slots → ∃ l, s.lease? n = some l ∧ l.state.isHeating = true) :
    Turns n i s (slots.foldl beginSuspension s) := by
  induction slots generalizing s with
  | nil => exact .refl
  | cons m slots ih =>
    obtain ⟨hnot, hnodup⟩ := List.nodup_cons.mp hnodup
    have hpos' : ∀ k ∈ slots, 1 ≤ k := fun k hk => hpos k (List.mem_cons_of_mem m hk)
    rw [List.foldl_cons]
    by_cases hmn : m - 1 = n - 1
    · obtain rfl := slot_eq hs (hpos m List.mem_cons_self) hmn
      obtain ⟨l, hl, hl'⟩ := hheat List.mem_cons_self
      have hturn : Turns m i s (beginSuspension s m) := .single (.suspended hl hl')
      exact hturn.trans (ih hnodup hpos' (holds_of_turns hturn hs) fun hn => absurd hn hnot)
    · have hplot := plot_beginSuspension_ne hmn hs
      have hturn := turns_of_plot hplot
      refine hturn.trans (ih hnodup hpos' (holds_of_turns hturn hs) fun hn => ?_)
      obtain ⟨l, hl, hl'⟩ := hheat (List.mem_cons_of_mem m hn)
      obtain ⟨l1, hl1, hcore⟩ := lease_of_core (plot_eq_iff.mp hplot).2.2.1 hl
      exact ⟨l1, hl1, (same_of_core hcore).1.trans hl'⟩

theorem turns_beginResumption {m : Nat} (hm : 1 ≤ m) (hs : s.Holds n i) : Turns n i s (beginResumption s m) := by
  by_cases hmn : m - 1 = n - 1
  · obtain rfl := slot_eq hs hm hmn
    obtain ⟨l, hl, -⟩ := hs.lease
    cases hsaved : l.saved with
    | none =>
      have hnone : beginResumption s m = s := by
        unfold beginResumption
        rw [hl]
        dsimp only
        rw [hsaved]
      rw [hnone]
    | some ctx => exact .single (.resumed hl hsaved)
  · exact turns_of_plot (plot_beginResumption_ne hmn hs)

theorem turns_announceResume {m : Nat} (hm : 1 ≤ m) (hs : s.Holds n i) : Turns n i s (announceResume s m) := by
  unfold announceResume
  split
  · exact .refl
  · next l hl =>
    split
    · next hheat => exact turns_told hm hs hl hheat (isOwn_resume _ _)
    · exact .refl

theorem turns_actOnOverlap (b : State) (hs : s.Holds n i) : Turns n i s (actOnOverlap b s) := by
  have hback : ∀ m ∈ s.toResume, 1 ≤ m := fun m hm => (by decide : ∀ m ∈ upTo8, 1 ≤ m) m (List.mem_filter.mp hm).1
  have hsus : ∀ m ∈ s.toSuspend, 1 ≤ m := fun m hm => (by decide : ∀ m ∈ upTo8, 1 ≤ m) m (List.mem_filter.mp hm).1
  unfold actOnOverlap
  extract_lets back s1 s2 s3 s4
  have h1 : Turns n i s s1 :=
    turns_suspensions ((by decide : upTo8.Nodup).filter _) hsus hs fun hn => heating_of_toSuspend hn
  have h2 : Turns n i s s2 :=
    h1.trans (turns_foldl (fun u m hm hu => turns_beginResumption (hback m hm) hu) (holds_of_turns h1 hs))
  have h3 : Turns n i s s3 := h2.trans (turns_settle b (holds_of_turns h2 hs))
  have h4 : Turns n i s s4 :=
    h3.trans (turns_foldl (fun u m hm hu => turns_announceResume (hback m hm) hu) (holds_of_turns h3 hs))
  exact h4.trans (turns_foldl (fun u m hm hu => turns_testFinishing (hback m hm) hu) (holds_of_turns h4 hs))

theorem turns_testOverlap (hs : s.Holds n i) : Turns n i s (testOverlap s) := by
  unfold testOverlap
  split
  · exact .refl
  · exact turns_actOnOverlap s hs

theorem turns_callOffEvicted (hs : s.Holds n i) : Turns n i s (callOffEvicted s) := by
  unfold callOffEvicted
  repeat' split
  · exact .refl
  · exact turns_settling (turns_of_plot (plot_stopTrial hs)) hs
  · exact .refl

/-- What closes a step is a chain of turns. -/
theorem turns_closing (hs : s.Holds n i) : Turns n i s (closing s) := by
  have h1 := turns_testOverlap hs
  have h2 := h1.trans (turns_callOffEvicted (holds_of_turns h1 hs))
  exact h2.trans (turns_of_plot rfl)

end Sys2Proof.Machine

/-! What a chain of turns leaves of a lease: an OFFERED one stands with its holder's queue; of one past OFFERED
the AMEND waits
until it is in REVOKING (R54, R109, R143). -/

namespace Sys2Proof.Machine

variable {n i : Nat} {s t : State} {B : Option (Option Nat)}

/-! ### A lease that stands OFFERED -/

/-- No turn is an OFFERED lease's own. -/
theorem plot_of_turns_offered {l : Lease} (hl : s.lease? n = some l) (hoffered : l.state = .offered)
    (hsaved : l.saved = none) (h : Turns n i s t) : t.plot n i = s.plot n i := by
  induction h with
  | refl => rfl
  | tail _ hturn ih =>
    obtain ⟨l1, hl1, hcore⟩ := lease_of_core (plot_eq_iff.mp ih).2.2.1 hl
    obtain ⟨-, hoff, -, -, hsav, -⟩ := same_of_core hcore
    have hoffered1 := hoff.mpr hoffered
    have hsaved1 := hsav.trans hsaved
    cases hturn with
    | elsewhere h => exact h.trans ih
    | told hl2 hstate | suspended hl2 hstate | finishing hl2 hstate =>
      obtain rfl := Option.some.inj (hl1.symm.trans hl2)
      rw [hoffered1] at hstate
      cases hstate
    | ended _ hl2 hstate | recharged hl2 hstate =>
      obtain rfl := Option.some.inj (hl1.symm.trans hl2)
      rw [hoffered1] at hstate
      cases hstate
    | resumed hl2 hctx =>
      obtain rfl := Option.some.inj (hl1.symm.trans hl2)
      rw [hsaved1] at hctx
      cases hctx

/-! ### A lease past OFFERED -/

/-- A lease past OFFERED as the work on leases finds it: a saved context is that of a heating lease now SUSPENDED, and
where a budget is held to, no free heat has come since. -/
structure Lease.Underway (l : Lease) (B : Option (Option Nat)) (freeHeat : Nat) : Prop where
  past : l.state ≠ .offered
  saved : ∀ ctx, l.saved = some ctx →
    l.state = .suspended ∧ ctx.state.isHeating = true ∧ (B.isSome = true → ctx.freeMark = freeHeat)
  budget : ∀ b, B = some b → l.budget = b

/-- The AMEND of the lease in slot `n` waits among station `i`'s commands, unless the lease is in REVOKING. -/
def State.amended (s : State) (n i : Nat) (B : Option (Option Nat)) : Prop :=
  ∃ l, s.lease? n = some l ∧ l.Underway B s.admission.freeHeat ∧
    (l.state ≠ .revoking → Tended (s.leaseHandle n) (s.amendOf n l) (s.station i).queue)

theorem leaseHandle_modLease (n m : Nat) (f : Lease → Lease) (s : State) :
    (s.modLease m f).leaseHandle n = s.leaseHandle n := by
  by_cases h : m - 1 = n - 1
  · have e : ∀ u : State, u.leaseSlot n = u.leaseSlot m := by
      intro u
      rw [State.leaseSlot, State.leaseSlot, h]
    rw [State.leaseHandle, State.leaseHandle, e, e, leaseSlot_modLease]
  · rw [State.leaseHandle, State.leaseHandle, leaseSlot_modLease_ne h]

theorem leaseHandle_place (i : Nat) (c : LinkCmd) (s : State) (n : Nat) :
    (place i c s).leaseHandle n = s.leaseHandle n := by
  rw [State.leaseHandle, State.leaseHandle, State.leaseSlot, State.leaseSlot, admission_place]

theorem freeHeat_of_calm (h : t.calm = s.calm) : t.admission.freeHeat = s.admission.freeHeat := by
  obtain ⟨-, -, -, -, -, -, -, -, -, hdesk, -⟩ := calm_eq_iff.mp h
  exact (congrArg Admission.freeHeat hdesk :)

theorem amended_of_plot (h : t.plot n i = s.plot n i) (hs : s.amended n i B) : t.amended n i B := by
  obtain ⟨hcalm, hshelf, hcore, hqueue⟩ := plot_eq_iff.mp h
  obtain ⟨l, hl, hway, htended⟩ := hs
  obtain ⟨l1, hl1, hcore1⟩ := lease_of_core hcore hl
  obtain ⟨-, hoffered, hrevoking, hsuspended, hsaved, hbudget, hceiling⟩ := same_of_core hcore1
  refine ⟨l1, hl1, ⟨fun e => hway.past (hoffered.mp e), fun ctx hctx => ?_, fun b hb => ?_⟩, fun hrev => ?_⟩
  · obtain ⟨hsus, hheat, hmark⟩ := hway.saved ctx (hsaved ▸ hctx)
    exact ⟨hsuspended.mpr hsus, hheat, fun hB => (hmark hB).trans (freeHeat_of_calm hcalm).symm⟩
  · exact hbudget.trans (hway.budget b hb)
  · rw [hqueue, State.amendOf, leaseHandle_of_shelf hshelf, hceiling, hbudget]
    exact htended fun e => hrev (hrevoking.mpr e)

theorem holds_modLease {m : Nat} {f : Lease → Lease} (hroot : ∀ l, (f l).root = l.root) (hs : s.Holds n i) :
    (s.modLease m f).Holds n i := holds_of_shelf (t := s.modLease m f) (s := s) rfl (shelf_modLease m f hroot s) hs

/-- A lease changed in its place whose AMEND still says what it is to have. -/
theorem amended_modLease {f : Lease → Lease} {l : Lease} (hl : s.lease? n = some l)
    (hway : (f l).Underway B s.admission.freeHeat) (hceiling : (f l).ceiling = l.ceiling)
    (hbudget : (f l).budget = l.budget) (hrevoking : l.state ≠ .revoking) (hs : s.amended n i B) :
    (s.modLease n f).amended n i B := by
  obtain ⟨l', hl', -, htended⟩ := hs
  obtain rfl := Option.some.inj (hl.symm.trans hl')
  refine ⟨f l, by rw [lease_modLease, hl]; rfl, hway, fun _ => ?_⟩
  rw [State.amendOf, leaseHandle_modLease, hceiling, hbudget]
  exact htended hrevoking

theorem underway_of_unsaved {l : Lease} {freeHeat : Nat} (hpast : l.state ≠ .offered) (hsaved : l.saved = none)
    (hbudget : ∀ b, B = some b → l.budget = b) : l.Underway B freeHeat := by
  refine ⟨hpast, fun ctx hctx => ?_, hbudget⟩
  rw [hsaved] at hctx
  cases hctx

theorem Lease.Underway.unsaved {l : Lease} {freeHeat : Nat} (h : l.Underway B freeHeat)
    (hstate : l.state ≠ .suspended) :
    l.saved = none := Option.eq_none_iff_forall_not_mem.mpr fun ctx hctx => hstate (h.saved ctx hctx).1

/-- Of a lease that has gone to REVOKING nothing is asked. -/
theorem amended_of_revoking {l : Lease} (hl : t.lease? n = some l) (hrevoking : l.state = .revoking)
    (hsaved : l.saved = none) (hbudget : ∀ b, B = some b → l.budget = b) : t.amended n i B :=
  ⟨l, hl, underway_of_unsaved (by rw [hrevoking]; decide) hsaved hbudget, fun h => absurd hrevoking h⟩

/-- An own command placed leaves the AMEND in its queue. -/
theorem amended_place {c : LinkCmd} (hc : c.isOwn (s.leaseHandle n) = true) (hs : s.Holds n i) (h : s.amended n i B) :
    (place i c s).amended n i B := by
  obtain ⟨l, hl, hway, htended⟩ := h
  refine ⟨l, (lease?_place i c s n).trans hl, ?_, fun hrev => ?_⟩
  · rw [admission_place]
    exact hway
  · rw [queue_place hs.index.1 hs.index.2, State.amendOf, leaseHandle_place]
    exact tended_coalesce (bearing_of_holds hs) hc (htended hrev)

theorem lease_beginRevoking {l : Lease} (l0 : Lease) (r : LeaseOutcome) (hl : s.lease? n = some l) :
    ∃ l', (beginRevoking n l0 r s).lease? n = some l' ∧
      l'.state = .revoking ∧ l'.saved = none ∧ l'.budget = l.budget := by
  unfold beginRevoking
  rw [lease?_place, lease_modLease, hl]
  exact ⟨_, rfl, rfl, rfl, rfl⟩

theorem since32_self (a : Nat) : since32 a a = 0 := by
  unfold since32
  rw [Nat.add_sub_cancel_left]
  rfl

/-- A budget is not lowered where no free heat has come since the suspension (R109). -/
theorem adjustedBudget_self {l : Lease} {ctx : SavedContext} (h : ctx.freeMark = s.admission.freeHeat) :
    s.adjustedBudget l ctx = l.budget := by
  unfold State.adjustedBudget
  rw [h, since32_self]
  simp

theorem isOwn_suspend (h : Handle) : (LinkCmd.suspend h).isOwn h = true := by
  simp [LinkCmd.isOwn, LinkCmd.isSuspend]

theorem not_revoking_of_heating {l : Lease} (h : l.state.isHeating = true) : l.state ≠ .revoking := by
  intro e
  rw [e] at h
  cases h

theorem amended_suspended {l : Lease} (hl : s.lease? n = some l) (hheat : l.state.isHeating = true) (hs : s.Holds n i)
    (h : s.amended n i B) : (beginSuspension s n).amended n i B := by
  obtain ⟨l', hl', hway, -⟩ := id h
  obtain rfl := Option.some.inj (hl.symm.trans hl')
  unfold beginSuspension
  rw [hl]
  dsimp only
  rw [holder_eq hs hl]
  refine amended_place ?_ (holds_modLease (by intro _; rfl) hs) (amended_modLease hl ?_ rfl rfl ?_ h)
  · rw [leaseHandle_modLease]
    exact isOwn_suspend _
  · refine ⟨nofun, fun ctx hctx => ?_, hway.budget⟩
    obtain rfl := Option.some.inj hctx
    exact ⟨rfl, hheat, fun _ => rfl⟩
  · exact not_revoking_of_heating hheat

/-- A new AMEND of the lease placed waits in its queue. -/
theorem amended_placeAmend {l : Lease} (hs : s.Holds n i) (hl : s.lease? n = some l)
    (hway : l.Underway B s.admission.freeHeat) (ht : Tidy (s.leaseHandle n) (s.station i).queue) :
    (place i (s.amendOf n l) s).amended n i B := by
  refine ⟨l, (lease?_place _ _ s n).trans hl, ?_, fun _ => ?_⟩
  · rw [admission_place]
    exact hway
  · rw [queue_place hs.index.1 hs.index.2, State.amendOf, State.amendOf, leaseHandle_place]
    exact ⟨waits_replaceOrEnqueue, tidy_placeAmend ht⟩

theorem amended_resumed {l : Lease} {ctx : SavedContext} (hl : s.lease? n = some l) (hsaved : l.saved = some ctx)
    (hs : s.Holds n i) (h : s.amended n i B) : (beginResumption s n).amended n i B := by
  obtain ⟨l', hl', hway, htended⟩ := id h
  obtain rfl := Option.some.inj (hl.symm.trans hl')
  obtain ⟨hsuspended, hheat, hmark⟩ := hway.saved ctx hsaved
  have hnot : l.state ≠ .revoking := by rw [hsuspended]; decide
  have hbudget : ∀ b, B = some b → s.adjustedBudget l ctx = b := fun b hb =>
    (adjustedBudget_self (hmark (by rw [hb]; rfl))).trans (hway.budget b hb)
  have hpast : ctx.state ≠ .offered := by
    intro e
    rw [e] at hheat
    cases hheat
  unfold beginResumption
  rw [hl]
  dsimp only
  rw [hsaved]
  dsimp only
  split
  · have hl1 : (s.modLease n fun x => { x with budget := s.adjustedBudget l ctx }).lease? n =
        some { l with budget := s.adjustedBudget l ctx } := by
      rw [lease_modLease, hl]
      rfl
    obtain ⟨l2, hl2, hrevoking, hsaved2, hbudget2⟩ := lease_beginRevoking l .satisfiedByFree hl1
    exact amended_of_revoking hl2 hrevoking hsaved2 fun b hb => hbudget2.trans (hbudget b hb)
  · split
    · next hsame => exact amended_modLease hl (underway_of_unsaved hpast rfl hbudget) rfl hsame hnot h
    · rw [holder_eq hs hl, ← leaseHandle_modLease n n]
      refine amended_placeAmend (l := { l with
        state := ctx.state, timer := ctx.timer, hold := ctx.hold, saved := none, budget := s.adjustedBudget l ctx
        granted := 0, waiting := s.drawsBudget l }) (holds_modLease (by intro _; rfl) hs) ?_
        (underway_of_unsaved hpast rfl hbudget) ?_
      · rw [lease_modLease, hl]
        rfl
      · rw [leaseHandle_modLease]
        exact (htended hnot).2

theorem amended_finishing {l : Lease} (hl : s.lease? n = some l) (hrun : l.state.isRunning = true)
    (h : s.amended n i B) : (beginFinishing n s).amended n i B := by
  obtain ⟨l', hl', hway, -⟩ := id h
  obtain rfl := Option.some.inj (hl.symm.trans hl')
  have hstate : l.state ≠ .suspended ∧ l.state ≠ .revoking := by
    constructor <;> (intro e; rw [e] at hrun; cases hrun)
  unfold beginFinishing
  refine amended_modLease hl (underway_of_unsaved nofun (hway.unsaved hstate.1) hway.budget) ?_ ?_ hstate.2 h
  · rfl
  · rfl

theorem amended_recharged {l : Lease} (hl : s.lease? n = some l) (hfin : l.state = .finishing)
    (h : s.amended n i B) : (s.modLease n fun l => { l with state := .admitted, hold := none }).amended n i B := by
  obtain ⟨l', hl', hway, -⟩ := id h
  obtain rfl := Option.some.inj (hl.symm.trans hl')
  have hstate : l.state ≠ .suspended ∧ l.state ≠ .revoking := by
    rw [hfin]
    decide
  refine amended_modLease hl (underway_of_unsaved nofun (hway.unsaved hstate.1) hway.budget) ?_ ?_ hstate.2 h
  · rfl
  · rfl

/-- Every turn keeps the AMEND waiting, or ends in REVOKING. -/
theorem amended_of_turn (hturn : Turn n i s t) (hs : s.Holds n i) (h : s.amended n i B) : t.amended n i B := by
  obtain ⟨l0, hl0, hway, -⟩ := id h
  cases hturn with
  | elsewhere hplot => exact amended_of_plot hplot h
  | told hl hheat hc => exact amended_place hc hs h
  | suspended hl hheat => exact amended_suspended hl hheat hs h
  | resumed hl hsaved => exact amended_resumed hl hsaved hs h
  | finishing hl hrun => exact amended_finishing hl hrun h
  | ended r hl hfin =>
    obtain ⟨l', hl', hstate, hsaved, hbudget⟩ := lease_beginRevoking _ r hl
    obtain rfl := Option.some.inj (hl0.symm.trans hl)
    exact amended_of_revoking hl' hstate hsaved fun b hb => hbudget.trans (hway.budget b hb)
  | recharged hl hfin => exact amended_recharged hl hfin h

theorem amended_of_turns (hturns : Turns n i s t) (hs : s.Holds n i) (h : s.amended n i B) : t.amended n i B := by
  induction hturns with
  | refl => exact h
  | tail hbefore hturn ih => exact amended_of_turn hturn (holds_of_turns hbefore hs) ih

end Sys2Proof.Machine

/-! The top-up decision of a pass that has one candidate: the state it is taken in, and what of that state it reads (R51
to R56). -/

namespace Sys2Proof.Machine

variable {n i : Nat} {s t u : State} {p : Pass} {r : PassRecord} {v : Verdict}

/-! ### What the verdicts leave of a candidate -/

/-- A record that is still under its handle after a change of its slot. -/
theorem recordOf?_of_record {h : Handle} {x x' : Reservation} (hx : s.recordOf? h = some x)
    (hissue : (t.bookSlot h.slot).issue = (s.bookSlot h.slot).issue) (hx' : t.record? h.slot = some x') :
    t.recordOf? h = some x' := by
  unfold State.recordOf? at hx
  split at hx
  · next hlive =>
    rw [State.recordOf?, hissue, if_pos hlive, hx']
  · cases hx

theorem isOpen_verdict (v : Verdict) : v.state.isOpen = true := by
  unfold Verdict.state
  split <;> rfl

/-- The verdicts of a pass that name one slot are one. -/
theorem verdict_unique (hp : p.InOrder) {q q' : PassRecord × Verdict} (hq : q ∈ p.results.1) (hq' : q' ∈ p.results.1)
    (h : q.1.handle.slot = q'.1.handle.slot) : q = q' := List.inj_on_of_nodup_map hp.nodup hq hq' h

theorem bookSlot_written_of_none (hp : p.InOrder) {q : PassRecord × Verdict} (hq : q ∈ p.results.1)
    (hnone : s.passRecord? p q.1 = none) : (p.written s).bookSlot q.1.handle.slot = s.bookSlot q.1.handle.slot := by
  refine (bookSlot_of_book (book_written p s) _).trans ?_
  refine bookSlot_foldl_writeVerdict (fun q' hq' => (hp.pos q' hq').1) (hp.pos q hq).1 fun q' hq' h => ?_
  rw [verdict_unique hp hq' hq h]
  exact hnone

theorem bookSlot_written (hp : p.InOrder) {q : PassRecord × Verdict} (hq : q ∈ p.results.1) {x : Reservation}
    (hx : s.passRecord? p q.1 = some x) :
    (p.written s).bookSlot q.1.handle.slot =
      { issue := (s.bookSlot q.1.handle.slot).issue
        record := some { x with state := q.2.state, figures := q.2.figures } } :=
  (bookSlot_of_book (book_written p s) _).trans (bookSlot_judged hp hq hx)

/-- A record with its verdict still takes it. -/
theorem passRecord?_written (hp : p.InOrder) {q : PassRecord × Verdict} (hq : q ∈ p.results.1) :
    (p.written s).passRecord? p q.1 =
      (s.passRecord? p q.1).map fun x => { x with state := q.2.state, figures := q.2.figures } := by
  cases hx : s.passRecord? p q.1 with
  | none => exact (passRecord?_of_slot (bookSlot_written_of_none hp hq hx)).trans hx
  | some x =>
    obtain ⟨-, -, hof⟩ := passRecord?_eq_some hx
    have hslot := bookSlot_written hp hq hx
    have hwritten := recordOf?_of_record hof (congrArg BookSlot.issue hslot :) (congrArg BookSlot.record hslot :)
    unfold State.passRecord? at hx ⊢
    split at hx
    · cases hx
    · rw [if_neg ‹_›, hwritten]
      exact Option.filter_eq_some_iff.mpr ⟨rfl, isOpen_verdict q.2⟩

/-- Whether a record is a candidate is not a matter of its verdict being written. -/
theorem isCandidate_written (hp : p.InOrder) {q : PassRecord × Verdict} (hq : q ∈ p.results.1) :
    (p.written s).isCandidate p q = s.isCandidate p q := by
  unfold State.isCandidate
  rw [passRecord?_written hp hq, Option.any_map]

theorem isCandidate_of_slot {q : PassRecord × Verdict} (h : t.bookSlot q.1.handle.slot = s.bookSlot q.1.handle.slot) :
    t.isCandidate p q = s.isCandidate p q := by
  unfold State.isCandidate
  rw [passRecord?_of_slot h]

/-! ### One decision -/

theorem book_of_calm (h : t.calm = s.calm) : t.book = s.book := (calm_eq_iff.mp h).2.1

/-- The state in which a join makes its tests: the lease enlarged, the record linked and the AMEND placed. -/
def State.enlarged (s : State) (n : Nat) (h : Handle) (target : Temp) (deficit : Nat) : State :=
  setTopUp h (s.leaseHandle n) (s.modLease n fun l => l.joined h target deficit)

theorem join_eq {l : Lease} (hl : s.lease? n = some l) (h : Handle) (target : Temp) (deficit : Nat) :
    join n h target deficit s =
      testOverlap (testFinishing n (place l.holder
        ((s.enlarged n h target deficit).amendOf n (l.joined h target deficit)) (s.enlarged n h target deficit))) := by
  have hl1 : (s.enlarged n h target deficit).lease? n = some (l.joined h target deficit) := by
    have h1 := lease_modLease n (fun l => l.joined h target deficit) s
    rw [hl] at h1
    exact h1
  unfold join
  dsimp only
  rw [← State.enlarged, hl1]
  rfl

theorem book_join {l : Lease} (hl : s.lease? n = some l) (h : Handle) (target : Temp) (deficit : Nat) :
    (join n h target deficit s).book = (setTopUp h (s.leaseHandle n) s).book := by
  rw [join_eq hl]
  exact (book_of_calm ((calm_testOverlap _).trans ((calm_testFinishing _ _).trans (calm_place _ _ _)))).trans rfl

theorem book_openOffered {l : Lease} {h : Handle} (e : openOffered l s = some (h, t)) : t.book = s.book := by
  obtain ⟨n, l1, -, -, -, rfl⟩ := openOffered_eq_some e
  rw [book_of_calm (calm_place _ _ _), noteEligible_eq]
  rfl

theorem bookSlot_setTopUp_ne {h lease : Handle} (hne : h.slot - 1 ≠ n - 1) (s : State) :
    (setTopUp h lease s).bookSlot n = s.bookSlot n := bookSlot_modRecord_ne hne _ s

/-- A decision touches its own record's slot alone. -/
theorem bookSlot_decideTopUp_ne {acc : State × Bool} {q : PassRecord × Verdict} (hne : q.1.handle.slot - 1 ≠ n - 1) :
    (decideTopUp p acc q).1.bookSlot n = acc.1.bookSlot n := by
  unfold decideTopUp
  dsimp only
  split
  · split
    · next m hm =>
      obtain ⟨-, -, l, hl, -⟩ := mayJoin_of_joinTarget hm
      exact (bookSlot_of_book (book_join hl _ _ _) n).trans (bookSlot_setTopUp_ne hne acc.1)
    · split
      · rfl
      · split
        · rfl
        · unfold openTopUp
          split
          · split
            · rfl
            · next e =>
              exact (bookSlot_setTopUp_ne hne _).trans (bookSlot_of_book (book_openOffered e) n)
          · rfl
  · rfl

theorem foldl_decideTopUp_none {l : List (PassRecord × Verdict)} {acc : State × Bool}
    (h : ∀ q ∈ l, acc.1.isCandidate p q = false) : l.foldl (decideTopUp p) acc = acc := by
  induction l with
  | nil => rfl
  | cons q l ih =>
    have hfirst : decideTopUp p acc q = acc := by
      unfold decideTopUp
      dsimp only
      rw [h q List.mem_cons_self, if_neg Bool.false_ne_true]
    rw [List.foldl_cons, hfirst]
    exact ih fun q' hq' => h q' (List.mem_cons_of_mem q hq')

/-- Where a pass has one candidate, its decision is the only one. -/
theorem decided_of_only (hp : p.InOrder) (hr : (r, v) ∈ p.results.1)
    (honly : ∀ x ∈ p.results.1, s.isCandidate p x = true → x = (r, v)) :
    p.decided s = (decideTopUp p (p.written s, false) (r, v)).1 := by
  have hnot : ∀ q ∈ p.results.1, q ≠ (r, v) → (p.written s).isCandidate p q = false := by
    intro q hq hne
    rw [isCandidate_written hp hq, Bool.eq_false_iff]
    exact fun hc => hne (honly q hq hc)
  have hr1 : 1 ≤ r.handle.slot := (hp.pos _ hr).1
  have hslots : ∀ q ∈ p.results.1, q ≠ (r, v) → r.handle.slot - 1 ≠ q.1.handle.slot - 1 := by
    intro q hq hne hslot
    have hq1 := (hp.pos q hq).1
    exact hne (verdict_unique hp hq hr (show q.1.handle.slot = r.handle.slot by omega))
  have hnodup : p.results.1.Nodup := hp.nodup.of_map _
  unfold Pass.decided
  generalize p.written s = u at hnot ⊢
  generalize p.results.1 = l at hr hnot hslots hnodup
  obtain ⟨before, after, rfl⟩ := List.append_of_mem hr
  obtain ⟨hfresh, -⟩ := List.nodup_cons.mp (List.nodup_middle.mp hnodup)
  have hother : ∀ q ∈ before ++ after, q ∈ before ++ (r, v) :: after ∧ q ≠ (r, v) := by
    intro q hq
    refine ⟨?_, fun e => hfresh (e ▸ hq)⟩
    exact (List.mem_append.mp hq).elim (List.mem_append_left _) fun hq =>
      List.mem_append_right _ (List.mem_cons_of_mem _ hq)
  have hbefore : ∀ q ∈ before, u.isCandidate p q = false := fun q hq =>
    have ⟨hmem, hne⟩ := hother q (List.mem_append_left _ hq)
    hnot q hmem hne
  have hafter : ∀ q ∈ after, (decideTopUp p (u, false) (r, v)).1.isCandidate p q = false := fun q hq =>
    have ⟨hmem, hne⟩ := hother q (List.mem_append_right _ hq)
    (isCandidate_of_slot (bookSlot_decideTopUp_ne (hslots q hmem hne))).trans (hnot q hmem hne)
  have hfold : ∀ f : State × Bool → PassRecord × Verdict → State × Bool, before.foldl f (u, false) = (u, false) →
      after.foldl f (f (u, false) (r, v)) = f (u, false) (r, v) →
      (before ++ (r, v) :: after).foldl f (u, false) = f (u, false) (r, v) := by
    intro f h1 h2
    rw [List.foldl_append, h1, List.foldl_cons, h2]
  exact congrArg Prod.fst
    (hfold (decideTopUp p) (foldl_decideTopUp_none (acc := (u, false)) hbefore) (foldl_decideTopUp_none hafter))

/-! ### What the decision reads -/

/-- What a top-up decision reads of a state beside the book. -/
structure State.sameDesk (s t : State) : Prop where
  admission : t.admission = s.admission
  roster : t.roster = s.roster
  link : t.link = s.link
  solar : t.solar = s.solar
  line : t.map.reserveLine = s.map.reserveLine
  valid : t.map.valid = s.map.valid

theorem sameDesk_written (p : Pass) (s : State) : s.sameDesk (p.written s) := by
  have h := beside_written p s
  exact ⟨(congrArg State.admission h :), (congrArg State.roster h :), (congrArg State.link h :),
    (congrArg State.solar h :), (congrArg (fun u => u.map.reserveLine) h :), (congrArg (fun u => u.map.valid) h :)⟩

section sameDesk

variable (h : s.sameDesk t)

include h

theorem lease?_of_sameDesk : t.lease? = s.lease? := funext (lease_of_admission h.admission)

theorem leaseSlot_of_sameDesk : t.leaseSlot = s.leaseSlot := by
  funext n
  rw [State.leaseSlot, State.leaseSlot, h.admission]

theorem station_of_sameDesk : t.station = s.station := by
  funext i
  rw [State.station, State.station, h.link]

theorem shelf_of_sameDesk : t.shelf = s.shelf := by
  rw [State.shelf, State.shelf, h.admission, h.link]

theorem leaseHandle_of_sameDesk (n : Nat) : t.leaseHandle n = s.leaseHandle n :=
  leaseHandle_of_shelf (shelf_of_sameDesk h) n

theorem holds_of_sameDesk (hs : s.Holds n i) : t.Holds n i :=
  holds_of_shelf (congrArg Roster.entries h.roster) (shelf_of_sameDesk h) hs

theorem entry_of_sameDesk : t.entry = s.entry := by
  funext i
  rw [State.entry, State.entry, h.roster]

theorem joinTarget_of_sameDesk (line depth : Nat) : t.joinTarget line depth = s.joinTarget line depth := by
  rw [State.joinTarget, State.joinTarget, lease?_of_sameDesk h]

theorem slotHeldBy_of_sameDesk : t.slotHeldBy = s.slotHeldBy := by
  funext i
  rw [State.slotHeldBy, State.slotHeldBy, lease?_of_sameDesk h]

theorem entryInlet_of_sameDesk : t.entryInlet = s.entryInlet := by
  funext i
  rw [State.entryInlet, State.entryInlet, h.solar, entry_of_sameDesk h]

theorem eligible_of_sameDesk : t.eligible = s.eligible := by
  funext i
  rw [State.eligible, State.eligible, entry_of_sameDesk h, h.line, entryInlet_of_sameDesk h, slotHeldBy_of_sameDesk h,
    h.admission]

theorem selectStation_of_sameDesk (preferred : Option Nat) (depth : Nat) :
    t.selectStation preferred depth = s.selectStation preferred depth := by
  have hrank : t.rankOf = s.rankOf := by
    funext i
    rw [State.rankOf, State.rankOf, entry_of_sameDesk h]
  rw [State.selectStation, State.selectStation, State.eligibleSet, State.eligibleSet, eligible_of_sameDesk h, hrank,
    entryInlet_of_sameDesk h]

theorem unallocated_of_sameDesk : t.unallocated = s.unallocated := by
  have hallocation : t.allocation = s.allocation := by
    funext l
    rw [State.allocation, State.allocation, State.drawsBudget, State.drawsBudget, entry_of_sameDesk h]
  rw [State.unallocated, State.unallocated, State.allocated, State.allocated, State.trialAllocation,
    State.trialAllocation, h.admission, h.roster, hallocation, lease?_of_sameDesk h, entry_of_sameDesk h]

theorem mayOpenBought_of_sameDesk (i : Nat) : t.mayOpenBought i = s.mayOpenBought i := by
  rw [State.mayOpenBought, State.mayOpenBought, State.mayOpen, State.mayOpen, State.budgetAllows, State.budgetAllows,
    eligible_of_sameDesk h, h.admission, h.valid, slotHeldBy_of_sameDesk h, entry_of_sameDesk h,
    unallocated_of_sameDesk h]

end sameDesk

/-! ### The station selected (R55) -/

theorem eligible_of_selectStation {preferred : Option Nat} {depth : Nat}
    (h : s.selectStation preferred depth = some i) : i ∈ s.eligibleSet := by
  unfold State.selectStation at h
  dsimp only at h
  split at h
  · next hpref =>
    obtain rfl := Option.some.inj h
    exact List.contains_iff_mem.mp (Option.filter_eq_some_iff.mp hpref).2
  · split at h
    · next hfirst =>
      obtain rfl := Option.some.inj h
      exact List.mem_of_mem_filter ((perm_sortBy _ _).mem_iff.mp (List.mem_of_head? hfirst))
    · exact (perm_sortBy _ _).mem_iff.mp ((perm_sortBy _ _).mem_iff.mp (List.mem_of_head? h))

/-- What an eligible station is (R52). -/
theorem mem_eligibleSet (h : i ∈ s.eligibleSet) :
    1 ≤ i ∧ i ≤ 7 ∧ s.eligible i = true ∧ (s.entry i).state = .ready ∧ s.slotHeldBy i = none ∧
      s.admission.halted = false := by
  obtain ⟨hindex, heligible⟩ := List.mem_filter.mp h
  obtain ⟨h1, h7⟩ := (by decide : ∀ i ∈ stationIndexes, 1 ≤ i ∧ i ≤ 7) i hindex
  have hall := heligible
  simp only [State.eligible, Bool.and_eq_true, beq_iff_eq, Option.isNone_iff_eq_none, Bool.not_eq_true'] at hall
  obtain ⟨⟨⟨⟨⟨hready, -⟩, -⟩, hfree⟩, -⟩, hhalted⟩ := hall
  exact ⟨h1, h7, heligible, hready, hfree, hhalted⟩

end Sys2Proof.Machine

/-! The decision of a pass on its only candidate: the lease joined, and what the end of the step leaves of
it (R54). -/

namespace Sys2Proof.Machine

variable {n i : Nat} {s t u : State} {p : Pass} {r : PassRecord} {v : Verdict}

/-! ### A table in order -/

theorem holds_of_tableInOrder (ht : s.tableInOrder) (h1 : 1 ≤ n) (h8 : n ≤ 8) {l : Lease} (hl : s.lease? n = some l)
    (hlink : l.holder ≠ 0) : s.Holds n l.holder := by
  obtain ⟨-, h7, hready, honly, -⟩ := ht.1 n l h1 h8 hl
  refine ⟨⟨h1, h8⟩, ⟨by omega, h7⟩, hready hlink, ⟨l, hl, rfl⟩, fun k l' hl' hi => ?_⟩
  by_cases hk : k ≤ 8
  · by_cases hk1 : 1 ≤ k
    · rw [honly k l' hk1 hk hl' hi]
    · rw [lease_of_place (n := k) (m := 1) (by omega)] at hl'
      have := honly 1 l' (by decide) (by decide) hl' hi
      omega
  · rw [State.lease?, State.leaseSlot, tget_of_le _ _ _ (by omega)] at hl'
    cases hl'

/-- Who takes a lease's seats: its AMEND, its SET RATE, and its SUSPEND or RESUME. -/
theorem command_of_seat? {h : Handle} {c : LinkCmd} {k : Nat} (hc : c.seat? h = some k) (h0 : k ≠ 0) :
    c.handle? = some h ∧
      (k = 1 ∧ c.code = 0x11#8 ∨ k = 2 ∧ c.code = 0x12#8 ∨ k = 3 ∧ (c = .suspend h ∨ ∃ rate, c = .resume h rate)) := by
  unfold LinkCmd.seat? at hc
  repeat' split at hc
  all_goals simp_all [LinkCmd.handle?, LinkCmd.code]

/-- A command that may not wait for a lease past OFFERED: its GRANT, its REVOKE, and another's SET RATE. -/
theorem command_of_seat?_zero {h : Handle} {c : LinkCmd} (hc : c.seat? h = some 0) :
    (∃ kind rate ceiling budget, c = .grant h kind rate ceiling budget) ∨ c = .revoke h ∨
      ∃ h' rate, c = .setRate h' rate ∧ h' ≠ h := by
  unfold LinkCmd.seat? at hc
  repeat' split at hc
  all_goals simp_all

/-- The commands that wait for a lease past OFFERED, and not in REVOKING, are in order (R142, R143). -/
theorem tidy_of_tableInOrder (ht : s.tableInOrder) (hs : s.Holds n i) {l : Lease} (hl : s.lease? n = some l)
    (hoffered : l.state ≠ .offered) (hrevoking : l.state ≠ .revoking) :
    Tidy (s.leaseHandle n) (s.station i).queue := by
  obtain ⟨-, -, -, -, -, -, -, -, -, -, -, -, hwait, -⟩ := ht.1 n l hs.slot.1 hs.slot.2 hl
  obtain ⟨-, -, -, -, -, -, -, hqueues⟩ := ht
  obtain ⟨hnames, hkinds, hpair, -⟩ := hqueues i hs.index.1 hs.index.2
  obtain rfl := holder_eq hs hl
  have hlink : l.holder ≠ 0 := by have := hs.index.1; omega
  have hzero : 0 ∉ seats (s.leaseHandle n) (s.station l.holder).queue := by
    intro h0
    obtain ⟨x, hx, hseat⟩ := mem_seats.mp h0
    rcases command_of_seat?_zero hseat with ⟨kind, rate, ceiling, budget, hc⟩ | hc | ⟨h', rate, hc, hne⟩
    · have hmay := hwait hlink x hx (by rw [hc]; rfl)
      rw [hc] at hmay
      exact hoffered (beq_iff_eq.mp hmay)
    · have hmay := hwait hlink x hx (by rw [hc]; rfl)
      rw [hc] at hmay
      simp only [LeaseState.mayWait, Bool.or_eq_true, beq_iff_eq] at hmay
      exact hmay.elim hoffered hrevoking
    · rcases hnames x hx h' (by rw [hc]; rfl) with hrevoke | hbears
      · rw [hc] at hrevoke
        cases hrevoke
      · have hnamed := (bearing_of_holds hs x.cmd).mp hbears
        rw [hc] at hnamed
        exact hne (Option.some.inj hnamed)
  refine ⟨List.pairwise_filterMap.mpr ?_, hzero⟩
  refine (List.pairwise_map.mp hkinds).imp_of_mem fun {x y} hx hy hlabels a ha b hb e => hlabels ?_
  subst e
  have h0 : a ≠ 0 := fun e => hzero (mem_seats.mpr ⟨x, hx, e ▸ ha⟩)
  obtain ⟨hhx, hcx⟩ := command_of_seat? ha h0
  obtain ⟨hhy, hcy⟩ := command_of_seat? hb h0
  have hcode : x.cmd.code = y.cmd.code := by
    rcases hcx with ⟨rfl, hcx⟩ | ⟨rfl, hcx⟩ | ⟨rfl, hcx⟩
    · exact hcx.trans (by simpa [eq_comm] using hcy)
    · exact hcx.trans (by simpa [eq_comm] using hcy)
    · have hcy : y.cmd = .suspend (s.leaseHandle n) ∨ ∃ rate, y.cmd = .resume (s.leaseHandle n) rate := by
        simpa using hcy
      rcases hcx with hcx | ⟨rate, hcx⟩ <;> rcases hcy with hcy | ⟨rate', hcy⟩
      · rw [hcx, hcy]
      · exact absurd hcy (hpair x hx y hy _ _ hcx)
      · exact absurd hcx (hpair y hy x hx _ _ hcy)
      · rw [hcx, hcy]
        rfl
  rw [hhx, hhy, hcode]

/-- A context is saved of a heating lease while it is SUSPENDED. -/
theorem saved_of_tableInOrder (ht : s.tableInOrder) (h1 : 1 ≤ n) (h8 : n ≤ 8) {l : Lease} (hl : s.lease? n = some l)
    {ctx : SavedContext} (hctx : l.saved = some ctx) : l.state = .suspended ∧ ctx.state.isHeating = true := by
  obtain ⟨-, -, -, -, -, -, -, hsaved, hheat, -⟩ := ht.1 n l h1 h8 hl
  exact ⟨hsaved.mp (by rw [hctx]; nofun), (hheat ctx hctx).1⟩

/-! ### From the decision to the end of the step -/

theorem beside_endPass (s : State) :
    (endPass s).admission = s.admission ∧ (endPass s).roster = s.roster ∧ (endPass s).link = s.link ∧
      (endPass s).book = s.book := by
  unfold endPass
  dsimp only
  split
  · rw [passStart_eq]
    exact ⟨rfl, rfl, rfl, rfl⟩
  · exact ⟨rfl, rfl, rfl, rfl⟩

theorem shelf_endPass (s : State) : (endPass s).shelf = s.shelf := by
  obtain ⟨ha, -, hl, -⟩ := beside_endPass s
  rw [State.shelf, State.shelf, ha, hl]

theorem core_endPass (n : Nat) (s : State) : (endPass s).core n = s.core n := by
  obtain ⟨ha, -⟩ := beside_endPass s
  rw [State.core, State.core, State.lease?, State.lease?, State.leaseSlot, State.leaseSlot, ha]

theorem station_endPass (i : Nat) (s : State) : (endPass s).station i = s.station i := by
  obtain ⟨-, -, hl, -⟩ := beside_endPass s
  rw [State.station, State.station, hl]

theorem holds_endPass (hs : s.Holds n i) : (endPass s).Holds n i := by
  obtain ⟨-, hr, -⟩ := beside_endPass s
  exact holds_of_shelf (congrArg Roster.entries hr) (shelf_endPass s) hs

theorem amended_endPass {B : Option (Option Nat)} (h : s.amended n i B) : (endPass s).amended n i B := by
  obtain ⟨ha, -⟩ := beside_endPass s
  obtain ⟨l, hl, hway, htended⟩ := h
  refine ⟨l, (lease_of_admission ha n).trans hl, ha ▸ hway, ?_⟩
  rw [station_endPass, State.amendOf, leaseHandle_of_shelf (shelf_endPass s)]
  exact htended

theorem shelf_of_turns (h : Turns n i s t) : t.shelf = s.shelf := by
  induction h with
  | refl => rfl
  | tail _ hturn ih => exact (shelf_of_turn hturn).trans ih

/-- A chain of turns with the end of a pass in it. -/
def Ends (n i : Nat) (s t : State) : Prop := ∃ u, Turns n i s u ∧ Turns n i (endPass u) t

theorem shelf_of_ends (h : Ends n i s t) : t.shelf = s.shelf := by
  obtain ⟨u, hbefore, hafter⟩ := h
  rw [shelf_of_turns hafter, shelf_endPass, shelf_of_turns hbefore]

theorem amended_of_ends {B : Option (Option Nat)} (h : Ends n i s t) (hs : s.Holds n i) (ha : s.amended n i B) :
    t.amended n i B := by
  obtain ⟨u, hbefore, hafter⟩ := h
  have hu := holds_of_turns hbefore hs
  exact amended_of_turns hafter (holds_endPass hu) (amended_endPass (amended_of_turns hbefore hs ha))

theorem stands_of_ends (h : Ends n i s t) {l : Lease} (hl : s.lease? n = some l) (hoffered : l.state = .offered)
    (hsaved : l.saved = none) : t.core n = s.core n ∧ (t.station i).queue = (s.station i).queue := by
  obtain ⟨u, hbefore, hafter⟩ := h
  obtain ⟨-, -, hcore, hqueue⟩ := plot_eq_iff.mp (plot_of_turns_offered hl hoffered hsaved hbefore)
  obtain ⟨l1, hl1, hcore1⟩ := lease_of_core ((core_endPass n u).trans hcore) hl
  obtain ⟨-, hoff, -, -, hsav, -⟩ := same_of_core hcore1
  obtain ⟨-, -, hcore2, hqueue2⟩ :=
    plot_eq_iff.mp (plot_of_turns_offered hl1 (hoff.mpr hoffered) (hsav.trans hsaved) hafter)
  rw [hcore2, core_endPass, hcore, hqueue2, station_endPass, hqueue]
  exact ⟨rfl, rfl⟩

/-- What follows a decision is a chain of turns from the end of its pass. -/
theorem turns_completed (hs : (p.decided s).Holds n i) :
    Turns n i (endPass (p.decided s)) (closing (completePass p s)) := by
  rw [completePass_eq]
  have htests : Turns n i (endPass (p.decided s))
      (upTo8.foldl (fun t n => testFinishingUnlessSanitise n t) (endPass (p.decided s))) :=
    turns_foldl (fun u m hm hu => turns_testFinishingUnlessSanitise ((by decide : ∀ m ∈ upTo8, 1 ≤ m) m hm) hu)
      (holds_endPass hs)
  exact htests.trans (turns_closing (holds_of_turns htests (holds_endPass hs)))

theorem ends_completed (h : Turns n i t (p.decided s)) (ht : t.Holds n i) : Ends n i t (closing (completePass p s)) :=
  ⟨p.decided s, h, turns_completed (holds_of_turns h ht)⟩

theorem shelf_completed (p : Pass) (s : State) : (closing (completePass p s)).shelf = (p.decided s).shelf := by
  rw [shelf_closing, completePass_eq, foldl_shelf _ fun t n => shelf_testFinishingUnlessSanitise n t, shelf_endPass]

theorem book_completed (p : Pass) (s : State) : (closing (completePass p s)).book = (p.decided s).book :=
  (book_of_calm (calm_completed p s)).trans (beside_endPass _).2.2.2

theorem leaseSlot_of_shelf (h : t.shelf = s.shelf) {x : Nat} {l : Lease}
    (hs : s.leaseSlot n = { issue := x, lease := some l }) :
    ∃ l', t.leaseSlot n = { issue := x, lease := some l' } ∧ l'.root = l.root := by
  have hroot := root_of_shelf h n
  rw [hs] at hroot
  rcases ht : t.leaseSlot n with ⟨y, _ | l'⟩
  · rw [ht] at hroot
    cases hroot
  · rw [ht] at hroot
    obtain ⟨rfl, hl'⟩ := LeaseSlot.mk.inj hroot
    exact ⟨l', rfl, Option.some.inj hl'⟩

/-! ### A lease joined (R54) -/

/-- The state in which a joined lease's tests begin. -/
def State.joining (s : State) (n : Nat) (l : Lease) (h : Handle) (target : Temp) (deficit : Nat) : State :=
  place l.holder ((s.enlarged n h target deficit).amendOf n (l.joined h target deficit)) (s.enlarged n h target deficit)

section join

variable {l : Lease} {h : Handle} {target : Temp} {deficit : Nat} (hl : s.lease? n = some l)

include hl

theorem lease?_enlarged : (s.enlarged n h target deficit).lease? n = some (l.joined h target deficit) := by
  have hjoined := lease_modLease n (fun l => l.joined h target deficit) s
  rw [hl] at hjoined
  exact hjoined

theorem leaseSlot_joining :
    (s.joining n l h target deficit).leaseSlot n =
      { issue := (s.leaseSlot n).issue, lease := some (l.joined h target deficit) } := by
  have hjoined := leaseSlot_modLease n (fun l => l.joined h target deficit) s
  rw [hl] at hjoined
  rw [State.joining, State.leaseSlot, admission_place]
  exact hjoined

theorem leaseHandle_joining : (s.joining n l h target deficit).leaseHandle n = s.leaseHandle n := by
  rw [State.leaseHandle, leaseSlot_joining hl]
  rfl

/-- A join's own changes leave the lease with its holder. -/
theorem holds_enlarged (hs : s.Holds n i) : (s.enlarged n h target deficit).Holds n i := by
  have hholders : ∀ k, ((s.enlarged n h target deficit).lease? k).map Lease.holder = (s.lease? k).map Lease.holder := by
    intro k
    by_cases hk : n - 1 = k - 1
    · rw [lease_of_place hk.symm, lease_of_place (s := s) hk.symm, lease?_enlarged hl, hl]
      rfl
    · have hother := lease_modLease_ne hk (fun l => l.joined h target deficit) s
      exact congrArg (Option.map Lease.holder) hother
  obtain ⟨l0, hl0, hi⟩ := hs.lease
  refine ⟨hs.slot, hs.index, hs.ready, ⟨_, lease?_enlarged hl, ?_⟩, fun k l1 hl1 hi1 => ?_⟩
  · obtain rfl := Option.some.inj (hl.symm.trans hl0)
    exact hi
  · have hk := hholders k
    rw [hl1] at hk
    obtain ⟨l2, hl2, hi2⟩ := Option.map_eq_some_iff.mp hk.symm
    exact hs.only k l2 hl2 (hi2.trans hi1)

theorem holds_joining (hs : s.Holds n i) : (s.joining n l h target deficit).Holds n i :=
  holds_of_shelf (calm_eq_iff.mp (calm_place _ _ _)).2.2.2.1 (shelf_place _ _ _) (holds_enlarged hl hs)

/-- The tests of a join are turns. -/
theorem turns_join (hs : s.Holds n i) : Turns n i (s.joining n l h target deficit) (join n h target deficit s) := by
  rw [join_eq hl]
  have hjoining := holds_joining (h := h) (target := target) (deficit := deficit) hl hs
  have hfinishing := turns_testFinishing hs.slot.1 hjoining
  exact hfinishing.trans (turns_testOverlap (holds_of_turns hfinishing hjoining))

/-- An AMEND waits as the tests of a join begin. -/
theorem waits_joining (hs : s.Holds n i) :
    ∃ y ∈ ((s.joining n l h target deficit).station i).queue,
      y.cmd = .amend (s.leaseHandle n) (l.joined h target deficit).ceiling (l.joined h target deficit).budget := by
  rw [State.joining, holder_eq hs hl, queue_place hs.index.1 hs.index.2]
  have hhandle : (s.enlarged n h target deficit).leaseHandle n = s.leaseHandle n := leaseHandle_modLease n n _ s
  rw [State.amendOf, hhandle]
  exact waits_replaceOrEnqueue

theorem amended_joining (hs : s.Holds n i) {B : Option (Option Nat)}
    (hway : (l.joined h target deficit).Underway B s.admission.freeHeat)
    (ht : Tidy (s.leaseHandle n) (s.station i).queue) : (s.joining n l h target deficit).amended n i B := by
  rw [State.joining, holder_eq hs hl]
  refine amended_placeAmend (holds_enlarged hl hs) (lease?_enlarged hl) hway ?_
  have hhandle : (s.enlarged n h target deficit).leaseHandle n = s.leaseHandle n := leaseHandle_modLease n n _ s
  rw [hhandle]
  exact ht

end join

/-- What a join has left of its lease at the end of the step: its root as enlarged, its budget where it was not
SUSPENDED, and its AMEND waiting unless it has gone to REVOKING. -/
theorem joined_at_end (htable : s.tableInOrder) (hdesk : s.sameDesk u) (hs : s.Holds n i) {l : Lease}
    (hl : s.lease? n = some l) (hrevoking : l.state ≠ .revoking) {h : Handle} {target : Temp} {deficit : Nat}
    (hends : Ends n i (u.joining n l h target deficit) t) :
    ∃ l', t.leaseSlot n = { issue := (s.leaseSlot n).issue, lease := some l' } ∧
      l'.root = (l.joined h target deficit).root ∧
      (l.state ≠ .suspended → l'.budget = (l.joined h target deficit).budget) ∧
      (l'.state ≠ .revoking →
        ∃ y ∈ (t.station i).queue, y.cmd = .amend (s.leaseHandle n) l'.ceiling l'.budget) := by
  obtain ⟨h1, h8⟩ := hs.slot
  have hlu : u.lease? n = some l := (lease_of_admission hdesk.admission n).trans hl
  have hhandle := leaseHandle_of_sameDesk hdesk n
  have hu := holds_of_sameDesk hdesk hs
  have hslot := leaseSlot_joining (h := h) (target := target) (deficit := deficit) hlu
  have hj := holds_joining (h := h) (target := target) (deficit := deficit) hlu hu
  have hlj := congrArg LeaseSlot.lease hslot
  obtain ⟨l', hl', hroot⟩ := leaseSlot_of_shelf (shelf_of_ends hends) hslot
  rw [leaseSlot_of_sameDesk hdesk] at hl'
  refine ⟨l', hl', hroot, ?_⟩
  have hlt : t.lease? n = some l' := congrArg LeaseSlot.lease hl'
  by_cases hoffered : l.state = .offered
  · have hsaved : l.saved = none := Option.eq_none_iff_forall_not_mem.mpr fun ctx hctx => by
      have hsuspended := (saved_of_tableInOrder htable h1 h8 hl hctx).1
      rw [hoffered] at hsuspended
      cases hsuspended
    obtain ⟨hcore, hqueue⟩ := stands_of_ends hends hlj hoffered hsaved
    obtain ⟨l1, hl1, hcore1⟩ := lease_of_core hcore hlj
    obtain rfl := Option.some.inj (hl1.symm.trans hlt)
    obtain ⟨-, -, -, -, -, hbudget, hceiling⟩ := same_of_core hcore1
    refine ⟨fun _ => hbudget, fun _ => ?_⟩
    rw [hqueue, hbudget, hceiling, ← hhandle]
    exact waits_joining hlu hu
  · have hway : (l.joined h target deficit).Underway
        (if l.state = .suspended then none else some (l.joined h target deficit).budget) u.admission.freeHeat := by
      refine ⟨hoffered, fun ctx hctx => ?_, fun b hb => ?_⟩
      · obtain ⟨hsuspended, hheat⟩ := saved_of_tableInOrder htable h1 h8 hl hctx
        refine ⟨hsuspended, hheat, fun hB => ?_⟩
        rw [if_pos hsuspended] at hB
        cases hB
      · split at hb
        · cases hb
        · exact Option.some.inj hb
    have htidy := tidy_of_tableInOrder htable hs hl hoffered hrevoking
    rw [← hhandle, ← station_of_sameDesk hdesk] at htidy
    obtain ⟨l1, hl1, hway1, htended⟩ := amended_of_ends hends hj (amended_joining hlu hu hway htidy)
    obtain rfl := Option.some.inj (hl1.symm.trans hlt)
    refine ⟨fun hsus => hway1.budget _ (if_neg hsus), fun hrev => ?_⟩
    have hwaits := (htended hrev).1
    rw [State.amendOf, leaseHandle_of_shelf (shelf_of_ends hends), leaseHandle_joining hlu, hhandle] at hwaits
    exact hwaits

end Sys2Proof.Machine

/-! The lease opened for a pass's only candidate, and the pass's decision as a whole (R51 to R56, R65). -/

namespace Sys2Proof.Machine

variable {n i : Nat} {s t u : State} {p : Pass} {r : PassRecord} {v : Verdict}

/-! ### A lease placed (R64) -/

/-- The lease opened stands in its slot as it was asked for, but for its rates. -/
theorem leaseSlot_putLease (h8 : n - 1 < 8) (l : Lease) (s : State) :
    ∃ entitlement granted, (putLease n l s).leaseSlot n =
      { issue := (s.leaseSlot n).issue, lease := some { l with entitlement := entitlement, granted := granted } } := by
  have hset := leaseSlot_setLeaseSlot h8 { s.leaseSlot n with lease := some l } s
  unfold putLease followEntitlement
  dsimp only
  rw [leaseSlot_modLease, State.lease?, leaseSlot_modLease, State.lease?, hset]
  exact ⟨_, _, rfl⟩

theorem leaseSlot_putLease_ne {k : Nat} (hk : n - 1 ≠ k - 1) (l : Lease) (s : State) :
    (putLease n l s).leaseSlot k = s.leaseSlot k := by
  unfold putLease followEntitlement
  dsimp only
  rw [leaseSlot_modLease_ne hk, leaseSlot_modLease_ne hk, leaseSlot_setLeaseSlot_ne hk]

theorem leaseSlot_of_admission (h : t.admission = s.admission) (n : Nat) : t.leaseSlot n = s.leaseSlot n := by
  rw [State.leaseSlot, State.leaseSlot, h]

/-- The state in which an opened lease's GRANT is placed. -/
def State.opened (s : State) (n : Nat) (l : Lease) : State := noteEligible s (putLease n l s)

theorem leaseSlot_opened (n k : Nat) (l : Lease) (s : State) :
    (s.opened n l).leaseSlot k = (putLease n l s).leaseSlot k :=
  leaseSlot_of_admission (admission_noteEligible _ _) k

/-- A lease placed with a station that had none is its only one. -/
theorem holds_opened (h1 : 1 ≤ n) (h8 : n ≤ 8) {l : Lease} (hi : l.holder = i) (hstation : i ∈ s.eligibleSet) :
    (s.opened n l).Holds n i := by
  obtain ⟨hi1, hi7, -, hready, hfree, -⟩ := mem_eligibleSet hstation
  obtain ⟨e, g, hslot⟩ := leaseSlot_putLease (n := n) (by omega) l s
  refine ⟨⟨h1, h8⟩, ⟨hi1, hi7⟩, ?_, ⟨{ l with entitlement := e, granted := g }, ?_, hi⟩, fun k l' hl' hi' => ?_⟩
  · rw [State.opened, noteEligible_eq]
    exact hready
  · exact congrArg LeaseSlot.lease ((leaseSlot_opened n n l s).trans hslot)
  · by_contra hk
    have hother : s.lease? k = some l' := by
      rw [State.lease?, leaseSlot_opened, leaseSlot_putLease_ne fun e => hk e.symm] at hl'
      exact hl'
    have hnone := List.find?_eq_none.mp hfree
    by_cases hk8 : k ≤ 8
    · by_cases hk1 : 1 ≤ k
      · refine hnone k ?_ ?_
        · simp only [upTo8, List.mem_cons, List.not_mem_nil, or_false]
          omega
        · simp [hother, hi']
      · rw [lease_of_place (n := k) (m := 1) (by omega)] at hother
        exact hnone 1 (by decide) (by simp [hother, hi'])
    · rw [State.lease?, State.leaseSlot, tget_of_le _ _ _ (by omega)] at hother
      cases hother

/-- The station that is given a lease is eligible no more: a pass begins again (R52). -/
theorem reruns_opened (h1 : 1 ≤ n) (h8 : n ≤ 8) {l : Lease} (hi : l.holder = i) (hstation : i ∈ s.eligibleSet)
    (hp : s.coverage.pass = some p) (hvalid : s.map.valid = true) : (s.opened n l).coverage.reruns := by
  obtain ⟨e, g, hslot⟩ := leaseSlot_putLease (n := n) (by omega) l s
  have hl : (putLease n l s).lease? n = some { l with entitlement := e, granted := g } :=
    congrArg LeaseSlot.lease hslot
  have hchanged : (putLease n l s).eligibleSet ≠ s.eligibleSet := by
    intro hsame
    rw [← hsame] at hstation
    obtain ⟨-, -, -, -, hfree, -⟩ := mem_eligibleSet hstation
    refine List.find?_eq_none.mp hfree n ?_ ?_
    · simp only [upTo8, List.mem_cons, List.not_mem_nil, or_false]
      omega
    · simp [hl, hi]
  have hmap : (putLease n l s).map.valid = true := hvalid
  have hpass : (putLease n l s).coverage.pass = some p := hp
  rw [State.opened, noteEligible, if_neg hchanged]
  unfold passStart
  rw [if_pos hmap, hpass]
  exact ⟨by rw [modCoverage_coverage, hpass]; rfl, rfl⟩

/-! ### The GRANT placed -/

theorem freeLeaseSlot_eq (h1 : 1 ≤ n) (h8 : n ≤ 8) (hfree : s.lease? n = none)
    (hfirst : ∀ k, 1 ≤ k → k < n → s.lease? k ≠ none) : s.freeLeaseSlot = some n := by
  refine find?_eq_of_pairwise (R := (· < ·)) (by decide) ?_ ?_ fun k hk hpk hlt => ?_
  · simp only [upTo8, List.mem_cons, List.not_mem_nil, or_false]
    omega
  · rw [hfree]; rfl
  · exact hfirst k ((by decide : ∀ k ∈ upTo8, 1 ≤ k) k hk) hlt (Option.isNone_iff_eq_none.mp hpk)

/-- An opening in the slot that is free: the GRANT placed with the lease as it stands. -/
theorem openOffered_eq {l l1 : Lease} (hn : s.freeLeaseSlot = some n) (hl1 : (s.opened n l).lease? n = some l1) :
    openOffered l s = some (s.leaseHandle n, place l1.holder ((s.opened n l).grantOf n l1) (s.opened n l)) := by
  unfold openOffered
  rw [hn]
  dsimp only
  rw [← State.opened, hl1]

theorem openTopUp_eq {h : Handle} {target : Temp} {deficit : Nat} {lease : Handle} (hmay : s.mayOpenBought i = true)
    (e : openOffered (s.topUpLease i h target deficit) s = some (lease, t)) :
    openTopUp i h target deficit s = setTopUp h lease t := by
  rw [openTopUp, if_pos hmay, e]

theorem openTopUp_refused {h : Handle} {target : Temp} {deficit : Nat} (hmay : s.mayOpenBought i = false) :
    openTopUp i h target deficit s = s := by
  rw [openTopUp, hmay, if_neg Bool.false_ne_true]

/-- What refuses a top-up opening on a station that is eligible: an INVALID map, and a budget below the floor of an
electric one (R65, R95). -/
theorem mayOpenBought_iff (hstation : i ∈ s.eligibleSet) :
    s.mayOpenBought i = true ↔
      s.map.valid = true ∧ ¬((s.entry i).cls.drawsBudget = true ∧ s.unallocated < 500) := by
  obtain ⟨-, -, heligible, -, hfree, hhalted⟩ := mem_eligibleSet hstation
  simp only [State.mayOpenBought, State.mayOpen, State.budgetAllows, heligible, hfree, hhalted, Bool.and_eq_true,
    Bool.or_eq_true, Bool.not_eq_true', Option.isNone_none, Bool.not_false, true_and, and_true,
    not_and, Nat.not_lt, Config.electricFloor]
  refine and_congr_right fun _ => ?_
  cases (s.entry i).cls.drawsBudget with
  | false => simp
  | true =>
    simp only [Bool.true_eq_false, false_or, true_imp_iff]
    exact decide_eq_true_iff

/-- The state that an opening leaves: the GRANT placed and the record linked. -/
def State.granting (s : State) (n i : Nat) (l l1 : Lease) (h : Handle) : State :=
  setTopUp h (s.leaseHandle n) (place i ((s.opened n l).grantOf n l1) (s.opened n l))

section granting

variable {l l1 : Lease} (h : Handle)

theorem admission_granting : (s.granting n i l l1 h).admission = (s.opened n l).admission :=
  admission_place i _ _

theorem coverage_granting : (s.granting n i l l1 h).coverage = (s.opened n l).coverage :=
  (coverage_of_calm (calm_place i ((s.opened n l).grantOf n l1) (s.opened n l)) :)

theorem map_granting : (s.granting n i l l1 h).map = s.map := by
  have hplaced : (s.granting n i l l1 h).map = (s.opened n l).map := (calm_eq_iff.mp (calm_place i _ _)).1
  rw [hplaced, State.opened, noteEligible_eq]
  rfl

theorem book_granted (c : LinkCmd) : (place i c (s.opened n l)).book = s.book := by
  rw [book_of_calm (calm_place i c _), State.opened, noteEligible_eq]
  rfl

theorem holds_granting (hs : (s.opened n l).Holds n i) : (s.granting n i l l1 h).Holds n i := by
  have hplaced := calm_place i ((s.opened n l).grantOf n l1) (s.opened n l)
  exact holds_of_shelf (calm_eq_iff.mp hplaced).2.2.2.1 (shelf_place _ _ _) hs

/-- The GRANT waits in the queue of the station that is to heat. -/
theorem waits_granting (hs : (s.opened n l).Holds n i) :
    ∃ y ∈ ((s.granting n i l l1 h).station i).queue,
      y.cmd = .grant ((s.opened n l).leaseHandle n) l1.kind l1.granted l1.ceiling l1.budget := by
  have hqueue := queue_place hs.index.1 hs.index.2 ((s.opened n l).grantOf n l1) (s.opened n l)
  have hstation : (s.granting n i l l1 h).station i =
      (place i ((s.opened n l).grantOf n l1) (s.opened n l)).station i := rfl
  rw [hstation, hqueue]
  exact waits_enqueue

/-- What an opening has left of its lease at the end of the step: it stands OFFERED with its GRANT in the queue. -/
theorem granting_at_end {k : Nat} (hslot : (s.opened n l).leaseSlot n = { issue := k, lease := some l1 })
    (hs : (s.opened n l).Holds n i) (hoffered : l1.state = .offered) (hsaved : l1.saved = none)
    (hends : Ends n i (s.granting n i l l1 h) t) :
    ∃ l', t.leaseSlot n = { issue := k, lease := some l' } ∧ l'.core = l1.core ∧
      ∃ y ∈ (t.station i).queue,
        y.cmd = .grant { slot := n, issue := k } l1.kind l1.granted l1.ceiling l1.budget := by
  have hplaced := (leaseSlot_of_admission (admission_granting (i := i) (l1 := l1) h) n).trans hslot
  have hl1 := congrArg LeaseSlot.lease hplaced
  obtain ⟨hcore, hqueue⟩ := stands_of_ends hends hl1 hoffered hsaved
  obtain ⟨l', hl', -⟩ := leaseSlot_of_shelf (shelf_of_ends hends) hplaced
  obtain ⟨l2, hl2, hcore2⟩ := lease_of_core hcore hl1
  obtain rfl := Option.some.inj (hl2.symm.trans (congrArg LeaseSlot.lease hl'))
  have hwaits := waits_granting (l1 := l1) h hs
  rw [State.leaseHandle, hslot] at hwaits
  rw [hqueue]
  exact ⟨l2, hl', hcore2, hwaits⟩

end granting

/-! ### The record of the candidate -/

theorem recordOf?_unlinked (hp : p.InOrder) (hr : (r, v) ∈ p.results.1) {x : Reservation}
    (hx : s.passRecord? p r = some x) (hbook : t.book = (p.written s).book) :
    ∃ x', t.recordOf? r.handle = some x' ∧ x'.topUp = x.topUp := by
  obtain ⟨-, -, hof⟩ := passRecord?_eq_some hx
  have hslot := (bookSlot_of_book hbook r.handle.slot).trans (bookSlot_written hp hr hx)
  exact ⟨_, recordOf?_of_record hof (congrArg BookSlot.issue hslot :) (congrArg BookSlot.record hslot :), rfl⟩

theorem recordOf?_linked (hp : p.InOrder) (hr : (r, v) ∈ p.results.1) {x : Reservation}
    (hx : s.passRecord? p r = some x) {lease : Handle} (hu : u.book = (p.written s).book)
    (hbook : t.book = (setTopUp r.handle lease u).book) :
    ∃ x', t.recordOf? r.handle = some x' ∧ x'.topUp = some lease := by
  obtain ⟨-, -, hof⟩ := passRecord?_eq_some hx
  have hslot := (bookSlot_of_book hu r.handle.slot).trans (bookSlot_written hp hr hx)
  have hlinked := (bookSlot_of_book hbook r.handle.slot).trans (bookSlot_modRecord _ _ u)
  rw [State.record?, hslot] at hlinked
  exact ⟨_, recordOf?_of_record hof (congrArg BookSlot.issue hlinked :) (congrArg BookSlot.record hlinked :), rfl⟩

/-! ### The decision of a pass on its only candidate -/

theorem decide_join (hc : s.isCandidate p (r, v) = true) (hn : s.joinTarget p.reserveLine v.depth = some n) :
    (decideTopUp p (s, false) (r, v)).1 = join n r.handle (r.terms.thetaMin + p.margin) v.deficit s := by
  unfold decideTopUp
  dsimp only
  rw [if_pos hc, hn]

theorem decide_unplaced (hc : s.isCandidate p (r, v) = true) (hn : s.joinTarget p.reserveLine v.depth = none)
    (hstation : s.selectStation r.terms.preferred v.depth = none) : (decideTopUp p (s, false) (r, v)).1 = s := by
  unfold decideTopUp
  dsimp only
  rw [if_pos hc, hn, hstation]
  rfl

theorem decide_open (hc : s.isCandidate p (r, v) = true) (hn : s.joinTarget p.reserveLine v.depth = none)
    (hstation : s.selectStation r.terms.preferred v.depth = some i) :
    (decideTopUp p (s, false) (r, v)).1 = openTopUp i r.handle (r.terms.thetaMin + p.margin) v.deficit s := by
  unfold decideTopUp
  dsimp only
  rw [if_pos hc, hn, hstation]
  rfl

/-- What a join leaves at the end of the step. -/
theorem joined_completed (htable : s.tableInOrder) (hp : p.InOrder) (hr : (r, v) ∈ p.results.1)
    {x : Reservation} (hx : s.passRecord? p r = some x) {l : Lease}
    (hn : s.joinTarget p.reserveLine v.depth = some n) (hl : s.lease? n = some l)
    (hdec : p.decided s = join n r.handle (r.terms.thetaMin + p.margin) v.deficit (p.written s)) :
    ∃ l' x', (closing (completePass p s)).leaseSlot n = { issue := (s.leaseSlot n).issue, lease := some l' } ∧
      l'.root = (l.joined r.handle (r.terms.thetaMin + p.margin) v.deficit).root ∧
      (l.state ≠ .suspended →
        l'.budget = (l.joined r.handle (r.terms.thetaMin + p.margin) v.deficit).budget) ∧
      (closing (completePass p s)).recordOf? r.handle = some x' ∧ x'.topUp = some (s.leaseHandle n) ∧
      (l'.state ≠ .revoking →
        ∃ y ∈ ((closing (completePass p s)).station l.holder).queue,
          y.cmd = .amend (s.leaseHandle n) l'.ceiling l'.budget) := by
  have hdesk := sameDesk_written p s
  obtain ⟨h1, h8, l0, hl0, hkind, hrevoking, -⟩ := mayJoin_of_joinTarget hn
  obtain rfl := Option.some.inj (hl.symm.trans hl0)
  have hlink : l.holder ≠ 0 := by
    obtain ⟨hsolar, -⟩ := htable.1 n l h1 h8 hl
    intro e
    rw [hsolar.mpr e] at hkind
    cases hkind
  have hs := holds_of_tableInOrder htable h1 h8 hl hlink
  have hu := holds_of_sameDesk hdesk hs
  have hlu : (p.written s).lease? n = some l := (lease_of_admission hdesk.admission n).trans hl
  have hturns := turns_join (h := r.handle) (target := r.terms.thetaMin + p.margin) (deficit := v.deficit) hlu hu
  rw [← hdec] at hturns
  have hends := ends_completed hturns (holds_joining hlu hu)
  have hbook : (closing (completePass p s)).book =
      (setTopUp r.handle ((p.written s).leaseHandle n) (p.written s)).book := by
    rw [book_completed, hdec, book_join hlu]
  rw [leaseHandle_of_sameDesk hdesk] at hbook
  obtain ⟨l', hslot, hroot, hbudget, hwaits⟩ := joined_at_end htable hdesk hs hl hrevoking hends
  obtain ⟨x', hx', htopUp⟩ := recordOf?_linked hp hr hx rfl hbook
  exact ⟨l', x', hslot, hroot, hbudget, hx', htopUp, hwaits⟩

/-- What is left where nothing is placed. -/
theorem unplaced_completed (hp : p.InOrder) (hr : (r, v) ∈ p.results.1) {x : Reservation}
    (hx : s.passRecord? p r = some x) (hdec : p.decided s = p.written s) :
    (∃ x', (closing (completePass p s)).recordOf? r.handle = some x' ∧ x'.topUp = x.topUp) ∧
      s.sameRoots (closing (completePass p s)) := by
  have hdesk := sameDesk_written p s
  refine ⟨recordOf?_unlinked hp hr hx ((book_completed p s).trans (congrArg State.book hdec)), sameRoots_of_shelf ?_⟩
  rw [shelf_completed, hdec, shelf_of_sameDesk hdesk]

/-- The lease that a top-up opening has placed in a slot, with its rates. -/
def State.topUpOpened (s : State) (p : Pass) (r : PassRecord) (v : Verdict) (i entitlement granted : Nat) : Lease :=
  { s.topUpLease i r.handle (r.terms.thetaMin + p.margin) v.deficit with
    entitlement := entitlement, granted := granted }

theorem topUpLease_of_sameDesk (h : s.sameDesk t) (i : Nat) (x : Handle) (target : Temp) (deficit : Nat) :
    t.topUpLease i x target deficit = s.topUpLease i x target deficit := by
  rw [State.topUpLease, State.topUpLease, h.admission, entryInlet_of_sameDesk h]

/-- The decision that opens a lease is the opening's own state. -/
theorem openTopUp_granting {h : Handle} {target : Temp} {deficit : Nat} {l l1 : Lease}
    (hasked : s.topUpLease i h target deficit = l) (hn : s.freeLeaseSlot = some n) (hmay : s.mayOpenBought i = true)
    (hl1 : (s.opened n l).lease? n = some l1) (hi : l1.holder = i) :
    openTopUp i h target deficit s = s.granting n i l l1 h := by
  subst hasked
  rw [openTopUp_eq hmay (openOffered_eq hn hl1), hi]
  rfl

/-- What an opening leaves at the end of the step: the lease OFFERED as it was opened, its GRANT waiting, and a pass
begun again. -/
theorem opened_completed (hp : p.InOrder) (hpass : s.coverage.pass = some p) (hr : (r, v) ∈ p.results.1)
    {x : Reservation} (hx : s.passRecord? p r = some x) (hstation : i ∈ s.eligibleSet) (hvalid : s.map.valid = true)
    (h1 : 1 ≤ n) (h8 : n ≤ 8) (hn : (p.written s).freeLeaseSlot = some n)
    (hmay : (p.written s).mayOpenBought i = true)
    (hdec : p.decided s = openTopUp i r.handle (r.terms.thetaMin + p.margin) v.deficit (p.written s)) :
    ∃ l' x' entitlement granted,
      (closing (completePass p s)).leaseSlot n = { issue := (s.leaseSlot n).issue, lease := some l' } ∧
      l'.core = (s.topUpOpened p r v i entitlement granted).core ∧
      (closing (completePass p s)).recordOf? r.handle = some x' ∧ x'.topUp = some (s.leaseHandle n) ∧
      (closing (completePass p s)).coverage.pass.isSome = true ∧
      ∃ y ∈ ((closing (completePass p s)).station i).queue,
        y.cmd = .grant (s.leaseHandle n) .topUp granted (r.terms.thetaMin + p.margin) (some (budgetFor v.deficit)) := by
  have hdesk := sameDesk_written p s
  obtain ⟨hcov, hmap, -⟩ := beside_of_written p s
  have hstation' : i ∈ (p.written s).eligibleSet := by
    rw [State.eligibleSet, eligible_of_sameDesk hdesk]
    exact hstation
  have hasked := topUpLease_of_sameDesk hdesk i r.handle (r.terms.thetaMin + p.margin) v.deficit
  have hi : (s.topUpLease i r.handle (r.terms.thetaMin + p.margin) v.deficit).holder = i := rfl
  obtain ⟨e, g, hput⟩ := leaseSlot_putLease (n := n) (by omega)
    (s.topUpLease i r.handle (r.terms.thetaMin + p.margin) v.deficit) (p.written s)
  have hslot := (leaseSlot_opened n n _ (p.written s)).trans hput
  have hholds := holds_opened (s := p.written s) h1 h8 hi hstation'
  have hreruns := reruns_opened h1 h8 hi hstation' (hcov ▸ hpass) (hmap.trans hvalid)
  rw [openTopUp_granting hasked hn hmay (congrArg LeaseSlot.lease hslot) rfl] at hdec
  rw [leaseSlot_of_sameDesk hdesk] at hslot
  have hends := ends_completed (p := p) (s := s) .refl (hdec ▸ holds_granting _ hholds)
  have hbook := book_completed p s
  have hagain : (closing (completePass p s)).coverage.pass.isSome = true := by
    rw [coverage_completed, hdec]
    refine pass_endPass ?_ ?_
    · rw [coverage_granting]
      exact hreruns.2
    · rw [map_granting]
      exact hmap.trans hvalid
  rw [hdec] at hends hbook
  obtain ⟨l', hl', hcore, hwaits⟩ := granting_at_end r.handle hslot hholds rfl rfl hends
  obtain ⟨x', hx', hlinked⟩ := recordOf?_linked hp hr hx (book_granted _) hbook
  rw [leaseHandle_of_sameDesk hdesk] at hlinked
  exact ⟨l', x', e, g, hl', hcore, hx', hlinked, hagain, hwaits⟩

/-- What is told of an opened lease by its core (R56, R65). -/
theorem topUp_of_core {l : Lease} {e g : Nat} (hi : i ≠ 0) (h : l.core = (s.topUpOpened p r v i e g).core) :
    l.kind = .topUp ∧ l.origin = .part ∧ l.holder = i ∧ l.state = .offered ∧ l.inlet = (s.entry i).inlet ∧
      l.ceiling = r.terms.thetaMin + p.margin ∧ l.budget = some (budgetFor v.deficit) ∧ l.delivered = 0 ∧
      l.limit = some (60 * s.admission.topUpLimit) ∧ l.timer = some (2 * (60 * s.admission.topUpLimit)) ∧
      l.serve = [r.handle] ∧ l.handovers = some 0 := by
  have hinlet : (s.topUpOpened p r v i e g).inlet = (s.entry i).inlet := if_neg hi
  exact ⟨(congrArg Lease.kind h :), (congrArg Lease.origin h :), (congrArg Lease.holder h :),
    (same_of_core h).2.1.mpr rfl, (congrArg Lease.inlet h :).trans hinlet, (congrArg Lease.ceiling h :),
    (congrArg Lease.budget h :), (congrArg Lease.delivered h :), (congrArg Lease.limit h :),
    (congrArg Lease.timer h :), (congrArg Lease.serve h :), (congrArg Lease.handovers h :)⟩

/-- A candidate's record takes its verdict and has no top-up lease. -/
theorem record_of_isCandidate (hc : s.isCandidate p (r, v) = true) :
    ∃ x, s.passRecord? p r = some x ∧ x.topUp = none := by
  unfold State.isCandidate at hc
  simp only [Bool.and_eq_true] at hc
  obtain ⟨x, hx, hnone⟩ := (Option.any_eq_true _ _).mp hc.1.1.1
  exact ⟨x, hx, Option.isNone_iff_eq_none.mp hnone⟩

/-- Settles O26: the join by the order of the leases joinable; the pass by its one decision, and what a chain of turns
leaves of it to the end of the step. -/
theorem aPassJoinsOrOpensATopUp : Obligations.APassJoinsOrOpensATopUp := by
  refine ⟨fun s line depth n hin => joinTarget_iff hin, fun s p r v hlegal htable hpass hr hcand honly => ?_⟩
  have hin : p.InOrder := inOrder_of_legal (legal_iff_inOrder.mp hlegal).coverage hpass
  obtain ⟨x, hx, hnone⟩ := record_of_isCandidate hcand
  have hdesk := sameDesk_written p s
  have hdec := decided_of_only hin hr honly
  have hcand' := (isCandidate_written hin hr).trans hcand
  have htarget := joinTarget_of_sameDesk hdesk p.reserveLine v.depth
  have hselect := selectStation_of_sameDesk hdesk r.terms.preferred v.depth
  refine ⟨closing (completePass p s), congrArg Host.Outcome.next (finishPass_inFlight hpass), fun n l hn hl => ?_,
    fun hn hrefused => ?_, fun n i hn hstation hmay h1 h8 hfree hfirst => ?_⟩
  · obtain ⟨l', x', hslot, hroot, hbudget, hx', hlinked, hwaits⟩ :=
      joined_completed htable hin hr hx hn hl (hdec.trans (decide_join hcand' (htarget.trans hn)))
    exact ⟨l', x', hslot, hroot, hbudget, hx', hlinked, hwaits⟩
  · have hunplaced : p.decided s = p.written s := by
      cases hstation : s.selectStation r.terms.preferred v.depth with
      | none => exact hdec.trans (decide_unplaced hcand' (htarget.trans hn) (hselect.trans hstation))
      | some i =>
        refine (hdec.trans (decide_open hcand' (htarget.trans hn) (hselect.trans hstation))).trans
          (openTopUp_refused ?_)
        rw [mayOpenBought_of_sameDesk hdesk, Bool.eq_false_iff, Ne,
          mayOpenBought_iff (eligible_of_selectStation hstation)]
        rintro ⟨hvalid, hfloor⟩
        rw [hstation] at hrefused
        rcases hrefused with hno | hinvalid | ⟨j, hj, hbelow⟩
        · cases hno
        · rw [hvalid] at hinvalid
          cases hinvalid
        · obtain rfl := Option.some.inj hj
          exact hfloor hbelow
    rw [← hnone]
    exact unplaced_completed hin hr hx hunplaced
  · have heligible := eligible_of_selectStation hstation
    have hvalid : s.map.valid = true := Bool.not_eq_false _ ▸ fun h => hmay (.inl h)
    have hopens : s.mayOpenBought i = true :=
      (mayOpenBought_iff heligible).mpr ⟨hvalid, fun hbelow => hmay (.inr ⟨i, hstation, hbelow⟩)⟩
    have hslotFree : (p.written s).freeLeaseSlot = some n := by
      rw [State.freeLeaseSlot, lease?_of_sameDesk hdesk]
      exact freeLeaseSlot_eq h1 h8 hfree hfirst
    obtain ⟨l', x', e, g, hslot, hcore, hx', hlinked, hagain, y, hy, hgrant⟩ :=
      opened_completed hin hpass hr hx heligible hvalid h1 h8 hslotFree
        ((mayOpenBought_of_sameDesk hdesk i).trans hopens)
        (hdec.trans (decide_open hcand' (htarget.trans hn) (hselect.trans hstation)))
    have hlink : i ≠ 0 := by
      have := (mem_eligibleSet heligible).1
      omega
    obtain ⟨hkind, horigin, hholder, hoffered, hinlet, hceiling, hbudget, hdelivered, hlimit, htimer, hserve,
      hhandovers⟩ :=
      topUp_of_core hlink hcore
    exact ⟨l', x', hslot, hkind, horigin, hholder, hoffered, hinlet, hceiling, hbudget, hdelivered, hlimit, htimer,
      hserve, hhandovers, hx', hlinked, hagain, y, hy, g, hgrant⟩

end Sys2Proof.Machine

/-! The two walks of a reservation (§3.2): the accounting walk stratum by stratum, and the coverage walk as an
accounting walk of the strata before the one it stops at. -/

namespace Sys2Proof.Machine

variable {need : Nat} {thetaMin : Temp} {l : Layer} {layers below seen rest before behind : List Layer}

/-! ### One stratum -/

/-- The need that a walk over some strata leaves. -/
def needAfter (need : Nat) (layers : List Layer) : Nat := need - (layers.map Layer.available).sum

theorem needAfter_append : needAfter need (seen ++ rest) = needAfter (needAfter need seen) rest := by
  simp only [needAfter, List.map_append, List.sum_append, Nat.sub_sub]

theorem takes_add_left : l.takes need + (need - l.takes need) = need :=
  Nat.add_sub_cancel' (Nat.min_le_right _ _)

/-- What is left after a stratum is what its available litres leave. -/
theorem needAfter_cons : needAfter need (l :: below) = needAfter (need - l.takes need) below := by
  have htakes : need - l.takes need = need - l.available := by
    unfold Layer.takes
    omega
  rw [htakes]
  simp only [needAfter, List.map_cons, List.sum_cons, Nat.sub_sub]

theorem claimed_claim_le (h : l.claimed ≤ l.volume) : (l.claim (l.takes need)).claimed ≤ l.volume := by
  have htakes : l.takes need ≤ l.volume - l.claimed := Nat.min_le_left _ _
  change l.claimed + l.takes need ≤ l.volume
  omega

/-- A stratum that does not meet the need gives all it has. -/
theorem claimed_claim_eq (h : l.claimed ≤ l.volume) (hleft : 0 < need - l.takes need) :
    (l.claim (l.takes need)).claimed = l.volume := by
  have htakes : l.takes need = min (l.volume - l.claimed) need := rfl
  change l.claimed + l.takes need = l.volume
  omega

theorem litres_used (n : Nat) (taken : List Taken) :
    ((l.used n taken).map (·.litres)).sum = n + (taken.map (·.litres)).sum := by
  unfold Layer.used
  split
  · next h => rw [h, Nat.zero_add]
  · rfl

theorem pos_of_mem_used {n : Nat} {taken : List Taken} (htaken : ∀ x ∈ taken, 1 ≤ x.litres) :
    ∀ x ∈ l.used n taken, 1 ≤ x.litres := by
  unfold Layer.used
  split
  · exact htaken
  · next h => exact List.forall_mem_cons.mpr ⟨Nat.one_le_iff_ne_zero.mpr h, htaken⟩

/-! ### The accounting walk (R46) -/

theorem accountingWalk_cons :
    accountingWalk need (l :: below) =
      { accountingWalk (need - l.takes need) below with
        visited := l.claim (l.takes need) :: (accountingWalk (need - l.takes need) below).visited
        taken := l.used (l.takes need) (accountingWalk (need - l.takes need) below).taken } := rfl

theorem rest_accountingWalk (need : Nat) (layers : List Layer) : (accountingWalk need layers).rest = [] := by
  induction layers generalizing need with
  | nil => rfl
  | cons l below ih => exact ih _

theorem need_accountingWalk (need : Nat) (layers : List Layer) :
    (accountingWalk need layers).need = needAfter need layers := by
  induction layers generalizing need with
  | nil => rfl
  | cons l below ih => rw [needAfter_cons]; exact ih _

theorem length_accountingWalk (need : Nat) (layers : List Layer) :
    (accountingWalk need layers).visited.length = layers.length := by
  induction layers generalizing need with
  | nil => rfl
  | cons l below ih => exact congrArg (· + 1) (ih _)

theorem temps_accountingWalk (need : Nat) (layers : List Layer) :
    (accountingWalk need layers).visited.map (·.temp) = layers.map (·.temp) := by
  induction layers generalizing need with
  | nil => rfl
  | cons l below ih => exact congrArg (l.temp :: ·) (ih _)

/-- Each stratum gives the lesser of what it has available and what those before it have left of the need. -/
theorem visited_accountingWalk (need : Nat) (before : List Layer) (l : Layer) (behind : List Layer) :
    (accountingWalk need (before ++ l :: behind)).visited[before.length]? =
      some (l.claim (l.takes (needAfter need before))) := by
  induction before generalizing need with
  | nil => rfl
  | cons b before ih =>
    rw [needAfter_cons, ← ih]
    exact List.getElem?_cons_succ

theorem litres_accountingWalk (need : Nat) (layers : List Layer) :
    ((accountingWalk need layers).taken.map (·.litres)).sum + (accountingWalk need layers).need = need := by
  induction layers generalizing need with
  | nil => exact Nat.zero_add need
  | cons l below ih =>
    have hbelow := ih (need - l.takes need)
    have htakes : l.takes need + (need - l.takes need) = need := takes_add_left
    rw [accountingWalk_cons, litres_used]
    dsimp only
    omega

/-- The claims grow by what is taken. -/
theorem claims_accountingWalk (need : Nat) (layers : List Layer) :
    ((accountingWalk need layers).visited.map (·.claimed)).sum =
      (layers.map (·.claimed)).sum + ((accountingWalk need layers).taken.map (·.litres)).sum := by
  induction layers generalizing need with
  | nil => rfl
  | cons l below ih =>
    have hbelow := ih (need - l.takes need)
    rw [accountingWalk_cons, litres_used]
    simp only [List.map_cons, List.sum_cons, Layer.claim]
    omega

theorem pos_accountingWalk (need : Nat) (layers : List Layer) :
    ∀ x ∈ (accountingWalk need layers).taken, 1 ≤ x.litres := by
  induction layers generalizing need with
  | nil => nofun
  | cons l below ih => exact pos_of_mem_used (ih _)

theorem claimed_le_accountingWalk (need : Nat) (h : ∀ l ∈ layers, l.claimed ≤ l.volume) :
    ∀ l ∈ (accountingWalk need layers).visited, l.claimed ≤ l.volume := by
  induction layers generalizing need with
  | nil => nofun
  | cons l below ih =>
    obtain ⟨hl, hbelow⟩ := List.forall_mem_cons.mp h
    exact List.forall_mem_cons.mpr ⟨claimed_claim_le hl, ih _ hbelow⟩

/-- Where need is left, every stratum has given all it had. -/
theorem claimed_eq_accountingWalk (need : Nat) (h : ∀ l ∈ layers, l.claimed ≤ l.volume)
    (hleft : 0 < (accountingWalk need layers).need) :
    ∀ l ∈ (accountingWalk need layers).visited, l.claimed = l.volume := by
  induction layers generalizing need with
  | nil => nofun
  | cons l below ih =>
    obtain ⟨hl, hbelow⟩ := List.forall_mem_cons.mp h
    have hend : 0 < (accountingWalk (need - l.takes need) below).need := hleft
    have hpos : 0 < need - l.takes need := by
      rw [need_accountingWalk, needAfter] at hend
      omega
    exact List.forall_mem_cons.mpr ⟨claimed_claim_eq hl hpos, ih _ hbelow hend⟩

/-! ### The coverage walk (R44) -/

theorem coverageWalk_stops (h : need = 0 ∨ l.temp < thetaMin) :
    coverageWalk thetaMin need (l :: below) = { visited := [], taken := [], need := need, rest := l :: below } :=
  if_pos h

theorem coverageWalk_visits (hneed : 0 < need) (htemp : thetaMin ≤ l.temp) :
    coverageWalk thetaMin need (l :: below) =
      { coverageWalk thetaMin (need - l.takes need) below with
        visited := l.claim (l.takes need) :: (coverageWalk thetaMin (need - l.takes need) below).visited
        taken := l.used (l.takes need) (coverageWalk thetaMin (need - l.takes need) below).taken } :=
  if_neg fun h => h.elim hneed.ne' (Int.not_lt.mpr htemp)

/-- Where a coverage walk stops: behind strata that are warm enough and each found need left, and before one that is too
cold or finds none. -/
structure StopsAt (thetaMin : Temp) (need : Nat) (seen rest : List Layer) : Prop where
  warm : ∀ l ∈ seen, thetaMin ≤ l.temp
  wanted : ∀ before l behind, seen = before ++ l :: behind → 0 < needAfter need before
  stop : ∀ l ∈ rest.head?, needAfter need seen = 0 ∨ l.temp < thetaMin

/-- One more stratum in front of those that a walk goes through. -/
theorem stopsAt_cons (hneed : 0 < need) (htemp : thetaMin ≤ l.temp)
    (h : StopsAt thetaMin (need - l.takes need) seen rest) : StopsAt thetaMin need (l :: seen) rest where
  warm := List.forall_mem_cons.mpr ⟨htemp, h.warm⟩
  wanted := by
    intro before x behind heq
    cases before with
    | nil => exact hneed
    | cons b before =>
      obtain ⟨rfl, hseen⟩ := List.cons.inj heq
      rw [needAfter_cons]
      exact h.wanted before x behind hseen
  stop := by
    rw [needAfter_cons]
    exact h.stop

/-- A coverage walk is the accounting walk of the strata before the one it stops at. -/
theorem coverageWalk_eq (thetaMin : Temp) (need : Nat) (layers : List Layer) :
    ∃ seen rest, layers = seen ++ rest ∧ StopsAt thetaMin need seen rest ∧
      coverageWalk thetaMin need layers = { accountingWalk need seen with rest := rest } := by
  induction layers generalizing need with
  | nil => exact ⟨[], [], rfl, ⟨nofun, by simp, nofun⟩, rfl⟩
  | cons l below ih =>
    by_cases h : need = 0 ∨ l.temp < thetaMin
    · refine ⟨[], l :: below, rfl, ⟨nofun, by simp, fun x hx => ?_⟩, coverageWalk_stops h⟩
      obtain rfl : l = x := Option.some.inj hx
      exact h
    · obtain ⟨hneed, htemp⟩ := not_or.mp h
      have hneed := Nat.pos_of_ne_zero hneed
      have htemp := Int.not_lt.mp htemp
      obtain ⟨seen, rest, hbelow, hstops, hwalk⟩ := ih (need - l.takes need)
      refine ⟨l :: seen, rest, congrArg (l :: ·) hbelow, stopsAt_cons hneed htemp hstops, ?_⟩
      rw [coverageWalk_visits hneed htemp, hwalk, accountingWalk_cons]

/-- The stratum at a place of the layers is one that the coverage walk goes through, or one that it does not reach. -/
theorem seen_or_not (h : before ++ l :: behind = seen ++ rest) :
    (∃ further, seen = before ++ l :: further) ∨ ∃ passed, before = seen ++ passed ∧ rest = passed ++ l :: behind := by
  rcases List.append_eq_append_iff.mp h with ⟨further, hseen, hrest⟩ | ⟨passed, hbefore, hrest⟩
  · cases further with
    | nil => exact .inr ⟨[], by simpa using hseen.symm, hrest.symm⟩
    | cons x further =>
      obtain ⟨rfl, -⟩ := List.cons.inj hrest
      exact .inl ⟨further, hseen⟩
  · exact .inr ⟨passed, hbefore, hrest⟩

/-- Every stratum a coverage walk goes through finds need left, and none so far too cold. -/
theorem goesOn_of_seen (h : StopsAt thetaMin need seen rest) {further : List Layer}
    (hseen : seen = before ++ l :: further) :
    0 < needAfter need before ∧ ∀ x ∈ before ++ [l], thetaMin ≤ x.temp := by
  refine ⟨h.wanted before l further hseen, fun x hx => h.warm x ?_⟩
  rw [hseen, List.append_cons]
  exact List.mem_append_left _ hx

/-- A stratum it does not reach finds no need left, or one so far too cold. -/
theorem not_goesOn_of_passed (h : StopsAt thetaMin need seen rest) {passed : List Layer}
    (hbefore : before = seen ++ passed) (hrest : rest = passed ++ l :: behind) :
    ¬(0 < needAfter need before ∧ ∀ x ∈ before ++ [l], thetaMin ≤ x.temp) := by
  rintro ⟨hneed, hwarm⟩
  have hfirst : ∃ x ∈ rest.head?, x ∈ before ++ [l] := by
    rw [hbefore, hrest]
    cases passed with
    | nil => exact ⟨l, rfl, by simp⟩
    | cons x passed => exact ⟨x, rfl, by simp⟩
  obtain ⟨x, hx, hmem⟩ := hfirst
  rcases h.stop x hx with hnone | hcold
  · rw [hbefore, needAfter_append, hnone, needAfter, Nat.zero_sub] at hneed
    exact Nat.lt_irrefl 0 hneed
  · exact Int.not_lt.mpr (hwarm x hmem) hcold

/-- Settles O22: the coverage walk is the accounting walk of the strata it goes through, and of that walk each clause is
an induction. -/
theorem walksConserveLitres : Obligations.WalksConserveLitres := by
  intro thetaMin need layers hle c a left
  obtain ⟨seen, rest, rfl, hstops, hc⟩ := coverageWalk_eq thetaMin need layers
  have hleft : left = needAfter need := rfl
  obtain ⟨hle_seen, hle_rest⟩ := List.forall_mem_append.mp hle
  have hvisited : c.visited = (accountingWalk need seen).visited := (congrArg Walk.visited hc :)
  have htaken : c.taken = (accountingWalk need seen).taken := (congrArg Walk.taken hc :)
  have hneed : c.need = (accountingWalk need seen).need := (congrArg Walk.need hc :)
  have hrest : c.rest = rest := congrArg Walk.rest hc
  rw [hvisited, htaken, hneed, hrest, hleft]
  refine ⟨fun before l behind heq => ⟨?_, ?_⟩, ?_, length_accountingWalk _ _, rest_accountingWalk _ _, ?_,
    litres_accountingWalk _ _, litres_accountingWalk _ _, ?_, claims_accountingWalk _ _, ?_, ?_,
    claimed_eq_accountingWalk need hle_seen, fun hpos x hx => ?_, claimed_eq_accountingWalk need hle⟩
  · rw [show a = accountingWalk need (before ++ l :: behind) from heq ▸ rfl]
    exact visited_accountingWalk need before l behind
  · rcases seen_or_not heq.symm with ⟨further, hseen⟩ | ⟨passed, hbefore, hpassed⟩
    · refine ⟨fun _ => ?_, fun hstop => absurd (goesOn_of_seen hstops hseen) hstop⟩
      rw [hseen]
      exact visited_accountingWalk need before l further
    · refine ⟨fun hgoes => absurd hgoes (not_goesOn_of_passed hstops hbefore hpassed), fun _ => ⟨?_, ?_⟩⟩
      · rw [hpassed, hbefore, List.length_append, ← length_accountingWalk need seen,
          List.getElem?_append_right (Nat.le_add_right _ _), Nat.add_sub_cancel_left,
          List.getElem?_append_right (Nat.le_refl _), Nat.sub_self]
        rfl
      · rw [length_accountingWalk, hbefore, List.length_append]
        exact Nat.le_add_right _ _
  · rw [length_accountingWalk, List.length_append]
  · simp only [List.forall_mem_append]
    exact ⟨⟨claimed_le_accountingWalk need hle_seen, hle_rest⟩, claimed_le_accountingWalk need hle⟩
  · rw [claims_accountingWalk, List.map_append, List.sum_append]
    omega
  · rw [← List.forall_mem_map (f := Layer.temp) (P := (thetaMin ≤ ·)), temps_accountingWalk, List.forall_mem_map]
    exact hstops.warm
  · exact List.forall_mem_append.mpr ⟨pos_accountingWalk _ _, pos_accountingWalk _ _⟩
  · rw [need_accountingWalk] at hpos
    exact (hstops.stop x hx).resolve_left hpos.ne'

end Sys2Proof.Machine

/-! The verdict of a reservation read off its two walks, and the deficit as the exact sum, rounded up once (§3.2,
§3.3). -/

namespace Sys2Proof.Machine

variable {line : Nat} {margin : Temp} {t : BookTerms} {layers : List Layer}

/-! ### The coverage walk's litres -/

theorem litres_coverageWalk (thetaMin : Temp) (need : Nat) (layers : List Layer) :
    ((coverageWalk thetaMin need layers).taken.map (·.litres)).sum + (coverageWalk thetaMin need layers).need =
      need := by
  obtain ⟨seen, rest, -, -, hwalk⟩ := coverageWalk_eq thetaMin need layers
  rw [hwalk]
  exact litres_accountingWalk need seen

/-! ### The deficit (R47) -/

/-- A quotient rounded up is the least whole figure not below the exact one. -/
theorem ceilDiv_spec (a : Nat) {b : Nat} (hb : 0 < b) : a ≤ ceilDiv a b * b ∧ ceilDiv a b * b < a + b := by
  have hdiv : ceilDiv a b * b + (a + b - 1) % b = a + b - 1 := Nat.div_add_mod' (a + b - 1) b
  have hmod : (a + b - 1) % b < b := Nat.mod_lt _ hb
  omega

/-- The product of a stratum used, with a shortfall below 0 taken as none. -/
theorem product_eq (line : Nat) (target : Temp) (x : Taken) :
    (x.product line target : Int) =
      if x.no < line ∨ target ≤ x.temp then 0 else (x.litres : Int) * (target - x.temp) := by
  unfold Taken.product
  by_cases hline : x.no < line
  · rw [if_pos hline, if_pos (.inl hline)]
    rfl
  · rw [if_neg hline, Nat.cast_mul]
    by_cases hwarm : target ≤ x.temp
    · rw [if_pos (.inr hwarm), Int.toNat_of_nonpos (Int.sub_nonpos_of_le hwarm)]
      exact Int.mul_zero _
    · rw [if_neg (not_or.mpr ⟨hline, hwarm⟩), Int.toNat_of_nonneg (Int.sub_nonneg_of_le (Int.not_le.mp hwarm).le)]

/-- The products of the strata used, summed exactly. -/
theorem sum_products (line : Nat) (target : Temp) (used : List Taken) :
    (((used.map (Taken.product line target)).sum : Nat) : Int) =
      (used.map fun x =>
        if x.no < line ∨ target ≤ x.temp then 0 else (x.litres : Int) * (target - x.temp)).sum := by
  rw [Nat.cast_list_sum, List.map_map]
  exact congrArg List.sum (List.map_congr_left fun x _ => product_eq line target x)

theorem deficitOf_nil (line : Nat) (target : Temp) : deficitOf line target [] = 0 := by
  rw [deficitOf, ceilDiv, List.map_nil, List.sum_nil, Nat.zero_mul]

/-! ### The depth (R45, R46) -/

theorem depthOf_of_getLast? {taken : List Taken} {x : Taken} (h : taken.getLast? = some x) : depthOf taken = x.no := by
  rw [depthOf, h]
  rfl

/-! ### The verdict (R45 to R48) -/

/-- A reservation that its coverage walk serves in full. -/
theorem judge_covered (h : (coverageWalk t.thetaMin t.volume layers).need = 0) :
    let c := coverageWalk t.thetaMin t.volume layers
    judge line margin t layers =
      ({ atRisk := false, covered := t.volume, depth := depthOf c.taken, shortfall := 0
         deficit := deficitOf line (t.thetaMin + margin) c.taken, beyond := false
         marginMet := c.taken.all fun x => decide (t.thetaMin + margin ≤ x.temp) },
       c.visited ++ c.rest) :=
  if_pos h

/-- One that it leaves short, with the accounting walk of the strata it did not reach. -/
theorem judge_short (h : 0 < (coverageWalk t.thetaMin t.volume layers).need) :
    let c := coverageWalk t.thetaMin t.volume layers
    let a := accountingWalk c.need c.rest
    judge line margin t layers =
      ({ atRisk := true, covered := t.volume - c.need, depth := depthOf (c.taken ++ a.taken), shortfall := c.need
         deficit := deficitOf line (t.thetaMin + margin) (c.taken ++ a.taken)
         beyond := (c.taken ++ a.taken).isEmpty || a.taken.any fun x => decide (x.no < line), marginMet := false },
       c.visited ++ a.visited) :=
  if_neg h.ne'

theorem deficit_judge :
    let c := coverageWalk t.thetaMin t.volume layers
    (judge line margin t layers).1.deficit =
      deficitOf line (t.thetaMin + margin)
        (if c.need = 0 then c.taken else c.taken ++ (accountingWalk c.need c.rest).taken) := by
  intro c
  by_cases h : c.need = 0
  · rw [judge_covered h, if_pos h]
  · rw [judge_short (Nat.pos_of_ne_zero h), if_neg h]

/-- A reservation whose coverage walk meets the need. -/
theorem verdict_covered (line : Nat) (margin : Temp) (h : (coverageWalk t.thetaMin t.volume layers).need = 0) :
    let c := coverageWalk t.thetaMin t.volume layers
    let v := (judge line margin t layers).1
    (judge line margin t layers).2 = c.visited ++ c.rest ∧
      v.atRisk = false ∧ v.covered = t.volume ∧ v.shortfall = 0 ∧ v.beyond = false ∧
      (∀ x, c.taken.getLast? = some x → v.depth = x.no) ∧
      (v.marginMet = true ↔ ∀ x ∈ c.taken, t.thetaMin + margin ≤ x.temp) := by
  intro c v
  have hv : v = _ := congrArg Prod.fst (judge_covered (line := line) (margin := margin) h)
  rw [hv, judge_covered h]
  refine ⟨rfl, rfl, rfl, rfl, rfl, fun x => depthOf_of_getLast?, ?_⟩
  simp only [List.all_eq_true, decide_eq_true_eq]
  rfl

/-- One whose coverage walk leaves need. -/
theorem verdict_short (line : Nat) (margin : Temp) (h : 0 < (coverageWalk t.thetaMin t.volume layers).need) :
    let c := coverageWalk t.thetaMin t.volume layers
    let a := accountingWalk c.need c.rest
    let v := (judge line margin t layers).1
    (judge line margin t layers).2 = c.visited ++ a.visited ∧
      v.atRisk = true ∧ v.shortfall = c.need ∧ v.covered + c.need = t.volume ∧ v.marginMet = false ∧
      (∀ x, (c.taken ++ a.taken).getLast? = some x → v.depth = x.no) ∧
      (c.taken ++ a.taken = [] → v.depth = 1 ∧ v.beyond = true ∧ v.deficit = 0 ∧ v.covered = 0) ∧
      (c.taken ++ a.taken ≠ [] → (v.beyond = true ↔ ∃ x ∈ a.taken, x.no < line)) := by
  intro c a v
  have hlitres : (c.taken.map (·.litres)).sum + c.need = t.volume := litres_coverageWalk _ _ _
  have hv : v = _ := congrArg Prod.fst (judge_short (line := line) (margin := margin) h)
  rw [hv, judge_short h]
  refine ⟨rfl, rfl, rfl, Nat.sub_add_cancel (Nat.le.intro ((Nat.add_comm _ _).trans hlitres)), rfl,
    fun x => depthOf_of_getLast?, fun hnone => ?_, fun hsome => ?_⟩
  · have hall : t.volume - c.need = 0 := by
      rw [← hlitres, (List.append_eq_nil_iff.mp hnone).1, List.map_nil, List.sum_nil, Nat.zero_add, Nat.sub_self]
    dsimp only
    rw [hnone]
    exact ⟨rfl, rfl, deficitOf_nil _ _, hall⟩
  · have hused : (c.taken ++ a.taken).isEmpty = false := List.isEmpty_eq_false_iff.mpr hsome
    dsimp only
    rw [hused, Bool.false_or, List.any_eq_true]
    simp only [decide_eq_true_eq]
    rfl

/-- Settles O23: the two cases of `judge`, and a quotient rounded up. -/
theorem verdictsFollowTheWalks : Obligations.VerdictsFollowTheWalks := by
  refine ⟨fun line margin t layers => ⟨verdict_covered line margin, verdict_short line margin⟩, ?_⟩
  intro line target used products d
  have hproducts : (((used.map (Taken.product line target)).sum : Nat) : Int) = products.sum :=
    sum_products line target used
  have hceil := ceilDiv_spec ((used.map (Taken.product line target)).sum * 1163) (b := 10000) (by decide)
  have hd : d = (ceilDiv ((used.map (Taken.product line target)).sum * 1163) 10000 : Nat) := rfl
  rw [hd, ← hproducts]
  refine ⟨?_, ?_, fun margin t layers => deficit_judge⟩
  · exact_mod_cast hceil.1
  · exact_mod_cast hceil.2

end Sys2Proof.Machine

/-! Who is a candidate for a top-up and which station is selected (R50 to R52, R55): what sorting by a key puts
first. -/

namespace Sys2Proof.Machine

variable {s : State} {i : Nat} {depth : Nat}

/-! ### Sorting keeps the order of equal keys -/

/-- In order by a key, and where the keys are equal by an order that stood before. -/
def ThenBy {α : Type} (key : α → Nat) (R : α → α → Prop) (x y : α) : Prop := key x < key y ∨ key x = key y ∧ R x y

theorem pairwise_insertBy {α : Type} {key : α → Nat} {R : α → α → Prop} {x : α} {l : List α}
    (hl : l.Pairwise (ThenBy key R)) (hx : ∀ y ∈ l, R y x) : (insertBy key x l).Pairwise (ThenBy key R) := by
  induction l with
  | nil => exact List.pairwise_singleton _ _
  | cons y ys ih =>
    obtain ⟨hy, hys⟩ := List.pairwise_cons.mp hl
    obtain ⟨hyx, hysx⟩ := List.forall_mem_cons.mp hx
    unfold insertBy
    split
    · next hle =>
      refine List.pairwise_cons.mpr ⟨fun z hz => ?_, ih hys hysx⟩
      rcases List.mem_cons.mp ((perm_insertBy key x ys).mem_iff.mp hz) with rfl | hz
      · exact (Nat.lt_or_eq_of_le hle).imp id fun e => ⟨e, hyx⟩
      · exact hy z hz
    · next hlt =>
      refine List.pairwise_cons.mpr ⟨List.forall_mem_cons.mpr ⟨.inl (by omega), fun z hz => .inl ?_⟩, hl⟩
      rcases hy z hz with h | ⟨h, -⟩ <;> omega

theorem pairwise_sortBy {α : Type} {key : α → Nat} {R : α → α → Prop} {l : List α} (hl : l.Pairwise R) :
    (sortBy key l).Pairwise (ThenBy key R) := by
  induction l using List.reverseRecOn with
  | nil => exact .nil
  | append_singleton l x ih =>
    obtain ⟨hl', -, hlast⟩ := List.pairwise_append.mp hl
    rw [sortBy_concat]
    refine pairwise_insertBy (ih hl') fun y hy => ?_
    exact hlast y ((perm_sortBy key l).mem_iff.mp hy) x List.mem_cons_self

/-- The head of a list in order is at or before each of the list. -/
theorem head_pairwise {α : Type} {R : α → α → Prop} {l : List α} {x : α} (hl : l.Pairwise R) (h : l.head? = some x) :
    ∀ y ∈ l, x = y ∨ R x y := by
  obtain ⟨l, rfl⟩ := List.head?_eq_some_iff.mp h
  exact List.forall_mem_cons.mpr ⟨.inl rfl, fun y hy => .inr ((List.pairwise_cons.mp hl).1 y hy)⟩

theorem sortBy_eq_nil {α : Type} {key : α → Nat} {l : List α} : sortBy key l = [] ↔ l = [] := by
  refine ⟨fun h => (h ▸ perm_sortBy key l : [].Perm l).symm.eq_nil, fun h => ?_⟩
  rw [h]
  rfl

theorem head_sortBy_eq_none {α : Type} {key : α → Nat} {l : List α} : (sortBy key l).head? = none ↔ l = [] := by
  rw [List.head?_eq_none_iff, sortBy_eq_nil]

/-! ### Candidates (R50, R51) -/

theorem inWindow_iff {now : Nat} {t : BookTerms} :
    inWindow now t = true ↔ (dueOf t : Int) - t.lead ≤ now ∧ now < dueOf t := by
  simp only [inWindow, Bool.and_eq_true, decide_eq_true_eq]
  omega

theorem passRecord?_iff {p : Pass} {r : PassRecord} {x : Reservation} :
    s.passRecord? p r = some x ↔
      s.recordOf? r.handle = some x ∧ x.state.isOpen = true ∧ r.handle.slot ∉ p.excepted := by
  unfold State.passRecord?
  split
  · next h =>
    refine ⟨nofun, fun ⟨_, _, hnot⟩ => absurd (List.contains_iff_mem.mp h) hnot⟩
  · next h =>
    rw [Option.filter_eq_some_iff]
    exact and_congr_right fun _ => (and_iff_left fun hmem => h (List.contains_iff_mem.mpr hmem)).symm

theorem isCandidate_iff {p : Pass} {r : PassRecord} {v : Verdict} :
    s.isCandidate p (r, v) = true ↔
      (∃ x, s.recordOf? r.handle = some x ∧ x.state.isOpen = true ∧ r.handle.slot ∉ p.excepted ∧ x.topUp = none) ∧
        v.atRisk = true ∧ (dueOf r.terms : Int) - r.terms.lead ≤ p.now ∧ p.now < dueOf r.terms ∧ 0 < v.deficit := by
  simp only [State.isCandidate, Bool.and_eq_true, Option.any_eq_true, passRecord?_iff, inWindow_iff,
    Option.isNone_iff_eq_none, decide_eq_true_eq, and_assoc]

/-! ### The eligible set (R52) -/

theorem slotHeldBy_eq_none :
    s.slotHeldBy i = none ↔ ∀ n l, 1 ≤ n → n ≤ 8 → s.lease? n = some l → l.holder ≠ i := by
  simp only [State.slotHeldBy, List.find?_eq_none, mem_upTo8, Option.any_eq_true, beq_iff_eq, not_exists, not_and]
  exact ⟨fun h n l h1 h8 => h n ⟨h1, h8⟩ l, fun h n h18 l => h n l h18.1 h18.2⟩

theorem isBought_iff {c : SourceClass} : c.isBought = true ↔ c = .heatPump ∨ c = .combustion ∨ c = .gridElectric := by
  cases c <;> decide

theorem mem_stationIndexes : i ∈ stationIndexes ↔ 1 ≤ i ∧ i ≤ 7 := by
  simp only [stationIndexes, List.mem_cons, List.not_mem_nil, or_false]
  omega

/-- A station's inlet is its entry's; that of entry 0 follows the valve. -/
theorem entryInlet_station (h : 1 ≤ i) : s.entryInlet i = (s.entry i).inlet := if_neg (by omega)

theorem mem_eligibleSet_iff :
    i ∈ s.eligibleSet ↔
      1 ≤ i ∧ i ≤ 7 ∧ (s.entry i).state = .ready ∧
        ((s.entry i).cls = .heatPump ∨ (s.entry i).cls = .combustion ∨ (s.entry i).cls = .gridElectric) ∧
        s.map.reserveLine ≤ (s.entry i).inlet ∧ (∀ n l, 1 ≤ n → n ≤ 8 → s.lease? n = some l → l.holder ≠ i) ∧
        (s.entry i).cooldown = none ∧ s.admission.halted = false := by
  rw [State.eligibleSet, List.mem_filter, mem_stationIndexes, and_assoc]
  refine and_congr_right fun h1 => and_congr_right fun _ => ?_
  simp only [State.eligible, entryInlet_station h1, Bool.and_eq_true, beq_iff_eq, decide_eq_true_eq,
    Option.isNone_iff_eq_none, Bool.not_eq_true', isBought_iff, slotHeldBy_eq_none, and_assoc]

theorem pairwise_eligibleSet (s : State) : s.eligibleSet.Pairwise (· < ·) := List.Pairwise.filter _ (by decide)

/-! ### The station selected (R55) -/

/-- A preferred station that is eligible is taken. -/
theorem selectStation_preferred (h : i ∈ s.eligibleSet) : s.selectStation (some i) depth = some i := by
  have hpref : (some i).filter (fun p => s.eligibleSet.contains p) = some i := by
    rw [Option.filter_some, if_pos (List.contains_iff_mem.mpr h)]
  unfold State.selectStation
  dsimp only
  rw [hpref]

/-- One that is not eligible is passed over. -/
theorem selectStation_passedOver (h : i ∉ s.eligibleSet) :
    s.selectStation (some i) depth = s.selectStation none depth := by
  have hpref : (some i).filter (fun p => s.eligibleSet.contains p) = none := by
    rw [Option.filter_some, if_neg (mt List.contains_iff_mem.mp h)]
  unfold State.selectStation
  dsimp only
  rw [hpref]
  rfl

/-- The eligible stations that reach a depth. -/
def State.reaching (s : State) (depth : Nat) : List Nat := s.eligibleSet.filter fun i => decide (s.entryInlet i ≤ depth)

/-- Without a preferred station: of the stations that reach the depth the first by rank, or else of all the first by
inlet, then by rank. -/
theorem selectStation_none :
    s.selectStation none depth =
      (sortBy s.rankOf (s.reaching depth)).head?.or (sortBy s.entryInlet (sortBy s.rankOf s.eligibleSet)).head? := by
  unfold State.selectStation State.reaching
  dsimp only [Option.filter_none]
  split <;> next hfirst => rw [hfirst]; rfl

theorem selectStation_reaching (h : (sortBy s.rankOf (s.reaching depth)).head? = some i) :
    s.selectStation none depth = some i := by
  rw [selectStation_none, h]
  rfl

theorem selectStation_lowest (h : s.reaching depth = []) :
    s.selectStation none depth = (sortBy s.entryInlet (sortBy s.rankOf s.eligibleSet)).head? := by
  rw [selectStation_none, head_sortBy_eq_none.mpr h, Option.none_or]

/-- Whether some station reaches the depth decides between the two. -/
theorem reaching_cases (s : State) (depth : Nat) :
    s.reaching depth = [] ∨ ∃ i, (sortBy s.rankOf (s.reaching depth)).head? = some i := by
  cases h : (sortBy s.rankOf (s.reaching depth)).head? with
  | none => exact .inl (head_sortBy_eq_none.mp h)
  | some i => exact .inr ⟨i, rfl⟩

theorem selectStation_eq_none {p : Option Nat} : s.selectStation p depth = none ↔ s.eligibleSet = [] := by
  have hnone : s.selectStation none depth = none ↔ s.eligibleSet = [] := by
    rcases reaching_cases s depth with hempty | ⟨i, hi⟩
    · rw [selectStation_lowest hempty, head_sortBy_eq_none, sortBy_eq_nil]
    · rw [selectStation_reaching hi]
      exact iff_of_false nofun (List.ne_nil_of_mem (eligible_of_selectStation (selectStation_reaching hi)))
  cases p with
  | none => exact hnone
  | some i =>
    by_cases hi : i ∈ s.eligibleSet
    · rw [selectStation_preferred hi]
      exact iff_of_false nofun (List.ne_nil_of_mem hi)
    · rw [selectStation_passedOver hi]
      exact hnone

/-- A station selected that reaches the depth is of those that do the first by rank. -/
theorem first_of_reaching (h : s.selectStation none depth = some i) (hi : s.entryInlet i ≤ depth) :
    ∀ j ∈ s.eligibleSet, s.entryInlet j ≤ depth → s.rankOf i < s.rankOf j ∨ s.rankOf i = s.rankOf j ∧ i ≤ j := by
  have hmem : ∀ j, j ∈ s.reaching depth ↔ j ∈ s.eligibleSet ∧ s.entryInlet j ≤ depth := by
    intro j
    rw [State.reaching, List.mem_filter, decide_eq_true_eq]
  rcases reaching_cases s depth with hempty | ⟨i', hi'⟩
  · exact absurd hempty (List.ne_nil_of_mem ((hmem i).mpr ⟨eligible_of_selectStation h, hi⟩))
  · obtain rfl : i' = i := Option.some.inj ((selectStation_reaching hi').symm.trans h)
    intro j hj hjd
    have hsorted : (sortBy s.rankOf (s.reaching depth)).Pairwise (ThenBy s.rankOf (· < ·)) :=
      pairwise_sortBy ((pairwise_eligibleSet s).filter _)
    have hj' := (perm_sortBy s.rankOf _).mem_iff.mpr ((hmem j).mpr ⟨hj, hjd⟩)
    rcases head_pairwise hsorted hi' j hj' with rfl | hlt | ⟨heq, hlt⟩
    · exact .inr ⟨rfl, Nat.le_refl _⟩
    · exact .inl hlt
    · exact .inr ⟨heq, hlt.le⟩

/-- One that does not is the first of all by inlet, then by rank, and none reaches it. -/
theorem first_of_lowest (h : s.selectStation none depth = some i) (hi : depth < s.entryInlet i) :
    ∀ j ∈ s.eligibleSet, depth < s.entryInlet j ∧
      (s.entryInlet i < s.entryInlet j ∨ s.entryInlet i = s.entryInlet j ∧
        (s.rankOf i < s.rankOf j ∨ s.rankOf i = s.rankOf j ∧ i ≤ j)) := by
  rcases reaching_cases s depth with hempty | ⟨i', hi'⟩
  · rw [selectStation_lowest hempty] at h
    intro j hj
    have hnot : ¬s.entryInlet j ≤ depth := fun hle => List.filter_eq_nil_iff.mp hempty j hj (decide_eq_true hle)
    refine ⟨Nat.lt_of_not_le hnot, ?_⟩
    have hsorted := pairwise_sortBy (key := s.entryInlet) (pairwise_sortBy (key := s.rankOf) (pairwise_eligibleSet s))
    have hj' := (perm_sortBy s.entryInlet _).mem_iff.mpr ((perm_sortBy s.rankOf _).mem_iff.mpr hj)
    rcases head_pairwise hsorted h j hj' with rfl | hlt | ⟨heq, hrank | ⟨hrank, hlt⟩⟩
    · exact .inr ⟨rfl, .inr ⟨rfl, Nat.le_refl _⟩⟩
    · exact .inl hlt
    · exact .inr ⟨heq, .inl hrank⟩
    · exact .inr ⟨heq, .inr ⟨hrank, hlt.le⟩⟩
  · obtain rfl : i' = i := Option.some.inj ((selectStation_reaching hi').symm.trans h)
    have hin := (perm_sortBy s.rankOf _).mem_iff.mp (List.mem_of_head? hi')
    have hle := of_decide_eq_true (List.mem_filter.mp hin).2
    omega

/-- Settles O24: the tests of a candidate and of an eligible entry read off their definitions, and the station selected
as the first of a sorted list. -/
theorem candidatesAndStationsAreSelected : Obligations.CandidatesAndStationsAreSelected := by
  refine ⟨fun now t => inWindow_iff, fun s p r v => isCandidate_iff, fun s => ?_⟩
  refine ⟨fun i => mem_eligibleSet_iff, fun p depth => selectStation_preferred,
    fun p depth => selectStation_passedOver, fun p depth => selectStation_eq_none, fun depth i h => ?_⟩
  have hinlet : ∀ j ∈ s.eligibleSet, s.entryInlet j = (s.entry j).inlet :=
    fun j hj => entryInlet_station (mem_eligibleSet hj).1
  have hi := eligible_of_selectStation h
  rw [← hinlet i hi]
  refine ⟨hi, fun hreach j hj hjd => first_of_reaching h hreach j hj (hinlet j hj ▸ hjd), fun hlow j hj => ?_⟩
  rw [← hinlet j hj]
  exact first_of_lowest h hlow j hj

end Sys2Proof.Machine

/-! What the arbiter, the overlap test and the closing of a step leave of the timers: they start no trial and no step
timer (§5.4, §7.4). -/

namespace Sys2Proof.Machine

variable {n : Nat} {x : Option Trial} {w : Option Nat} {s : State}

/-- No other trial runs than `x`, and the lease in slot `n` has the step timer `w` or none. -/
def State.timedBy (s : State) (n : Nat) (x : Option Trial) (w : Option Nat) : Prop :=
  (s.roster.trial = x ∨ s.roster.trial = none) ∧ ∀ l, s.lease? n = some l → l.stepTimer = w ∨ l.stepTimer = none

theorem timedBy_foldl {α : Type} {f : State → α → State} (hf : ∀ s a, s.timedBy n x w → (f s a).timedBy n x w)
    (l : List α) (s : State) (h : s.timedBy n x w) : (l.foldl f s).timedBy n x w := by
  induction l generalizing s with
  | nil => exact h
  | cons a l ih => exact ih _ (hf s a h)

/-! ### Leases and commands -/

/-- A lease changed in its place, its step timer kept or stopped. -/
@[simp] theorem timedBy_modLease (m : Nat) (f : Lease → Lease)
    (hf : ∀ l, (f l).stepTimer = l.stepTimer ∨ (f l).stepTimer = none) (h : s.timedBy n x w) :
    (s.modLease m f).timedBy n x w := by
  refine ⟨h.1, fun l hl => ?_⟩
  by_cases hm : m - 1 = n - 1
  · rw [lease_of_place hm.symm, lease_modLease, Option.map_eq_some_iff] at hl
    obtain ⟨l0, hl0, rfl⟩ := hl
    rw [lease_of_place hm] at hl0
    rcases hf l0 with e | e
    · rw [e]
      exact h.2 l0 hl0
    · exact .inr e
  · rw [lease_modLease_ne hm] at hl
    exact h.2 l hl

theorem roster_place (i : Nat) (c : LinkCmd) (s : State) : (place i c s).roster = s.roster := by
  unfold place markOvertaken
  repeat' split
  all_goals rfl

@[simp] theorem timedBy_place (i : Nat) (c : LinkCmd) (h : s.timedBy n x w) : (place i c s).timedBy n x w := by
  rw [State.timedBy, roster_place, lease?_place]
  exact h

/-! ### The arbiter -/

@[simp] theorem timedBy_stopTrial (h : s.timedBy n x w) : (stopTrial s).timedBy n x w := by
  unfold stopTrial
  split
  · exact h
  · have hnone : (s.modRoster fun r => { r with trial := none }).timedBy n x w := ⟨.inr rfl, h.2⟩
    dsimp only
    split
    · exact timedBy_place _ _ hnone
    · exact hnone

@[simp] theorem timedBy_removeExcess (h : s.timedBy n x w) : (removeExcess s).timedBy n x w := by
  have htaken := timedBy_foldl (f := takePower) (fun s m hs => timedBy_modLease m _ (fun _ => .inl rfl) hs)
    s.removalOrder s h
  unfold removeExcess
  dsimp only
  split
  · exact timedBy_stopTrial htaken
  · exact htaken

@[simp] theorem timedBy_givePower (m : Nat) (h : s.timedBy n x w) : (givePower s m).timedBy n x w := by
  simp only [givePower]; repeat' split
  all_goals simp [h]

@[simp] theorem timedBy_followEntitlement (m : Nat) (h : s.timedBy n x w) :
    (followEntitlement s m).timedBy n x w := by simp [followEntitlement, h]

@[simp] theorem timedBy_followDemand (b : State) (m : Nat) (h : s.timedBy n x w) :
    (followDemand b s m).timedBy n x w := by
  unfold followDemand; repeat' split
  all_goals simp [h]

@[simp] theorem timedBy_publishRate (b : State) (m : Nat) (h : s.timedBy n x w) :
    (publishRate b s m).timedBy n x w := by
  simp only [publishRate]; repeat' split
  all_goals simp [h]

/-- The arbiter stops a trial, or starts nothing. -/
@[simp] theorem timedBy_settle (b : State) (h : s.timedBy n x w) : (settle b s).timedBy n x w := by
  unfold settle
  extract_lets s1 s2 s3 s4
  have h1 : s1.timedBy n x w := timedBy_foldl (fun _ m => timedBy_followEntitlement m) _ _ h
  have h2 : s2.timedBy n x w := timedBy_foldl (fun _ m => timedBy_followDemand b m) _ _ h1
  have h3 : s3.timedBy n x w := by
    unfold s3
    split
    · exact timedBy_removeExcess h2
    · exact h2
  have h4 : s4.timedBy n x w := timedBy_foldl (fun _ m => timedBy_givePower m) _ _ h3
  exact timedBy_foldl (fun _ m => timedBy_publishRate b m) _ _ h4

@[simp] theorem timedBy_settling (f : State → State) (h : (f s).timedBy n x w) : (settling f s).timedBy n x w :=
  timedBy_settle s h

/-! ### Finishing and the overlap -/

@[simp] theorem timedBy_beginRevoking (m : Nat) (l : Lease) (r : LeaseOutcome) (h : s.timedBy n x w) :
    (beginRevoking m l r s).timedBy n x w := by simp [beginRevoking, h]

@[simp] theorem timedBy_beginFinishing (m : Nat) (h : s.timedBy n x w) : (beginFinishing m s).timedBy n x w := by
  simp [beginFinishing, h]

@[simp] theorem timedBy_endZeroHold (m : Nat) (h : s.timedBy n x w) : (endZeroHold m s).timedBy n x w := by
  unfold endZeroHold; repeat' split
  all_goals simp [h]

@[simp] theorem timedBy_recharge (m : Nat) (h : s.timedBy n x w) : (recharge m s).timedBy n x w := by
  unfold recharge
  extract_lets s1
  have h1 : s1.timedBy n x w := timedBy_settling _ (timedBy_modLease m _ (fun _ => .inl rfl) h)
  clear_value s1
  split
  · exact h1
  · exact timedBy_place _ _ h1

@[simp] theorem timedBy_testFinishing (m : Nat) (h : s.timedBy n x w) : (testFinishing m s).timedBy n x w := by
  unfold testFinishing; repeat' split
  · exact h
  · exact timedBy_endZeroHold m (timedBy_settling _ (timedBy_beginFinishing m h))
  · exact timedBy_recharge m h
  · exact h

@[simp] theorem timedBy_beginSuspension (m : Nat) (h : s.timedBy n x w) : (beginSuspension s m).timedBy n x w := by
  unfold beginSuspension; split
  all_goals simp [h]

@[simp] theorem timedBy_beginResumption (m : Nat) (h : s.timedBy n x w) : (beginResumption s m).timedBy n x w := by
  simp only [beginResumption]; repeat' split
  all_goals simp [h]

@[simp] theorem timedBy_announceResume (m : Nat) (h : s.timedBy n x w) : (announceResume s m).timedBy n x w := by
  unfold announceResume; repeat' split
  all_goals simp [h]

@[simp] theorem timedBy_actOnOverlap (b : State) (h : s.timedBy n x w) : (actOnOverlap b s).timedBy n x w := by
  unfold actOnOverlap
  extract_lets back s1 s2 s3 s4
  have h1 : s1.timedBy n x w := timedBy_foldl (fun _ m => timedBy_beginSuspension m) _ _ h
  have h2 : s2.timedBy n x w := timedBy_foldl (fun _ m => timedBy_beginResumption m) _ _ h1
  have h3 : s3.timedBy n x w := timedBy_settle b h2
  have h4 : s4.timedBy n x w := timedBy_foldl (fun _ m => timedBy_announceResume m) _ _ h3
  exact timedBy_foldl (fun _ m => timedBy_testFinishing m) _ _ h4

@[simp] theorem timedBy_testOverlap (h : s.timedBy n x w) : (testOverlap s).timedBy n x w := by
  unfold testOverlap; split
  · exact h
  · exact timedBy_actOnOverlap s h

@[simp] theorem timedBy_callOffEvicted (h : s.timedBy n x w) : (callOffEvicted s).timedBy n x w := by
  unfold callOffEvicted; repeat' split
  · exact h
  · exact timedBy_settling _ (timedBy_stopTrial h)
  · exact h

/-- What closes a step starts no trial and no step timer. -/
theorem timedBy_closing (h : s.timedBy n x w) : (closing s).timedBy n x w :=
  timedBy_callOffEvicted (timedBy_testOverlap h)

/-! ### The trial and one lease's step timer -/

theorem timedBy_self (n : Nat) (s : State) : s.timedBy n s.roster.trial ((s.lease? n).bind (·.stepTimer)) := by
  refine ⟨.inl rfl, fun l hl => .inl ?_⟩
  rw [hl]
  rfl

theorem trial_settle (b s : State) :
    (settle b s).roster.trial = s.roster.trial ∨ (settle b s).roster.trial = none :=
  (timedBy_settle b (timedBy_self 1 s)).1

theorem trial_closing (s : State) : (closing s).roster.trial = s.roster.trial ∨ (closing s).roster.trial = none :=
  (timedBy_closing (timedBy_self 1 s)).1

/-- A trial that an attempt brings is one that ran already, or that of an entry that may have one. -/
theorem trial_tryTrial {y : Trial} (h : (tryTrial s).roster.trial = some y) :
    s.roster.trial = some y ∨ s.mayTry y.entry = true := by
  unfold tryTrial at h
  split at h
  · exact .inl h
  · split at h
    · exact .inl h
    · next i hi =>
      rw [startTrial, roster_place] at h
      obtain rfl := Option.some.inj h
      exact .inr (List.find?_some hi)

end Sys2Proof.Machine

/-! What the roster's timers bring as they run out (§3.4, §5.4, §7.4, §7.7). -/

namespace Sys2Proof.Machine

variable {i n : Nat} {s t u : State}

/-! ### An entry written, and what closing a step leaves -/

theorem entry_modEntry (h : i ≤ 7) (f : Entry → Entry) (s : State) : (s.modEntry i f).entry i = f (s.entry i) :=
  tget_tset_self s.roster.entries i _ _ (by omega)

theorem entry_modEntry_ne {j : Nat} (h : j ≠ i) (f : Entry → Entry) (s : State) :
    (s.modEntry i f).entry j = s.entry j := tget_tset_ne s.roster.entries i j _ _ h.symm

theorem entry_of_calm (h : t.calm = s.calm) : t.entry = s.entry := by
  obtain ⟨-, -, -, hentries, -⟩ := calm_eq_iff.mp h
  funext i
  rw [State.entry, State.entry, hentries]

theorem sameOutside_trans {touched : List Block} (hu : s.sameOutside u touched) (ht : u.sameOutside t touched) :
    s.sameOutside t touched := by
  refine ⟨fun b hb => ?_, ht.2.trans hu.2⟩
  have hsu := hu.1 b hb
  have hut := ht.1 b hb
  cases b <;> exact hut.trans hsu

/-- Outside the blocks that the work on leases may touch, all stands as it stood before that work. -/
theorem sameOutside_of_calm {touched : List Block} (h : t.calm = s.calm)
    (hsub : [Block.admission, .roster, .link] ⊆ touched) : s.sameOutside t touched := by
  obtain ⟨hmap, hbook, hcov, -, -, hsol, hsan, hclk, hport, -, -, hpend⟩ := calm_eq_iff.mp h
  refine ⟨fun b hb => ?_, hpend⟩
  cases b with
  | map => exact hmap
  | book => exact hbook
  | coverage => exact hcov
  | solar => exact hsol
  | sanitise => exact hsan
  | clock => exact hclk
  | port => exact hport
  | admission => exact absurd (hsub (by simp)) hb
  | roster => exact absurd (hsub (by simp)) hb
  | link => exact absurd (hsub (by simp)) hb

theorem sameOutside_modRoster {touched : List Block} (h : .roster ∈ touched) (f : Roster → Roster) (s : State) :
    s.sameOutside (s.modRoster f) touched := by
  refine ⟨fun b hb => ?_, rfl⟩
  cases b with
  | roster => exact absurd h hb
  | _ => rfl

theorem sameOutside_modEntry {touched : List Block} (h : .roster ∈ touched) (i : Nat) (f : Entry → Entry) (s : State) :
    s.sameOutside (s.modEntry i f) touched := sameOutside_modRoster h _ s

theorem sameOutside_modCoverage {touched : List Block} (h : .coverage ∈ touched) (f : Coverage → Coverage)
    (s : State) : s.sameOutside (s.modCoverage f) touched := by
  refine ⟨fun b hb => ?_, rfl⟩
  cases b with
  | coverage => exact absurd h hb
  | _ => rfl

theorem sameOutside_raise {touched : List Block} (h : .port ∈ touched) (f : EventFlag) (s : State) :
    s.sameOutside (s.raise f) touched := by
  refine ⟨fun b hb => ?_, rfl⟩
  cases b with
  | port => exact absurd h hb
  | _ => rfl

theorem slotHeldBy_of_shelf (h : t.shelf = s.shelf) : t.slotHeldBy = s.slotHeldBy := by
  funext i
  refine congrArg (upTo8.find? ·) (funext fun n => Bool.eq_iff_iff.mpr ?_)
  simp only [Option.any_eq_true, beq_iff_eq]
  constructor
  · rintro ⟨l, hl, hi⟩
    obtain ⟨l', hl', hroot⟩ := exists_of_shelf h hl
    exact ⟨l', hl', (same_of_root hroot).2.1.trans hi⟩
  · rintro ⟨l, hl, hi⟩
    obtain ⟨l', hl', hroot⟩ := exists_of_shelf h.symm hl
    exact ⟨l', hl', (same_of_root hroot).2.1.trans hi⟩

/-- The eligible set is read off what the work on leases leaves alone. -/
theorem eligibleSet_of_calm (hcalm : t.calm = s.calm) (hshelf : t.shelf = s.shelf) : t.eligibleSet = s.eligibleSet := by
  obtain ⟨hmap, -, -, -, -, hsol, -, -, -, hdesk, -⟩ := calm_eq_iff.mp hcalm
  have hhalted : t.admission.halted = s.admission.halted := (congrArg Admission.halted hdesk :)
  refine congrArg (stationIndexes.filter ·) (funext fun i => ?_)
  rw [State.eligible, State.eligible, State.entryInlet, State.entryInlet, entry_of_calm hcalm, hmap, hsol, hhalted,
    slotHeldBy_of_shelf hshelf]

/-- What a pass start says of the state it leaves stands while the work on leases goes on. -/
theorem passStarted_of_calm (h : t.calm = u.calm) (hu : s.passStarted u) : s.passStarted t := by
  obtain ⟨hmap, hbook, hcov, -, -, -, -, hclk, -⟩ := calm_eq_iff.mp h
  unfold State.passStarted at hu ⊢
  rw [snapshot_of_eq hmap hbook hclk, hmap, hcov]
  exact hu

theorem sameRoots_closing (h : u.shelf = s.shelf) : s.sameRoots (closing u) :=
  sameRoots_of_shelf ((shelf_closing u).trans h)

theorem sameOutside_closing {touched : List Block} (hsub : [Block.admission, .roster, .link] ⊆ touched)
    (hu : s.sameOutside u touched) : s.sameOutside (closing u) touched :=
  sameOutside_trans hu (sameOutside_of_calm (calm_closing u) hsub)

theorem entry_closing (s : State) : (closing s).entry = s.entry := entry_of_calm (calm_closing s)

/-! ### The decline cooldown (R52, R133) -/

theorem entry_noteEligible (b s : State) : (noteEligible b s).entry = s.entry := by
  rw [noteEligible_eq]
  rfl

theorem shelf_noteEligible (b s : State) : (noteEligible b s).shelf = s.shelf := by
  rw [noteEligible_eq]
  rfl

theorem eligibleSet_noteEligible (b s : State) : (noteEligible b s).eligibleSet = s.eligibleSet := by
  rw [noteEligible_eq]
  rfl

theorem sameOutside_noteEligible {touched : List Block} (h : .coverage ∈ touched) (b s : State) :
    s.sameOutside (noteEligible b s) touched := by
  rw [noteEligible_eq]
  exact sameOutside_modCoverage h _ s

/-- A change noted where it may touch the eligible set, once the step is closed: a pass start where the set changed. -/
theorem passStartedIfEligibleChanged_closing (hcov : u.coverage = s.coverage) :
    s.passStartedIfEligibleChanged (closing (noteEligible s u)) := by
  have hcalm := calm_closing (noteEligible s u)
  have hset : (closing (noteEligible s u)).eligibleSet = u.eligibleSet :=
    (eligibleSet_of_calm hcalm (shelf_closing _)).trans (eligibleSet_noteEligible s u)
  unfold State.passStartedIfEligibleChanged
  rw [hset]
  split
  · next hsame =>
    rw [coverage_of_calm hcalm, noteEligible, if_pos hsame, hcov]
  · next hchanged =>
    have hstart : noteEligible s u = passStart u := if_neg hchanged
    rw [hstart]
    refine passStarted_of_calm (calm_closing (passStart u)) ?_
    have hu := passStarted_passStart u
    unfold State.passStarted at hu ⊢
    rw [← hcov]
    exact hu

theorem endCooldown_none (h : (s.entry i).cooldown = none) : endCooldown i s = s :=
  if_neg (by rw [h]; exact Bool.false_ne_true)

theorem endCooldown_running (h : (s.entry i).cooldown ≠ none) :
    endCooldown i s = closing (noteEligible s (s.modEntry i fun e => { e with cooldown := none })) :=
  if_pos (Option.isSome_iff_ne_none.mpr h)

theorem cooldown_ends (hi : i ≤ 7) (h : (s.entry i).cooldown ≠ none) :
    ∃ t, exec (.declineCooldownExpiry i) s = .next t ∧ t.entry i = { s.entry i with cooldown := none } ∧
      (∀ j, j ≤ 7 → j ≠ i → t.entry j = s.entry j) ∧ s.passStartedIfEligibleChanged t ∧
      s.sameOutside t [.coverage, .admission, .roster, .link] ∧ s.sameRoots t := by
  refine ⟨_, congrArg Host.Outcome.next (endCooldown_running h), ?_, fun j _ hj => ?_,
    passStartedIfEligibleChanged_closing rfl, sameOutside_closing (by decide) ?_,
    sameRoots_closing (shelf_noteEligible _ _)⟩
  · rw [entry_closing, entry_noteEligible, entry_modEntry hi]
  · rw [entry_closing, entry_noteEligible, entry_modEntry_ne hj]
  · exact sameOutside_trans (sameOutside_modEntry (by decide) i _ s) (sameOutside_noteEligible (by decide) s _)

/-! ### The retry timer (R124) -/

theorem endRetry_none (h : (s.entry i).retry = none) : endRetry i s = s :=
  if_neg (by rw [h]; exact Bool.false_ne_true)

theorem endRetry_running (h : (s.entry i).retry ≠ none) :
    endRetry i s = closing (tryTrial (s.modEntry i fun e => { e with retry := none })) :=
  if_pos (Option.isSome_iff_ne_none.mpr h)

theorem retry_ends (hi : i ≤ 7) (h : (s.entry i).retry ≠ none) :
    ∃ t, exec (.retryTimerExpiry i) s = .next t ∧ t.entry i = { s.entry i with retry := none } ∧
      (∀ j, j ≤ 7 → j ≠ i → t.entry j = s.entry j) ∧ s.sameOutside t [.admission, .roster, .link] ∧
      s.sameRoots t := by
  have htried := calm_tryTrial (s.modEntry i fun e => { e with retry := none })
  refine ⟨_, congrArg Host.Outcome.next (endRetry_running h), ?_, fun j _ hj => ?_,
    sameOutside_closing (by decide) ?_, sameRoots_closing (shelf_tryTrial _)⟩
  · rw [entry_closing, entry_of_calm htried, entry_modEntry hi]
  · rw [entry_closing, entry_of_calm htried, entry_modEntry_ne hj]
  · exact sameOutside_trans (sameOutside_modEntry (by decide) i _ s) (sameOutside_of_calm htried (by decide))

/-! ### The window of a trial (R125) -/

/-- A failure before the seventh starts the retry timer. -/
theorem countFailure_retries (h : (s.entry i).failures < 6) :
    countFailure i s =
      s.modEntry i fun e => { e with failures := (s.entry i).failures + 1, retry := some 120 } :=
  if_pos (Nat.succ_lt_succ h)

/-- The seventh bars the entry. -/
theorem countFailure_bars (h : 6 ≤ (s.entry i).failures) :
    countFailure i s =
      (s.modEntry i fun e =>
        { e with failures := (s.entry i).failures + 1, state := .barred, retry := none }).raise .stationBarred :=
  if_neg (Nat.not_lt.mpr (Nat.succ_le_succ h))

theorem entry_raise (f : EventFlag) (s : State) : (s.raise f).entry = s.entry := rfl

theorem entry_countFailure_ne {j : Nat} (h : j ≠ i) (s : State) : (countFailure i s).entry j = s.entry j := by
  rcases Nat.lt_or_ge (s.entry i).failures 6 with hfew | hmany
  · rw [countFailure_retries hfew, entry_modEntry_ne h]
  · rw [countFailure_bars hmany, entry_raise, entry_modEntry_ne h]

theorem beside_countFailure (i : Nat) (s : State) :
    s.sameOutside (countFailure i s) [.admission, .roster, .link, .port] ∧ (countFailure i s).shelf = s.shelf ∧
      (countFailure i s).roster.trial = s.roster.trial := by
  rcases Nat.lt_or_ge (s.entry i).failures 6 with hfew | hmany
  · rw [countFailure_retries hfew]
    exact ⟨sameOutside_modEntry (by decide) i _ s, rfl, rfl⟩
  · rw [countFailure_bars hmany]
    exact ⟨sameOutside_trans (sameOutside_modEntry (by decide) i _ s) (sameOutside_raise (by decide) _ _), rfl, rfl⟩

/-- An entry whose failure has been counted waits for its retry timer or is barred, and may have no trial. -/
theorem mayTry_countFailure (hi : i ≤ 7) (h : t.entry = (countFailure i s).entry) : t.mayTry i = false := by
  rw [State.mayTry, h]
  rcases Nat.lt_or_ge (s.entry i).failures 6 with hfew | hmany
  · rw [countFailure_retries hfew, entry_modEntry hi]
    simp
  · rw [countFailure_bars hmany, entry_raise, entry_modEntry hi]
    simp

/-- The failure of a trial counted, before the arbiter gives out what it held. -/
def State.counted (s : State) (x : Trial) : State :=
  countFailure x.entry (s.modRoster fun r => { r with trial := none })

theorem counted_retries {x : Trial} (h : (s.entry x.entry).failures < 6) :
    s.counted x =
      (s.modRoster fun r => { r with trial := none }).modEntry x.entry fun e =>
        { e with failures := (s.entry x.entry).failures + 1, retry := some 120 } := countFailure_retries h

theorem counted_bars {x : Trial} (h : 6 ≤ (s.entry x.entry).failures) :
    s.counted x =
      ((s.modRoster fun r => { r with trial := none }).modEntry x.entry fun e =>
        { e with failures := (s.entry x.entry).failures + 1, state := .barred, retry := none }).raise .stationBarred :=
  countFailure_bars h

theorem failTrial_eq (x : Trial) (s : State) : failTrial x s = tryTrial (settle s (s.counted x)) := rfl

theorem calm_failTrial (x : Trial) (s : State) : (failTrial x s).calm = (s.counted x).calm := by
  rw [failTrial_eq, calm_tryTrial, calm_settle]

theorem shelf_failTrial (x : Trial) (s : State) : (failTrial x s).shelf = s.shelf := by
  rw [failTrial_eq, shelf_tryTrial, shelf_settle]
  exact (beside_countFailure _ _).2.1

theorem sameOutside_counted (x : Trial) (s : State) :
    s.sameOutside (s.counted x) [.admission, .roster, .link, .port] :=
  sameOutside_trans (sameOutside_modRoster (by decide) _ s) (beside_countFailure _ _).1

/-- The trial that failed is over; another's may run. -/
theorem trial_failTrial {x y : Trial} (hx : x.entry ≤ 7) (h : (failTrial x s).roster.trial = some y) :
    y.entry ≠ x.entry := by
  have hnone : (s.counted x).roster.trial = none := (beside_countFailure _ _).2.2
  have hover : (settle s (s.counted x)).roster.trial = none := (trial_settle s (s.counted x)).elim (·.trans hnone) id
  rw [failTrial_eq] at h
  intro heq
  rcases trial_tryTrial h with hran | hmay
  · rw [hover] at hran
    cases hran
  · rw [heq, mayTry_countFailure hx (entry_of_calm (calm_settle s (s.counted x)))] at hmay
    cases hmay

theorem endTrialWindow_none (h : ∀ x, s.roster.trial = some x → x.window = none) : endTrialWindow s = s := by
  unfold endTrialWindow
  split
  · rfl
  · next x hx => rw [h x hx, if_neg (by decide)]

theorem endTrialWindow_running {x : Trial} {w : Nat} (hx : s.roster.trial = some x) (hw : x.window = some w) :
    endTrialWindow s = closing (failTrial x s) := by
  rw [endTrialWindow, hx]
  dsimp only
  rw [hw]
  rfl

theorem trial_fails {x : Trial} {w : Nat} (hi : x.entry ≤ 7) (hx : s.roster.trial = some x) (hw : x.window = some w) :
    ∃ t, exec .trialWindowEnd s = .next t ∧
      ((s.entry x.entry).failures < 6 →
        t.entry x.entry =
            { s.entry x.entry with failures := (s.entry x.entry).failures + 1, retry := some 120 } ∧
          t.port = s.port) ∧
      (6 ≤ (s.entry x.entry).failures →
        t.entry x.entry =
            { s.entry x.entry with
              failures := (s.entry x.entry).failures + 1, state := .barred, retry := none } ∧
          t.port = { s.port with flags := s.port.flags ||| EventFlag.one .stationBarred }) ∧
      (∀ j, j ≤ 7 → j ≠ x.entry → t.entry j = s.entry j) ∧ (∀ y, t.roster.trial = some y → y.entry ≠ x.entry) ∧
      s.sameOutside t [.admission, .roster, .link, .port] ∧ s.sameRoots t := by
  have hcalm := (calm_closing (failTrial x s)).trans (calm_failTrial x s)
  obtain ⟨-, -, -, -, -, -, -, -, hport, -⟩ := calm_eq_iff.mp hcalm
  refine ⟨_, congrArg Host.Outcome.next (endTrialWindow_running hx hw), fun hfew => ?_, fun hmany => ?_,
    fun j _ hj => ?_, fun y hy => ?_,
    sameOutside_trans (sameOutside_counted x s) (sameOutside_of_calm hcalm (by decide)),
    sameRoots_closing (shelf_failTrial x s)⟩
  · rw [entry_of_calm hcalm, hport, counted_retries hfew, entry_modEntry hi]
    exact ⟨rfl, rfl⟩
  · rw [entry_of_calm hcalm, hport, counted_bars hmany, entry_raise, entry_modEntry hi]
    exact ⟨rfl, rfl⟩
  · rw [entry_of_calm hcalm, State.counted, entry_countFailure_ne hj]
    rfl
  · rcases trial_closing (failTrial x s) with e | e
    · exact trial_failTrial hi (e.symm.trans hy)
    · rw [e] at hy
      cases hy

/-! ### The step timer of a learned cap (R100) -/

/-- The step timer of the lease in slot `n` starts again. -/
def State.restarted (s : State) (n : Nat) : State := s.modLease n fun l => { l with stepTimer := some 60 }

theorem lease_restarted {l : Lease} (hl : s.lease? n = some l) :
    (s.restarted n).lease? n = some { l with stepTimer := some 60 } := by
  rw [State.restarted, lease_modLease, hl]
  rfl

theorem calm_restarted (n : Nat) (s : State) : (s.restarted n).calm = s.calm := calm_modLease n _ s

theorem shelf_restarted (n : Nat) (s : State) : (s.restarted n).shelf = s.shelf := by
  apply shelf_modLease
  intro _
  rfl

theorem leaseOf?_live {h : Handle} (hlive : s.resolveLease h = .live) : s.leaseOf? h = s.lease? h.slot := if_pos hlive

theorem isRunning_iff {x : LeaseState} : x.isRunning = true ↔ x = .admitted ∨ x = .throttled := by
  cases x <;> decide

section stepTimer

variable {h : Handle} {l : Lease} (hlive : s.resolveLease h = .live) (hl : s.lease? h.slot = some l)

include hlive hl

theorem endStepTimer_idle
    (hidle : l.stepTimer = none ∨ l.limitMark = false ∨ (l.state ≠ .admitted ∧ l.state ≠ .throttled)) :
    endStepTimer h s = s := by
  rw [endStepTimer, leaseOf?_live hlive, hl]
  refine if_neg fun hall => ?_
  simp only [Bool.and_eq_true, isRunning_iff, Option.isSome_iff_ne_none] at hall
  obtain ⟨⟨htimer, hmark⟩, hrunning⟩ := hall
  rcases hidle with hnone | hclear | ⟨hadmitted, hthrottled⟩
  · exact htimer hnone
  · rw [hclear] at hmark
    cases hmark
  · exact hrunning.elim hadmitted hthrottled

theorem endStepTimer_running (htimer : l.stepTimer ≠ none) (hmark : l.limitMark = true)
    (hstate : l.state = .admitted ∨ l.state = .throttled) :
    endStepTimer h s = closing (takeLearnedStep l.holder (s.restarted h.slot)) := by
  rw [endStepTimer, leaseOf?_live hlive, hl]
  refine if_pos ?_
  rw [Option.isSome_iff_ne_none.mpr htimer, hmark, isRunning_iff.mpr hstate]
  rfl

end stepTimer

theorem calm_takeLearnedStep (i : Nat) (s : State) :
    (takeLearnedStep i s).calm =
      (s.modEntry i fun e => { e with learned := e.learned.map (stepDown e.declared) }).calm := by
  rw [takeLearnedStep, calm_settling]

theorem shelf_takeLearnedStep (i : Nat) (s : State) : (takeLearnedStep i s).shelf = s.shelf := by
  rw [takeLearnedStep, shelf_settling]
  rfl

/-- The step timer set before a learned-cap step is taken runs on from there, or stops. -/
theorem timedBy_takeLearnedStep (i : Nat) {l : Lease} (hl : s.lease? n = some l) :
    (closing (takeLearnedStep i s)).timedBy n s.roster.trial l.stepTimer := by
  have hself := timedBy_self n s
  rw [hl] at hself
  exact timedBy_closing (timedBy_settling _ hself)

theorem step_taken {h : Handle} {l : Lease} (hi : l.holder ≤ 7) (hlive : s.resolveLease h = .live)
    (hl : s.lease? h.slot = some l) (htimer : l.stepTimer ≠ none) (hmark : l.limitMark = true)
    (hstate : l.state = .admitted ∨ l.state = .throttled) :
    ∃ t, exec (.learnedCapStepTimerExpiry h) s = .next t ∧
      t.entry l.holder =
        { s.entry l.holder with
          learned := (s.entry l.holder).learned.map fun x =>
            max (x - max 100 ((s.entry l.holder).declared * 5 / 100 / 100 * 100))
              (min 500 (s.entry l.holder).declared) } ∧
      (∀ l', t.lease? h.slot = some l' → l'.stepTimer = some 60 ∨ l'.stepTimer = none) ∧
      (∀ j, j ≤ 7 → j ≠ l.holder → t.entry j = s.entry j) ∧
      s.sameOutside t [.admission, .roster, .link] ∧ s.sameRoots t := by
  have hcalm := calm_takeLearnedStep l.holder (s.restarted h.slot)
  have hentry : (s.restarted h.slot).entry = s.entry := rfl
  have houtside : s.sameOutside (s.restarted h.slot) [.admission, .roster, .link] :=
    sameOutside_of_calm (calm_restarted _ _) (by decide)
  refine ⟨_, congrArg Host.Outcome.next (endStepTimer_running hlive hl htimer hmark hstate), ?_,
    (timedBy_takeLearnedStep l.holder (lease_restarted hl)).2, fun j _ hj => ?_,
    sameOutside_closing (by decide) (sameOutside_trans houtside (sameOutside_trans
      (sameOutside_modEntry (by decide) l.holder _ _) (sameOutside_of_calm hcalm (by decide)))),
    sameRoots_closing ((shelf_takeLearnedStep _ _).trans (shelf_restarted _ _))⟩
  · rw [entry_closing, entry_of_calm hcalm, entry_modEntry hi, hentry]
    rfl
  · rw [entry_closing, entry_of_calm hcalm, entry_modEntry_ne hj, hentry]

/-- Settles O41: each timer as it runs out, and the closing of the step, which starts none of them. -/
theorem rosterTimersExpire : Obligations.RosterTimersExpire := by
  intro s i hi e others
  refine ⟨fun h => congrArg Host.Outcome.next (endCooldown_none h), cooldown_ends hi,
    fun h => congrArg Host.Outcome.next (endRetry_none h), retry_ends hi,
    fun h => congrArg Host.Outcome.next (endTrialWindow_none h), ?_, fun h l hlive hl => ⟨fun hidle => ?_, ?_⟩⟩
  · rintro x w hx hw rfl
    exact trial_fails hi hx hw
  · exact congrArg Host.Outcome.next (endStepTimer_idle hlive hl hidle)
  · rintro htimer hmark hstate rfl
    exact step_taken hi hlive hl htimer hmark hstate

end Sys2Proof.Machine

/-! ### A SOLAR lease that has CEASED

The table that `State.tableInOrder` describes admits a SOLAR lease in REVOKING with reason CEASED. The end of its
revoke time removes the lease, and CEASED alone of the outcomes is not one that the loop is told of: the loop stays in
CHARGING with no SOLAR lease, which no table in order has. -/

namespace Sys2Proof.Machine

/-- The SOLAR lease in REVOKING with reason CEASED. -/
def ceasedLease : Lease :=
  { Lease.fresh .solar .part 0 1 850 with state := .revoking, reason := some .ceased, revokeTime := some 1 }

/-- The part after reset with the loop CHARGING, that lease in slot 1 and the end of its revoke time at the front of
the queue. -/
def loopCeasing : State :=
  { ((State.reset.modSolar fun v => { v with state := .charging }).setLeaseSlot 1
      { issue := 0, lease := some ceasedLease }) with pending := [.revokeTimeout { slot := 1, issue := 0 }] }

theorem legal_loopCeasing : loopCeasing.legal := by
  have hreset := legal_iff_inOrder.mpr inOrder_reset
  exact hreset

open Sys2Proof.Tests in
theorem tableInOrder_loopCeasing : loopCeasing.tableInOrder := tableInOrder_of _ (by decide +kernel)

/-- That part when the end of the revoke time has been taken. -/
def loopCeased : State := endRevokeTime { slot := 1, issue := 0 } { loopCeasing with pending := [] }

theorem step_loopCeasing : step loopCeasing = .next loopCeased := rfl

/-- The loop is left CHARGING, and the table empty. -/
theorem loopCeased_spec : loopCeased.solar.state.hasLease = true ∧ ∀ n ∈ upTo8, loopCeased.lease? n = none := by
  decide +kernel

/-- Refutes O59: the revoke time of `ceasedLease` ends. -/
theorem not_everyStepKeepsTheLeaseTable : ¬ Obligations.EveryStepKeepsTheLeaseTable := by
  intro h
  obtain ⟨hcharging, hempty⟩ := loopCeased_spec
  obtain ⟨-, -, -, -, hsolar, -⟩ := h loopCeasing loopCeased legal_loopCeasing tableInOrder_loopCeasing step_loopCeasing
  obtain ⟨n, l, h1, h8, hl, -⟩ := hsolar.mpr hcharging
  rw [hempty n (mem_upTo8.mpr ⟨h1, h8⟩)] at hl
  cases hl

end Sys2Proof.Machine

/-! ### One second

What a second takes from each block, and the events it brings: a timer that runs out in it is one that stands at 1 or
at 0. -/

namespace Sys2Proof.Machine
variable {s : State} {n i : Nat} {e c : Instr} {l : Lease}

theorem runsOut_iff {x : Option Nat} : runsOut x = true ↔ ∃ k, x = some k ∧ k ≤ 1 := by
  simp [runsOut, Option.any_eq_true]

theorem mem_due {b : Bool} : e ∈ due b c ↔ e = c ∧ b = true := by
  cases b <;> simp [due]

theorem halfSeconds_eq (halfRate : Bool) (st : LeaseState) :
    halfSeconds halfRate st =
      if st = .admitted ∨ st = .finishing then 2 else if st = .throttled then (if halfRate then 1 else 2) else 0 := by
  cases st <;> rfl

/-- The duration timer runs in the states in which a second takes something from it (R74). -/
theorem counts_iff (halfRate : Bool) {st : LeaseState} : st.counts = true ↔ 0 < halfSeconds halfRate st := by
  cases st <;> cases halfRate <;> simp [LeaseState.counts, halfSeconds]

theorem durationDue_iff {halfRate : Bool} :
    l.durationDue halfRate = true ↔
      0 < halfSeconds halfRate l.state ∧ ∃ x, l.timer = some x ∧ x ≤ halfSeconds halfRate l.state := by
  rw [Lease.durationDue, Bool.and_eq_true, counts_iff halfRate, Option.any_eq_true]
  simp only [decide_eq_true_eq]

theorem spacingAfter_one (x : Option Nat) : spacingAfter 1 x = (x.map (· - 1)).filter (0 < ·) := by
  cases x with
  | none => rfl
  | some n =>
    by_cases h : n ≤ 1
    · simp [spacingAfter, Option.filter, h]
    · simp [spacingAfter, Option.filter, h, Nat.lt_of_not_le h]

theorem clockTick_eq (k : Clock) :
    k.tick = { k with second := if k.set = true ∧ k.second < 59 then k.second + 1
                        else if k.set = true ∧ k.day = 65535 ∧ k.minute = 1439 then 0 else k.second } := by
  obtain ⟨set, day, minute, second⟩ := k
  simp only [Clock.tick, atEnd_iff]
  by_cases hset : set = true
  · by_cases hsecond : second < 59
    · simp [hset, hsecond]
    · simp only [hset, hsecond, if_true, if_false, and_false, true_and]
      split <;> rfl
  · simp [hset]

theorem minuteDue_iff {k : Clock} :
    k.minuteDue = true ↔ k.set = true ∧ 59 ≤ k.second ∧ ¬(k.day = 65535 ∧ k.minute = 1439) := by
  simp [Clock.minuteDue, ← atEnd_iff, and_assoc]

/-! ### Leases and entries -/

theorem leaseSlot_tick (s : State) (n : Nat) :
    (tick s).leaseSlot n =
      { s.leaseSlot n with lease := (s.leaseSlot n).lease.map (Lease.tick s.admission.halfRate) } :=
  tget_map (fun x : LeaseSlot => LeaseSlot.mk x.issue (x.lease.map (Lease.tick s.admission.halfRate)))
    s.admission.leases (n - 1) .initial

theorem entry_tick (s : State) (i : Nat) : (tick s).entry i = (s.entry i).tick :=
  tget_map Entry.tick s.roster.entries i .absent

theorem mem_leaseEvents :
    e ∈ s.leaseEvents n ↔ ∃ l, s.lease? n = some l ∧ e ∈ l.events s.admission.halfRate (s.leaseHandle n) := by
  unfold State.leaseEvents
  cases s.lease? n <;> simp

theorem mem_events_lease {halfRate : Bool} {h : Handle} :
    e ∈ l.events halfRate h ↔
      (e = .finishingHoldExpiry h ∧ l.state = .finishing ∧ runsOut l.hold = true) ∨
        (e = .durationExpiry h ∧ l.durationDue halfRate = true) ∨
        (e = .revokeTimeout h ∧ l.state = .revoking ∧ runsOut l.revokeTime = true) ∨
        (e = .learnedCapStepTimerExpiry h ∧ runsOut l.stepTimer = true) := by
  simp only [Lease.events, List.mem_append, mem_due, Bool.and_eq_true, beq_iff_eq, or_assoc]

theorem mem_events :
    e ∈ s.events ↔
      (e = .sweepStart ∧ s.map.sweepIn ≤ 1) ∨ (e = .clockMinuteAdvance ∧ s.clock.minuteDue = true) ∨
        (∃ n, (1 ≤ n ∧ n ≤ 8) ∧ e ∈ s.leaseEvents n) ∨ (∃ i, (1 ≤ i ∧ i ≤ 7) ∧ e ∈ s.entryEvents i) ∨
        (e = .trialWindowEnd ∧ ∃ y, s.roster.trial = some y ∧ runsOut y.window = true) ∨
        e ∈ s.link.events ∨ e ∈ s.solar.events := by
  simp only [State.events, List.mem_append, mem_due, List.mem_flatMap, mem_upTo8, mem_stationIndexes,
    decide_eq_true_eq, Option.any_eq_true, or_assoc]

/-- Settles O2: an empty queue takes `tick`, block by block, and its events are those of `mem_events`. -/
theorem anEmptyQueueIsOneSecond : Obligations.AnEmptyQueueIsOneSecond := by
  intro s hidle
  have hstep : step s = .next (tick s) := by rw [step, hidle]
  refine ⟨tick s, hstep, rfl, clockTick_eq _, fun n => ?_, fun n => ?_, rfl, fun i _ => entry_tick s i, rfl, rfl, rfl,
    ?_, rfl, rfl, rfl, rfl, rfl, fun e => ?_⟩
  · rw [leaseSlot_tick]
  · simp only [State.lease?, leaseSlot_tick, ← halfSeconds_eq]
    rfl
  · simp only [← spacingAfter_one]
    rfl
  · have hpending : (tick s).pending = s.events := by simp [tick, hidle]
    simp only [hpending, mem_events, minuteDue_iff, mem_leaseEvents, mem_events_lease, durationDue_iff, halfSeconds_eq,
      State.entryEvents, Link.events, Solar.events, List.mem_append, mem_due, runsOut_iff, or_assoc]
    grind

end Sys2Proof.Machine

/-! ### The parameters of the admission controller

The lease parameters, the site power budget, the solar rating and auto-cap (§5.2, §6.1, §6.3, §7.3): each is written
and the arbiter settles what follows; outside the lease table's work nothing but the parameter changes. -/

namespace Sys2Proof.Machine
variable {s u w : State} {v : Int} {n : Nat}

/-- A parameter request answered OK leaves the parameters as its write left them and no more of the leases changed than
their allocations and what hangs on those. -/
theorem parameter_answered {code : Byte} {work : State → Reply} (hidle : s.isWorking = false)
    (hw : work s = .okWith [] u) (hcalm : u.calm = w.calm) (hshelf : u.shelf = s.shelf)
    (hwrite : s.sameOutside w [.admission, .roster, .link]) (hentries : w.roster.entries = s.roster.entries) :
    ∃ t, (.next (request code work s) : Host.Outcome State Fault Refusal) = .next t ∧ s.answersOk t code [] ∧
      t.admission.desk = w.admission.desk ∧ t.roster.autoCap = w.roster.autoCap ∧
      s.sameOutside t [.admission, .roster, .link, .port] ∧ t.roster.entries = s.roster.entries ∧ s.sameRoots t := by
  have hu : s.sameOutside u [.admission, .roster, .link] :=
    sameOutside_trans hwrite (sameOutside_of_calm hcalm (List.Subset.refl _))
  have houtside : s.sameOutside u [.admission, .roster, .link, .port] :=
    ⟨fun b hb => hu.1 b fun h => hb (by revert h; cases b <;> decide), hu.2⟩
  obtain ⟨-, -, -, hent, hauto, -, -, -, -, hdesk, -⟩ := calm_eq_iff.mp ((calm_closing u).trans hcalm)
  refine ⟨_, rfl, ?_⟩
  rw [request_ok hidle hw]
  exact ⟨answersOk_answered (hu.1 .port (by decide)), hdesk, hauto, sameOutside_answered (by simp) houtside,
    hent.trans hentries, sameRoots_of_shelf ((shelf_closing u).trans hshelf)⟩

theorem sameOutside_modAdmission (f : Admission → Admission) (s : State) :
    s.sameOutside (s.modAdmission f) [.admission, .roster, .link] := by
  refine ⟨fun b hb => ?_, rfl⟩
  cases b with
  | admission => simp at hb
  | _ => rfl

theorem within_false {lo hi : Int} (h : v < lo ∨ hi < v) : within lo hi v = false :=
  Bool.eq_false_iff.mpr fun hin => by have := within_iff.mp hin; omega

theorem onOff_inRange (h0 : 0 ≤ v) (h1 : v ≤ 1) : onOff v = some (v == 1) := by
  obtain rfl | rfl : v = 0 ∨ v = 1 := by omega
  all_goals rfl

theorem onOff_none (h : v < 0 ∨ 1 < v) : onOff v = none := by
  rw [onOff, if_neg (by omega), if_neg (by omega)]

/-! ### The lease parameters (R75) -/

/-- The numbers and values of the lease parameters. -/
def leaseParameterInRange (n : Nat) (v : Int) : Prop :=
  (n = 16 ∧ 30 ≤ v ∧ v ≤ 480) ∨ (n = 17 ∧ 0 ≤ v ∧ v ≤ 30) ∨ (n = 18 ∧ 0 ≤ v ∧ v ≤ 1)

theorem setLease_inRange (a : Admission) (h : leaseParameterInRange n v) :
    a.setLease n v =
      some { a with
        topUpLimit := if n = 16 then v.toNat else a.topUpLimit
        finishHold := if n = 17 then v.toNat else a.finishHold
        halfRate := if n = 18 then v == 1 else a.halfRate } := by
  rcases h with ⟨rfl, hv⟩ | ⟨rfl, hv⟩ | ⟨rfl, hv⟩
  · exact if_pos (within_iff.mpr hv)
  · exact if_pos (within_iff.mpr hv)
  · exact congrArg (Option.map _) (onOff_inRange hv.1 hv.2)

theorem setLease_none (a : Admission) (h : ¬leaseParameterInRange n v) : a.setLease n v = none := by
  unfold leaseParameterInRange at h
  unfold Admission.setLease
  split
  · exact if_neg fun hin => h (.inl ⟨rfl, within_iff.mp hin⟩)
  · exact if_neg fun hin => h (.inr (.inl ⟨rfl, within_iff.mp hin⟩))
  · rw [onOff_none (by omega)]
    rfl
  · rfl

theorem takeLeaseParameter_inRange (h : leaseParameterInRange n v) :
    takeLeaseParameter n v s = .okWith [] (s.modAdmission fun a =>
      { a with
        topUpLimit := if n = 16 then v.toNat else a.topUpLimit
        finishHold := if n = 17 then v.toNat else a.finishHold
        halfRate := if n = 18 then v == 1 else a.halfRate }) := by
  rw [takeLeaseParameter, setLease_inRange s.admission h]
  rfl

/-! ### The site power budget, the solar rating and auto-cap (R89, R94, R120) -/

theorem takeSiteBudget_badField (h : v < 0 ∨ 200 < v) : takeSiteBudget v s = .no .badField s := if_pos (within_false h)

theorem takeSolarRating_badField (h : v < 5 ∨ 150 < v) : takeSolarRating v s = .no .badField s :=
  if_pos (within_false h)

theorem takeAutoCap_badField (h : v < 0 ∨ 1 < v) : takeAutoCap v s = .no .badField s := by
  rw [takeAutoCap, onOff_none h]

theorem takeSiteBudget_inRange (h0 : 0 ≤ v) (h200 : v ≤ 200) :
    ∃ u, takeSiteBudget v s = .okWith [] u ∧ u.shelf = s.shelf ∧
      u.calm = (s.modAdmission fun a => { a with siteBudget := 100 * v.toNat }).calm := by
  rw [takeSiteBudget, if_neg (by rw [within_iff.mpr ⟨h0, h200⟩]; decide)]
  split
  · next heq =>
    refine ⟨s, rfl, rfl, ?_⟩
    rw [← heq]
    rfl
  · exact ⟨_, rfl, shelf_settling _ _, calm_settling _ _⟩

theorem takeSolarRating_inRange (h5 : 5 ≤ v) (h150 : v ≤ 150) :
    ∃ u, takeSolarRating v s = .okWith [] u ∧ u.shelf = s.shelf ∧
      u.calm = (s.modAdmission fun a => { a with rating := 100 * v.toNat }).calm := by
  rw [takeSolarRating, if_neg (by rw [within_iff.mpr ⟨h5, h150⟩]; decide)]
  split
  · next heq =>
    refine ⟨s, rfl, rfl, ?_⟩
    rw [← heq]
    rfl
  · exact ⟨_, rfl, shelf_resettle _ _, calm_resettle _ _⟩

theorem takeAutoCap_inRange (h0 : 0 ≤ v) (h1 : v ≤ 1) :
    ∃ u, takeAutoCap v s = .okWith [] u ∧ u.shelf = s.shelf ∧
      u.calm = (s.modRoster fun r => { r with autoCap := v == 1 }).calm := by
  rw [takeAutoCap, onOff_inRange h0 h1]
  dsimp only
  split
  · next heq =>
    refine ⟨s, rfl, rfl, ?_⟩
    rw [← heq]
    rfl
  · exact ⟨_, rfl, shelf_settling _ _, calm_settling _ _⟩

/-- Settles O31: each value in its range by the work of its request, the others refused. -/
theorem rateParametersAreSet : Obligations.RateParametersAreSet := by
  intro s v hidle
  refine ⟨fun n hin => ?_, fun h0 h200 => ?_, fun h5 h150 => ?_, fun h0 h1 => ?_, fun n hout => ?_, fun hout => ?_,
    fun hout => ?_, fun hout => ?_⟩
  · obtain ⟨t, ht, hanswer, hdesk, -, hrest⟩ := parameter_answered (code := 0x08#8) hidle
      (takeLeaseParameter_inRange hin) rfl rfl
      (sameOutside_modAdmission _ s) rfl
    exact ⟨t, ht, hanswer, hdesk, hrest⟩
  · obtain ⟨u, hw, hshelf, hcalm⟩ := takeSiteBudget_inRange (s := s) h0 h200
    obtain ⟨t, ht, hanswer, hdesk, -, hrest⟩ := parameter_answered (code := 0x08#8) hidle hw hcalm hshelf
      (sameOutside_modAdmission _ s) rfl
    exact ⟨t, ht, hanswer, hdesk, hrest⟩
  · obtain ⟨u, hw, hshelf, hcalm⟩ := takeSolarRating_inRange (s := s) h5 h150
    obtain ⟨t, ht, hanswer, hdesk, -, hrest⟩ := parameter_answered (code := 0x08#8) hidle hw hcalm hshelf
      (sameOutside_modAdmission _ s) rfl
    have hcap : t.effectiveCap 0 = t.admission.desk.rating := rfl
    exact ⟨t, ht, hanswer, hdesk, by rw [hcap, hdesk]; rfl, hrest⟩
  · obtain ⟨u, hw, hshelf, hcalm⟩ := takeAutoCap_inRange (s := s) h0 h1
    obtain ⟨t, ht, hanswer, hdesk, hauto, hrest⟩ := parameter_answered (code := 0x08#8) hidle hw hcalm hshelf
      (sameOutside_modRoster (by decide) _ s) rfl
    exact ⟨t, ht, hanswer, by rw [hauto]; exact beq_iff_eq, hdesk, hrest⟩
  · have hw : takeLeaseParameter n v s = .no .badField s := by rw [takeLeaseParameter, setLease_none s.admission hout]
    exact congrArg Host.Outcome.next (request_refused hidle hw (by decide))
  · exact congrArg Host.Outcome.next (request_refused hidle (takeSiteBudget_badField hout) (by decide))
  · exact congrArg Host.Outcome.next (request_refused hidle (takeSolarRating_badField hout) (by decide))
  · exact congrArg Host.Outcome.next (request_refused hidle (takeAutoCap_badField hout) (by decide))

end Sys2Proof.Machine

/-! ### OPEN BOOST (R67)

A boost that passes its checks is opened like any bought lease: placed in the lowest free slot and its GRANT queued.
What closes the step leaves an OFFERED lease as it stands. -/

namespace Sys2Proof.Machine
variable {s t u : State} {i n k minutes : Nat} {ceiling : Temp} {budget : Option Nat} {l l' : Lease}

/-- A slot whose core stands holds its lease, with other rates perhaps. -/
theorem leaseSlot_of_core (h : t.core n = s.core n) (hslot : s.leaseSlot n = { issue := k, lease := some l }) :
    ∃ l', t.leaseSlot n = { issue := k, lease := some l' } ∧ l'.core = l.core := by
  obtain ⟨l', hl', hcore⟩ := lease_of_core h (congrArg LeaseSlot.lease hslot)
  have hissue : (t.leaseSlot n).issue = (s.leaseSlot n).issue := (congrArg LeaseSlot.issue h :)
  rw [hslot] at hissue
  refine ⟨l', ?_, hcore⟩
  calc t.leaseSlot n = { issue := (t.leaseSlot n).issue, lease := t.lease? n } := rfl
    _ = { issue := k, lease := some l' } := by rw [hissue, hl']

theorem atRest_of_lease (hl : s.lease? n = some l) (hheat : l.state.isHeating = false) (hsus : l.state ≠ .suspended) :
    s.atRest n := by
  intro l' hl'
  obtain rfl := Option.some.inj (hl.symm.trans hl')
  exact ⟨hheat, hsus⟩

/-! ### The checks -/

theorem boostFieldsOk_iff :
    s.boostFieldsOk i ceiling minutes budget = true ↔
      1 ≤ i ∧ i ≤ 7 ∧ 10 ≤ minutes ∧ minutes ≤ 480 ∧ (∀ b, budget = some b → 100 ≤ b ∧ b ≤ 60000) ∧ 350 ≤ ceiling ∧
        ceiling ≤ s.map.thetaMax := by
  simp only [State.boostFieldsOk, Bool.and_eq_true, decide_eq_true_eq, Option.all_eq_true, and_assoc]

theorem budgetAllows_iff :
    s.budgetAllows i = true ↔ ((s.entry i).cls.drawsBudget = true → 500 ≤ s.unallocated) := by
  rw [State.budgetAllows, Bool.or_eq_true, Bool.not_eq_true']
  cases (s.entry i).cls.drawsBudget with
  | false => simp
  | true =>
    simp only [Bool.true_eq_false, false_or, true_imp_iff]
    exact decide_eq_true_iff

theorem takeOpenBoost_badField (h : s.boostFieldsOk i ceiling minutes budget ≠ true) :
    takeOpenBoost i ceiling minutes budget s = .no .badField s := if_pos (Bool.eq_false_iff.mpr h)

section checked

variable (hfields : s.boostFieldsOk i ceiling minutes budget = true)
include hfields

theorem takeOpenBoost_wrongState (h : ¬(s.admission.halted = false ∧ s.map.valid = true)) :
    takeOpenBoost i ceiling minutes budget s = .no .wrongState s := by
  rw [takeOpenBoost, if_neg (by rw [hfields]; decide), if_pos]
  cases hhalt : s.admission.halted <;> cases hvalid : s.map.valid <;> simp_all

theorem takeOpenBoost_notEligible (hhalt : s.admission.halted = false) (hvalid : s.map.valid = true)
    (h : (s.eligible i && s.budgetAllows i) = false) : takeOpenBoost i ceiling minutes budget s = .no .notEligible s := by
  rw [takeOpenBoost, if_neg (by rw [hfields]; decide), if_neg (by rw [hhalt, hvalid]; decide), if_pos h]

end checked

/-! ### The lease opened -/

/-- The state in which an opened lease's GRANT waits. -/
def State.granted (s : State) (n : Nat) (l l1 : Lease) : State :=
  place l1.holder ((s.opened n l).grantOf n l1) (s.opened n l)

theorem leaseSlot_granted (n k : Nat) (l l1 : Lease) (s : State) :
    (s.granted n l l1).leaseSlot k = (putLease n l s).leaseSlot k :=
  (leaseSlot_of_admission (admission_place _ _ _) k).trans (leaseSlot_opened n k l s)

theorem sameOutside_granted (n : Nat) (l l1 : Lease) (s : State) :
    s.sameOutside (s.granted n l l1) [.coverage, .admission, .roster, .link, .port] := by
  have hput := sameOutside_of_calm (touched := [.coverage, .admission, .roster, .link, .port]) (calm_putLease n l s)
    (by decide)
  have hnoted := sameOutside_noteEligible (touched := [.coverage, .admission, .roster, .link, .port]) (by decide) s
    (putLease n l s)
  exact sameOutside_trans hput (sameOutside_trans hnoted (sameOutside_of_calm (calm_place _ _ _) (by decide)))

theorem port_granted (n : Nat) (l l1 : Lease) (s : State) : (s.granted n l l1).port = s.port := by
  obtain ⟨-, -, -, -, -, -, -, -, hport, -⟩ := calm_eq_iff.mp (calm_place l1.holder ((s.opened n l).grantOf n l1)
    (s.opened n l))
  rw [State.granted, hport, State.opened, noteEligible_eq]
  rfl

theorem entries_granted (n : Nat) (l l1 : Lease) (s : State) :
    (s.granted n l l1).roster.entries = s.roster.entries := by
  obtain ⟨-, -, -, hentries, -⟩ := calm_eq_iff.mp (calm_place l1.holder ((s.opened n l).grantOf n l1) (s.opened n l))
  rw [State.granted, hentries, State.opened, noteEligible_eq]
  rfl

theorem order_granted (n : Nat) (l l1 : Lease) (s : State) :
    (s.granted n l l1).admission.order = s.admission.order := by
  rw [State.granted, admission_place, State.opened, admission_noteEligible]
  rfl

/-- Every slot but the one opened keeps its lease while the step is closed. -/
theorem roots_closing_granted (n : Nat) (l l1 : Lease) (hk : n - 1 ≠ k - 1) :
    ((closing (s.granted n l l1)).leaseSlot k).root = (s.leaseSlot k).root := by
  rw [root_of_shelf (shelf_closing _) k, leaseSlot_granted, leaseSlot_putLease_ne hk]

/-- A lease opened stands OFFERED at the end of its step, as it was asked for but for its rates. -/
theorem leaseSlot_closing_granted (h1 : 1 ≤ n) (l1 : Lease) (hoffered : l.state = .offered)
    (hslot : (s.granted n l l1).leaseSlot n = { issue := k, lease := some l' }) (hl' : l'.core = l.core) :
    ∃ l2, (closing (s.granted n l l1)).leaseSlot n = { issue := k, lease := some l2 } ∧ l2.core = l.core := by
  have hstate : l'.state = .offered := (same_of_core hl').2.1.mpr hoffered
  have hrest := atRest_of_lease (congrArg LeaseSlot.lease hslot) (by rw [hstate]; rfl) (by rw [hstate]; decide)
  obtain ⟨l2, hl2, hcore⟩ := leaseSlot_of_core (core_closing h1 hrest) hslot
  exact ⟨l2, hl2, hcore.trans hl'⟩

/-- What an OPEN BOOST that passes its checks is taken as. -/
theorem takeOpenBoost_opens (hfields : s.boostFieldsOk i ceiling minutes budget = true)
    (hhalt : s.admission.halted = false) (hvalid : s.map.valid = true) (heligible : s.eligible i = true)
    (hbudget : s.budgetAllows i = true) (hn : s.freeLeaseSlot = some n) {l1 : Lease}
    (hl1 : (s.opened n (s.boostLease i ceiling minutes budget)).lease? n = some l1) :
    takeOpenBoost i ceiling minutes budget s =
      .okWith [leaseByte (s.leaseHandle n)] (s.granted n (s.boostLease i ceiling minutes budget) l1) := by
  have hboth : (s.eligible i && s.budgetAllows i) = true := by rw [heligible, hbudget]; rfl
  unfold takeOpenBoost
  rw [if_neg (by rw [hfields]; decide), if_neg (by rw [hhalt, hvalid]; decide), if_neg (by rw [hboth]; decide),
    openOffered_eq hn hl1, State.granted]

/-- Settles O27: the opening that the checks let through, and the refusals in their order. -/
theorem aBoostIsOpenedOrRefused : Obligations.ABoostIsOpenedOrRefused := by
  constructor
  · intro s i n ceiling minutes budget hidle hi1 hi7 hm10 hm480 hrange h350 hmax hhalt hvalid heligible hfloor h1 h8
      hfree hfirst
    have hfields := boostFieldsOk_iff.mpr ⟨hi1, hi7, hm10, hm480, hrange, h350, hmax⟩
    obtain ⟨e, g, hput⟩ := leaseSlot_putLease (n := n) (by omega) (s.boostLease i ceiling minutes budget) s
    have hl1 := congrArg LeaseSlot.lease ((leaseSlot_opened n n _ s).trans hput)
    have hwork := takeOpenBoost_opens hfields hhalt hvalid heligible (budgetAllows_iff.mpr hfloor)
      (freeLeaseSlot_eq h1 h8 hfree hfirst) hl1
    obtain ⟨l, hslot, hcore⟩ := leaseSlot_closing_granted h1 _ rfl ((leaseSlot_granted n n _ _ s).trans hput) rfl
    refine ⟨_, l, rfl, ?_⟩
    rw [request_ok hidle hwork]
    have hinlet : l.inlet = s.entryInlet i := congrArg Lease.inlet hcore
    refine ⟨answersOk_answered (port_granted _ _ _ _), hslot, (congrArg Lease.kind hcore :), (congrArg Lease.origin hcore :),
      (congrArg Lease.holder hcore :), (same_of_core hcore).2.1.mpr rfl, hinlet.trans (if_neg (by omega)),
      (congrArg Lease.ceiling hcore :), (congrArg Lease.budget hcore :), (congrArg Lease.delivered hcore :),
      (congrArg Lease.limit hcore :), (congrArg Lease.timer hcore :), (congrArg Lease.hold hcore :),
      (congrArg Lease.saved hcore :), (congrArg Lease.serve hcore :), (congrArg Lease.handovers hcore :),
      (congrArg Lease.reason hcore :), (congrArg Lease.revokeTime hcore :), (congrArg Lease.grantSent hcore :),
      fun k hk1 hk8 hk => ?_, ?_, sameOutside_answered (by simp) (sameOutside_granted _ _ _ _), ?_⟩
    · have hroot := roots_closing_granted (s := s) n (s.boostLease i ceiling minutes budget)
        { s.boostLease i ceiling minutes budget with entitlement := e, granted := g } (k := k) (by omega)
      exact ⟨(congrArg LeaseSlot.issue hroot :), (congrArg LeaseSlot.lease hroot :)⟩
    · exact (congrArg Shelf.order (shelf_closing _)).trans (order_granted _ _ _ s)
    · exact (calm_eq_iff.mp (calm_closing _)).2.2.2.1.trans (entries_granted _ _ _ s)
  · intro s i ceiling minutes budget hidle
    refine ⟨fun hfields => ?_, fun hfields hopen => ?_, fun hfields hopen hnot => ?_⟩
    · exact congrArg Host.Outcome.next
        (request_refused hidle (takeOpenBoost_badField (mt boostFieldsOk_iff.mp hfields)) (by decide))
    · exact congrArg Host.Outcome.next
        (request_refused hidle (takeOpenBoost_wrongState (boostFieldsOk_iff.mpr hfields) hopen) (by decide))
    · refine congrArg Host.Outcome.next (request_refused hidle (takeOpenBoost_notEligible
        (boostFieldsOk_iff.mpr hfields) hopen.1 hopen.2 (Bool.eq_false_iff.mpr fun hall => ?_)) (by decide))
      obtain ⟨heligible, hbudget⟩ := Bool.and_eq_true_iff.mp hall
      rcases hnot with hnot | ⟨hdraws, hshort⟩
      · rw [hnot] at heligible
        cases heligible
      · exact absurd (budgetAllows_iff.mp hbudget hdraws) (by omega)

end Sys2Proof.Machine

/-! ### What the work on leases does

The arbiter, the finishing tests, the overlap test and what closes a step are made of four kinds of change: a lease's
own fields, a command placed, the running trial, and a new moment. What each of them keeps, all of that work keeps. -/

namespace Sys2Proof.Machine
variable {s t u : State} {n i m : Nat} {l l' : Lease}

/-- A lease without a demand has 0 W (R90). -/
def Lease.unpowered (l : Lease) : Prop := l.state.hasDemand = false → l.granted = 0

/-- A lease that has been admitted, and that no resumption makes an offer again. -/
def Lease.past (l : Lease) : Prop :=
  l.state ≠ .offered ∧ (l.state = .suspended → ∀ ctx, l.saved = some ctx → ctx.state ≠ .offered)

theorem past_of_state (hoffered : l.state ≠ .offered) (hsuspended : l.state ≠ .suspended) : l.past :=
  ⟨hoffered, fun e => absurd e hsuspended⟩

/-- A change that the work on leases may make to a lease. -/
structure Lease.Moves (l l' : Lease) : Prop where
  root : l'.root = l.root
  unpowered : l.unpowered → l'.unpowered
  past : l.past → l'.past

/-- The commands that the work on leases places. -/
def LinkCmd.isRunning : LinkCmd → Bool
  | .setRate _ _ | .suspend _ | .resume _ _ | .revoke _ | .amend _ _ _ | .qualify _ => true
  | .grant _ _ _ _ _ | .refuse _ | .identify | .poll | .linkClear | .allStop => false

/-- One change of the work on leases. -/
inductive Work : State → State → Prop
  | lease {s : State} (n : Nat) (f : Lease → Lease) (h : ∀ l, s.lease? n = some l → l.Moves (f l)) :
      Work s (s.modLease n f)
  | command {s : State} (i : Nat) {c : LinkCmd} (hc : c.isRunning = true) : Work s (place i c s)
  | trial {s : State} (x : Option Trial) : Work s (s.modRoster fun r => { r with trial := x })
  | moment {s : State} : Work s s.bump

abbrev Works : State → State → Prop := Relation.ReflTransGen Work

/-! ### Changes of one lease -/

/-- A lease that keeps its state and its saved context, and is given no power where it has none. -/
theorem moves_of_state (hroot : l'.root = l.root) (hstate : l'.state = l.state) (hsaved : l'.saved = l.saved)
    (hgranted : l.state.hasDemand = false → l.granted = 0 → l'.granted = 0) : l.Moves l' where
  root := hroot
  unpowered h hdemand := by
    rw [hstate] at hdemand
    exact hgranted hdemand (h hdemand)
  past h := by
    rw [Lease.past, hstate, hsaved]
    exact h

theorem moves_settledState (valid : Bool) (l : Lease) : l.Moves { l with state := settledState valid l } := by
  have hstate : (settledState valid l).hasDemand = l.state.hasDemand ∧
      (settledState valid l = .offered → l.state = .offered) ∧
      (settledState valid l = .suspended → l.state = .suspended) := by
    unfold settledState
    by_cases hfull : (valid && l.granted == l.entitlement) = true
    · rw [if_pos hfull]
      cases l.state <;> decide
    · rw [if_neg hfull]
      cases l.state <;> decide
  exact ⟨rfl, fun h hdemand => h (hstate.1.symm.trans hdemand), fun h =>
    ⟨fun e => h.1 (hstate.2.1 e), fun e => h.2 (hstate.2.2 e)⟩⟩

/-! ### Chains of work -/

theorem works_lease (n : Nat) (f : Lease → Lease) (s : State) (h : ∀ l, s.lease? n = some l → l.Moves (f l)) :
    Works s (s.modLease n f) := .single (.lease n f h)

theorem works_place (i : Nat) {c : LinkCmd} (hc : c.isRunning = true) (s : State) : Works s (place i c s) :=
  .single (.command i hc)

theorem works_foldl {α : Type} {f : State → α → State} (hf : ∀ s a, Works s (f s a)) (l : List α) (s : State) :
    Works s (l.foldl f s) := by
  induction l generalizing s with
  | nil => exact .refl
  | cons a l ih => exact (hf s a).trans (ih _)

/-! ### The arbiter -/

theorem works_followEntitlement (s : State) (m : Nat) : Works s (followEntitlement s m) :=
  works_lease m _ s fun _ _ => moves_of_state rfl rfl rfl fun _ h => h

theorem works_followDemand (b s : State) (m : Nat) : Works s (followDemand b s m) := by
  unfold followDemand
  split
  · exact .refl
  · next l hl =>
    have hnone (hdemand : l.state.hasDemand = true) {l' : Lease} (hl' : s.lease? m = some l') :
        l'.state.hasDemand ≠ false := by
      obtain rfl := Option.some.inj (hl.symm.trans hl')
      rw [hdemand]
      decide
    split
    · next hdemand =>
      split
      · split
        · exact works_lease m _ s fun l' hl' => moves_of_state rfl rfl rfl fun h => absurd h (hnone hdemand hl')
        · exact works_lease m _ s fun l' hl' => moves_of_state rfl rfl rfl fun h => absurd h (hnone hdemand hl')
      · exact works_lease m _ s fun l' hl' => moves_of_state rfl rfl rfl fun h => absurd h (hnone hdemand hl')
    · exact works_lease m _ s fun _ _ => moves_of_state rfl rfl rfl fun _ _ => rfl

theorem works_takePower (s : State) (m : Nat) : Works s (takePower s m) :=
  works_lease m _ s fun _ _ => moves_of_state rfl rfl rfl fun _ h => by
    dsimp only
    rw [h, Nat.zero_sub]

theorem works_stopTrial (s : State) : Works s (stopTrial s) := by
  unfold stopTrial
  split
  · exact .refl
  · next x _ =>
    have hended : Works s (s.modRoster fun r => { r with trial := none }) := .single (.trial none)
    dsimp only
    split
    · exact hended.trans (works_place _ rfl _)
    · exact hended

theorem works_removeExcess (s : State) : Works s (removeExcess s) := by
  have htaken := works_foldl works_takePower s.removalOrder s
  unfold removeExcess
  dsimp only
  split
  · exact htaken.trans (works_stopTrial _)
  · exact htaken

theorem works_givePower (hdemand : ∀ l, s.lease? m = some l → l.state.hasDemand = true) : Works s (givePower s m) := by
  unfold givePower
  split
  · exact .refl
  · dsimp only
    split
    · exact .refl
    · refine works_lease m _ s fun l hl => moves_of_state rfl rfl rfl fun h => absurd h ?_
      rw [hdemand l hl]
      decide

/-- The power given to one lease leaves every lease its state. -/
theorem lease_givePower (hl : (givePower s m).lease? n = some l) :
    ∃ l0, s.lease? n = some l0 ∧ l.state = l0.state := by
  unfold givePower at hl
  split at hl
  · exact ⟨l, hl, rfl⟩
  · dsimp only at hl
    split at hl
    · exact ⟨l, hl, rfl⟩
    · by_cases hmn : m - 1 = n - 1
      · rw [lease_of_place hmn.symm, lease_modLease] at hl
        obtain ⟨l0, hl0, rfl⟩ := Option.map_eq_some_iff.mp hl
        exact ⟨l0, (lease_of_place hmn.symm s).trans hl0, rfl⟩
      · rw [lease_modLease_ne hmn] at hl
        exact ⟨l, hl, rfl⟩

theorem works_givings (slots : List Nat)
    (hdemand : ∀ m ∈ slots, ∀ l, s.lease? m = some l → l.state.hasDemand = true) :
    Works s (slots.foldl givePower s) := by
  induction slots generalizing s with
  | nil => exact .refl
  | cons m slots ih =>
    refine (works_givePower (hdemand m List.mem_cons_self)).trans (ih fun k hk l hl => ?_)
    obtain ⟨l0, hl0, hstate⟩ := lease_givePower hl
    rw [hstate]
    exact hdemand k (List.mem_cons_of_mem m hk) l0 hl0

theorem hasDemand_of_holdsAllocation (h : s.holdsAllocation n = true) (hl : s.lease? n = some l) :
    l.state.hasDemand = true := by
  rw [State.holdsAllocation, hl] at h
  exact (Bool.and_eq_true_iff.mp h).1

theorem works_restorePower (s : State) : Works s (restorePower s) := by
  refine works_givings _ fun m hm l hl => ?_
  simp only [State.restorationOrder, State.admittedSlots, State.offeredSlots, List.mem_append, List.mem_filter,
    Bool.and_eq_true] at hm
  rcases hm with ⟨-, hholds, -⟩ | ⟨-, hholds, -⟩
  · exact hasDemand_of_holdsAllocation hholds hl
  · exact hasDemand_of_holdsAllocation hholds hl

theorem works_publishRate (b s : State) (m : Nat) : Works s (publishRate b s m) := by
  unfold publishRate
  split
  · exact .refl
  · have hsettled := works_lease m (fun l => { l with state := settledState s.map.valid l }) s fun l _ =>
      moves_settledState s.map.valid l
    dsimp only
    split
    · exact hsettled.trans (works_place _ rfl _)
    · exact hsettled

theorem works_settle (b s : State) : Works s (settle b s) := by
  unfold settle
  extract_lets s1 s2 s3 s4
  have h1 : Works s s1 := works_foldl works_followEntitlement _ s
  have h2 : Works s s2 := h1.trans (works_foldl (works_followDemand b) _ s1)
  have h3 : Works s s3 := by
    unfold s3
    split
    · exact h2.trans (works_removeExcess s2)
    · exact h2
  exact (h3.trans (works_restorePower s3)).trans (works_foldl (works_publishRate b) _ s4)

theorem works_settling {f : State → State} (hf : Works s (f s)) : Works s (settling f s) :=
  hf.trans (works_settle s (f s))

theorem works_freeRates (b s : State) : Works s (freeRates b s) :=
  (works_foldl works_followEntitlement upTo8 s).trans (works_foldl (works_followDemand b) _ _)

/-! ### Finishing and revoking -/

theorem works_beginRevoking (m : Nat) (l : Lease) (r : LeaseOutcome) (s : State) : Works s (beginRevoking m l r s) := by
  refine .tail (works_lease m _ s ?_) (.command _ rfl)
  exact fun _ _ => ⟨rfl, fun _ _ => rfl, fun _ => past_of_state nofun nofun⟩

theorem works_beginFinishing (m : Nat) (s : State) : Works s (beginFinishing m s) :=
  works_lease m _ s fun _ _ => ⟨rfl, fun _ => nofun, fun _ => past_of_state nofun nofun⟩

theorem works_endZeroHold (m : Nat) (s : State) : Works s (endZeroHold m s) := by
  unfold endZeroHold
  split
  · exact .refl
  · split
    · exact works_settling (works_beginRevoking _ _ _ s)
    · exact .refl

theorem works_recharge (m : Nat) (s : State) : Works s (recharge m s) := by
  unfold recharge
  extract_lets s1
  have h1 : Works s s1 := works_settling (works_lease m _ s fun _ _ => ⟨rfl, fun _ => nofun, fun _ => past_of_state nofun nofun⟩)
  split
  · exact h1
  · exact h1.trans (works_place _ rfl _)

theorem works_testFinishing (m : Nat) (s : State) : Works s (testFinishing m s) := by
  unfold testFinishing
  split
  · exact .refl
  · split
    · exact (works_settling (works_beginFinishing m s)).trans (works_endZeroHold m _)
    · split
      · exact works_recharge m s
      · exact .refl

theorem works_testFinishingUnlessSanitise (m : Nat) (s : State) : Works s (testFinishingUnlessSanitise m s) := by
  unfold testFinishingUnlessSanitise
  split
  · exact .refl
  · exact works_testFinishing m s

/-! ### The overlap -/

theorem works_beginSuspension (s : State) (m : Nat) : Works s (beginSuspension s m) := by
  unfold beginSuspension
  split
  · exact .refl
  · next l hl =>
    refine .tail (works_lease m _ s ?_) (.command _ rfl)
    refine fun l' hl' => ⟨rfl, fun _ _ => rfl, fun h => ⟨nofun, ?_⟩⟩
    obtain rfl := Option.some.inj (hl.symm.trans hl')
    rintro - ctx ⟨⟩
    exact h.1

/-- A SUSPENDED lease resumed. -/
theorem works_beginResumption (hsuspended : ∀ l, s.lease? m = some l → l.state = .suspended) :
    Works s (beginResumption s m) := by
  unfold beginResumption
  split
  · exact .refl
  · next l hl =>
    split
    · exact .refl
    · next ctx hctx =>
      dsimp only
      have hresumed := works_lease m
        (fun l' => { l' with
          state := ctx.state, timer := ctx.timer, hold := ctx.hold, saved := none, budget := s.adjustedBudget l ctx
          granted := 0, waiting := s.drawsBudget l' }) s fun l' hl' => ⟨rfl, fun _ _ => rfl, fun h => ⟨?_, nofun⟩⟩
      · split
        · refine Relation.ReflTransGen.trans ?_ (works_beginRevoking m l _ _)
          exact works_lease m _ s fun _ _ => moves_of_state rfl rfl rfl fun _ h => h
        · split
          · exact hresumed
          · exact hresumed.trans (works_place _ rfl _)
      · obtain rfl := Option.some.inj (hl.symm.trans hl')
        exact h.2 (hsuspended l hl) ctx hctx

theorem lease_beginSuspension_ne (hmn : m - 1 ≠ n - 1) (s : State) : (beginSuspension s m).lease? n = s.lease? n := by
  unfold beginSuspension
  split
  · rfl
  · rw [lease?_place, lease_modLease_ne hmn]

theorem lease_beginResumption_ne (hmn : m - 1 ≠ n - 1) (s : State) : (beginResumption s m).lease? n = s.lease? n := by
  unfold beginResumption
  split
  · rfl
  · split
    · rfl
    · dsimp only
      split
      · rw [beginRevoking, lease?_place, lease_modLease_ne hmn, lease_modLease_ne hmn]
      · split
        · rw [lease_modLease_ne hmn]
        · rw [lease?_place, lease_modLease_ne hmn]

/-- Resumptions one after the other, each of a lease that is SUSPENDED as its turn comes. -/
theorem works_resumptions {slots : List Nat} (hnodup : slots.Nodup) (hpos : ∀ m ∈ slots, 1 ≤ m)
    (hsuspended : ∀ m ∈ slots, ∀ l, s.lease? m = some l → l.state = .suspended) :
    Works s (slots.foldl beginResumption s) := by
  induction slots generalizing s with
  | nil => exact .refl
  | cons m slots ih =>
    obtain ⟨hnot, hnodup⟩ := List.nodup_cons.mp hnodup
    refine (works_beginResumption (hsuspended m List.mem_cons_self)).trans
      (ih hnodup (fun k hk => hpos k (List.mem_cons_of_mem m hk)) fun k hk l hl => ?_)
    have hm := hpos m List.mem_cons_self
    have hk1 := hpos k (List.mem_cons_of_mem m hk)
    have hne : m ≠ k := fun e => hnot (e ▸ hk)
    rw [lease_beginResumption_ne (by omega)] at hl
    exact hsuspended k (List.mem_cons_of_mem m hk) l hl

/-- A suspension makes no lease but a SUSPENDED one. -/
theorem suspended_beginSuspension (m : Nat) (h : ∀ l, s.lease? n = some l → l.state = .suspended) :
    ∀ l, (beginSuspension s m).lease? n = some l → l.state = .suspended := by
  intro l hl
  by_cases hmn : m - 1 = n - 1
  · rw [lease_of_place hmn.symm] at hl h
    unfold beginSuspension at hl
    split at hl
    · exact h l hl
    · rw [lease?_place, lease_modLease] at hl
      obtain ⟨l0, -, rfl⟩ := Option.map_eq_some_iff.mp hl
      rfl
  · rw [lease_beginSuspension_ne hmn] at hl
    exact h l hl

theorem suspended_of_toResume (hn : n ∈ s.toResume) : ∀ l, s.lease? n = some l → l.state = .suspended := by
  intro l hl
  have hp := (List.mem_filter.mp hn).2
  rw [hl] at hp
  simp only [Option.any_some, Bool.and_eq_true, beq_iff_eq] at hp
  exact hp.1.2

theorem works_announceResume (s : State) (m : Nat) : Works s (announceResume s m) := by
  unfold announceResume
  split
  · exact .refl
  · split
    · exact works_place _ rfl s
    · exact .refl

theorem works_actOnOverlap (b s : State) : Works s (actOnOverlap b s) := by
  unfold actOnOverlap
  extract_lets back s1 s2 s3 s4
  have h1 : Works s s1 := works_foldl works_beginSuspension _ s
  have hsuspended : ∀ m ∈ back, ∀ l, s1.lease? m = some l → l.state = .suspended := fun m hm =>
    List.foldlRecOn (motive := fun u => ∀ l, u.lease? m = some l → l.state = .suspended) s.toSuspend beginSuspension
      (suspended_of_toResume hm) fun u hu a _ => suspended_beginSuspension a hu
  have h2 : Works s s2 := h1.trans (works_resumptions ((by decide : upTo8.Nodup).filter _)
    (fun m hm => (mem_upTo8.mp (List.mem_filter.mp hm).1).1) hsuspended)
  have h3 : Works s s3 := h2.trans (works_settle b s2)
  have h4 : Works s s4 := h3.trans (works_foldl works_announceResume _ s3)
  exact h4.trans (works_foldl (fun u m => works_testFinishing m u) _ s4)

theorem works_testOverlap (s : State) : Works s (testOverlap s) := by
  unfold testOverlap
  split
  · exact .refl
  · exact works_actOnOverlap s s

theorem works_resettle (b s : State) : Works s (resettle b s) := by
  unfold resettle
  dsimp only
  split
  · exact (works_freeRates b s).trans (works_settle b _)
  · exact (works_freeRates b s).trans (works_actOnOverlap b _)

/-! ### Trials, and what closes a step -/

theorem works_callOffEvicted (s : State) : Works s (callOffEvicted s) := by
  unfold callOffEvicted
  split
  · exact .refl
  · split
    · exact works_settling (works_stopTrial s)
    · exact .refl

theorem works_closing (s : State) : Works s (closing s) :=
  ((works_testOverlap s).trans (works_callOffEvicted _)).trans (.single .moment)

theorem works_tryTrial (s : State) : Works s (tryTrial s) := by
  unfold tryTrial
  split
  · exact .refl
  · split
    · exact .refl
    · next i _ => exact .tail (.single (.trial _)) (.command i rfl)

/-! ### What all of it keeps -/

theorem lease_of_work (h : Work s t) (hl' : t.lease? n = some l') : ∃ l, s.lease? n = some l ∧ l.Moves l' := by
  have hsame (l : Lease) : l.Moves l := moves_of_state rfl rfl rfl fun _ h => h
  cases h with
  | lease m f hf =>
    by_cases hmn : m - 1 = n - 1
    · rw [lease_of_place hmn.symm, lease_modLease] at hl'
      obtain ⟨l, hl, rfl⟩ := Option.map_eq_some_iff.mp hl'
      exact ⟨l, (lease_of_place hmn.symm s).trans hl, hf l hl⟩
    · rw [lease_modLease_ne hmn] at hl'
      exact ⟨l', hl', hsame l'⟩
  | command i => exact ⟨l', (lease?_place _ _ s n).symm.trans hl', hsame l'⟩
  | trial | moment => exact ⟨l', hl', hsame l'⟩

theorem lease_of_works (h : Works s t) (hl' : t.lease? n = some l') : ∃ l, s.lease? n = some l ∧ l.Moves l' := by
  induction h generalizing l' with
  | refl => exact ⟨l', hl', moves_of_state rfl rfl rfl fun _ h => h⟩
  | tail _ hwork ih =>
    obtain ⟨l1, hl1, hlast⟩ := lease_of_work hwork hl'
    obtain ⟨l, hl, hfirst⟩ := ih hl1
    exact ⟨l, hl, hlast.root.trans hfirst.root, fun h => hlast.unpowered (hfirst.unpowered h),
      fun h => hlast.past (hfirst.past h)⟩

/-- A change of a lease's own fields, as a change of any lease. -/
theorem modLease_eq_of_root {f : Lease → Lease} (h : ∀ l, s.lease? m = some l → (f l).root = l.root) :
    ∃ g : Lease → Lease, s.modLease m f = s.modLease m g ∧ ∀ l, (g l).root = l.root := by
  cases hl : s.lease? m with
  | none => exact ⟨id, by rw [State.modLease, State.modLease, hl]; rfl, fun _ => rfl⟩
  | some l =>
    refine ⟨fun l' => if l' = l then f l else l', ?_, fun l' => ?_⟩
    · rw [State.modLease, State.modLease, hl, Option.map_some, Option.map_some, if_pos rfl]
    · dsimp only
      split
      · next e => rw [e, h l hl]
      · rfl

theorem calm_of_work (h : Work s t) : t.calm = s.calm := by
  cases h with
  | lease m f => exact calm_modLease m f s
  | command i => exact calm_place i _ s
  | trial | moment => rfl

theorem shelf_of_work (h : Work s t) : t.shelf = s.shelf := by
  cases h with
  | lease m f hf =>
    obtain ⟨g, hg, hroot⟩ := modLease_eq_of_root fun l hl => (hf l hl).root
    rw [hg]
    exact shelf_modLease m g hroot s
  | command i => exact shelf_place i _ s
  | trial | moment => rfl

theorem calm_of_works (h : Works s t) : t.calm = s.calm := by
  induction h with
  | refl => rfl
  | tail _ hwork ih => exact (calm_of_work hwork).trans ih

theorem shelf_of_works (h : Works s t) : t.shelf = s.shelf := by
  induction h with
  | refl => rfl
  | tail _ hwork ih => exact (shelf_of_work hwork).trans ih

theorem link_place (i : Nat) (c : LinkCmd) (s : State) :
    (place i c s).link.roll = s.link.roll ∧ (place i c s).link.staleItems = s.link.staleItems := by
  unfold place
  split
  · exact ⟨rfl, rfl⟩
  · unfold markOvertaken
    split <;> exact ⟨rfl, rfl⟩

/-- The roll call and the count of stale items stand. -/
theorem link_of_works (h : Works s t) : t.link.roll = s.link.roll ∧ t.link.staleItems = s.link.staleItems := by
  induction h with
  | refl => exact ⟨rfl, rfl⟩
  | tail _ hwork ih =>
    cases hwork with
    | command i =>
      obtain ⟨hroll, hstale⟩ := link_place i _ _
      exact ⟨hroll.trans ih.1, hstale.trans ih.2⟩
    | lease | trial | moment => exact ih

end Sys2Proof.Machine

/-! ### Commands that wait through the work on leases -/

namespace Sys2Proof.Machine
variable {q : List Queued} {p bears : LinkCmd → Bool} {c : LinkCmd} {x y : Queued} {v : LeaseView} {age : Nat}

theorem mem_of_replaceFirst (hy : y ∈ replaceFirst p c q) : y.cmd = c ∨ y ∈ q := by
  induction q with
  | nil => cases hy
  | cons x q ih =>
    unfold replaceFirst at hy
    split at hy
    · rcases List.mem_cons.mp hy with rfl | hy
      · exact .inl rfl
      · exact .inr (List.mem_cons_of_mem x hy)
    · rcases List.mem_cons.mp hy with rfl | hy
      · exact .inr List.mem_cons_self
      · exact (ih hy).imp_right (List.mem_cons_of_mem x)

theorem mem_of_removeAll (hy : y ∈ removeAll p q) : y ∈ q := (sublist_removeAll q).subset hy

theorem mem_of_enqueue (hy : y ∈ enqueue bears x q) : y.cmd = x.cmd ∨ y ∈ q := by
  unfold enqueue at hy
  split at hy
  · exact mem_of_replaceFirst hy
  · rcases List.mem_append.mp hy with hy | hy
    · exact .inr ((sublist_makeRoom q).subset hy)
    · exact .inl (congrArg Queued.cmd (List.mem_singleton.mp hy))

theorem mem_of_replaceOrEnqueue (hy : y ∈ replaceOrEnqueue bears p x q) : y.cmd = x.cmd ∨ y ∈ q := by
  unfold replaceOrEnqueue at hy
  split at hy
  · exact mem_of_replaceFirst hy
  · exact mem_of_enqueue hy

theorem mem_of_placeSetRate {rate : Nat} (hy : y ∈ placeSetRate bears h rate age q) :
    y.cmd = .setRate h rate ∨ y.cmd = .resume h rate ∨ y ∈ q := by
  unfold placeSetRate at hy
  split at hy
  · exact .inr ((mem_of_replaceFirst hy).imp_right mem_of_removeAll)
  · exact (mem_of_replaceOrEnqueue hy).imp_right .inr

/-- The work on leases puts none but its own commands into a queue. -/
theorem mem_of_coalesce (hc : c.isRunning = true) (hy : y ∈ coalesce bears v c age q) :
    y.cmd.isRunning = true ∨ y ∈ q := by
  have hown {d : LinkCmd} (hd : d.isRunning = true) : y.cmd = d ∨ y ∈ q → y.cmd.isRunning = true ∨ y ∈ q :=
    Or.imp_left fun e => e ▸ hd
  cases c with
  | setRate h' rate =>
    rcases mem_of_placeSetRate hy with e | e | hy
    · exact .inl (by rw [e]; rfl)
    · exact .inl (by rw [e]; rfl)
    · exact .inr hy
  | amend => exact hown rfl (mem_of_replaceOrEnqueue hy)
  | suspend h' =>
    simp only [coalesce, placeSuspend] at hy
    split at hy
    · split at hy
      · exact .inr (mem_of_removeAll (mem_of_removeAll hy))
      · exact hown rfl ((mem_of_replaceOrEnqueue hy).imp_right fun hy => mem_of_removeAll (mem_of_removeAll hy))
    · exact hown rfl ((mem_of_replaceOrEnqueue hy).imp_right mem_of_removeAll)
  | resume h' rate =>
    simp only [coalesce, placeResume] at hy
    split at hy
    · split at hy
      · exact .inr (mem_of_removeAll hy)
      · rcases mem_of_placeSetRate hy with e | e | hy
        · exact .inl (by rw [e]; rfl)
        · exact .inl (by rw [e]; rfl)
        · exact .inr (mem_of_removeAll hy)
    · exact hown rfl (mem_of_replaceOrEnqueue hy)
  | revoke h' =>
    simp only [coalesce, placeRevoke] at hy
    split at hy
    · exact .inr (mem_of_removeAll hy)
    · exact hown rfl ((mem_of_enqueue hy).imp_right mem_of_removeAll)
  | qualify rate =>
    simp only [coalesce, placeQualify] at hy
    split at hy
    · exact .inr (mem_of_removeAll hy)
    · exact hown rfl (mem_of_replaceOrEnqueue hy)
  | grant | refuse | identify | poll | linkClear | allStop => cases hc

end Sys2Proof.Machine

namespace Sys2Proof.Machine
variable {s t u b : State} {n m i k : Nat} {l l' : Lease} {y : Queued} {c : LinkCmd}

theorem mem_of_queue_place {j : Nat} (hc : c.isRunning = true) (hy : y ∈ ((place j c s).station i).queue) :
    y.cmd.isRunning = true ∨ y ∈ (s.station i).queue := by
  by_cases hji : j = i
  · subst hji
    unfold place at hy
    split at hy
    · exact .inr hy
    · rw [station_markOvertaken] at hy
      rcases station_modStation j j (fun t => { t with
        queue := coalesce (s.bears j) (s.leaseView j c) c s.moment t.queue }) s with ⟨e, -⟩ | e
      · rw [e] at hy
        exact mem_of_coalesce hc hy
      · rw [e] at hy
        exact .inr hy
  · rw [station_place_ne hji] at hy
    exact .inr hy

theorem mem_of_queue_works (h : Works s t) (hy : y ∈ (t.station i).queue) :
    y.cmd.isRunning = true ∨ y ∈ (s.station i).queue := by
  induction h with
  | refl => exact .inr hy
  | tail _ hwork ih =>
    cases hwork with
    | command j hc => exact (mem_of_queue_place hc hy).elim .inl ih
    | lease | trial | moment => exact ih hy

/-! ### A lease that neither heats nor is SUSPENDED stands -/

/-- Slot `n` holds this lease, but for its rates, and it has 0 W where it has no demand. -/
def State.rests (s : State) (n k : Nat) (l : Lease) : Prop :=
  ∃ l', s.leaseSlot n = { issue := k, lease := some l' } ∧ l'.core = l.core ∧ l'.unpowered

/-- Work that leaves the slot's core leaves its lease resting. -/
theorem rests_of_works (hcore : t.core n = s.core n) (hworks : Works s t) (hs : s.rests n k l) : t.rests n k l := by
  obtain ⟨l0, hslot, hcore0, hpower⟩ := hs
  obtain ⟨l1, hslot1, hcore1⟩ := leaseSlot_of_core hcore hslot
  obtain ⟨l2, hl2, hmoves⟩ := lease_of_works hworks (congrArg LeaseSlot.lease hslot1)
  obtain rfl := Option.some.inj ((congrArg LeaseSlot.lease hslot).symm.trans hl2)
  exact ⟨l1, hslot1, hcore1.trans hcore0, hmoves.unpowered hpower⟩

theorem atRest_of_rests (hheat : l.state.isHeating = false) (hsus : l.state ≠ .suspended) (hs : s.rests n k l) :
    s.atRest n := by
  obtain ⟨l0, hslot, hcore, -⟩ := hs
  obtain ⟨hheat0, -, -, hsus0, -⟩ := same_of_core hcore
  exact atRest_of_lease (congrArg LeaseSlot.lease hslot) (hheat0.trans hheat) fun e => hsus (hsus0.mp e)

section rests

variable (h1 : 1 ≤ n) (hheat : l.state.isHeating = false) (hsus : l.state ≠ .suspended)
include h1 hheat hsus

theorem rests_resettle (b : State) (hs : s.rests n k l) : (resettle b s).rests n k l :=
  rests_of_works (core_resettle h1 b (atRest_of_rests hheat hsus hs)) (works_resettle b s) hs

theorem rests_closing (hs : s.rests n k l) : (closing s).rests n k l :=
  rests_of_works (core_closing h1 (atRest_of_rests hheat hsus hs)) (works_closing s) hs

end rests

/-! ### A lease in REVOKING -/

/-- A lease as it is put into REVOKING (R80). -/
def Lease.revoked (l : Lease) (r : LeaseOutcome) : Lease :=
  { l with
    state := .revoking, reason := some r, revokeTime := some 60, granted := 0, hold := none, saved := none
    limitMark := false, stepTimer := none, waiting := false }

theorem state_revoked (l : Lease) (r : LeaseOutcome) : (l.revoked r).state = .revoking := rfl

theorem leaseSlot_beginRevoking (n : Nat) (l : Lease) (r : LeaseOutcome) (s : State) :
    (beginRevoking n l r s).leaseSlot n = { s.leaseSlot n with lease := (s.lease? n).map (·.revoked r) } :=
  (leaseSlot_of_admission (admission_place _ _ _) n).trans (leaseSlot_modLease n _ s)

theorem rests_beginRevoking (r : LeaseOutcome) (hslot : s.leaseSlot n = { issue := k, lease := some l }) :
    (beginRevoking n l r s).rests n k (l.revoked r) := by
  refine ⟨l.revoked r, ?_, rfl, fun _ => rfl⟩
  rw [leaseSlot_beginRevoking, State.lease?, hslot]
  rfl

/-- What a lease resting in REVOKING is told by. -/
theorem revoked_of_rests {r : LeaseOutcome} (hs : s.rests n k (l.revoked r)) :
    ∃ l', s.leaseSlot n = { issue := k, lease := some l' } ∧ l'.isRevokingFor r ∧ l'.root = l.root ∧
      l'.budget = l.budget ∧ l'.timer = l.timer := by
  obtain ⟨l', hslot, hcore, hpower⟩ := hs
  have hstate : l'.state = .revoking := (same_of_core hcore).2.2.1.mpr rfl
  have hroot : l'.root = l.root := (congrArg Lease.root hcore :)
  exact ⟨l', hslot, ⟨hstate, (congrArg Lease.reason hcore :), (congrArg Lease.revokeTime hcore :),
    hpower (by rw [hstate]; rfl), (congrArg Lease.hold hcore :), (congrArg Lease.saved hcore :)⟩, hroot,
    (congrArg Lease.budget hcore :), (congrArg Lease.timer hcore :)⟩

/-- A lease that an ending puts into REVOKING: not the SOLAR lease, and none whose GRANT is unsent (R80). -/
structure Lease.Revocable (l : Lease) : Prop where
  live : l.state ≠ .revoking
  kind : l.kind ≠ .solar
  sent : l.state ≠ .offered ∨ l.grantSent = true

theorem beginEnding_revocable (r : LeaseOutcome) (hl : s.lease? n = some l) (hr : l.Revocable) :
    beginEnding n r s = beginRevoking n l r s := by
  rw [beginEnding, hl]
  dsimp only
  rw [if_neg hr.live, if_neg]
  rintro (hsolar | ⟨hoffered, hunsent⟩)
  · exact hr.kind hsolar
  · rcases hr.sent with hpast | hsent
    · exact hpast hoffered
    · rw [hunsent] at hsent
      cases hsent

theorem sendRevoking_live (r : LeaseOutcome) (hl : s.lease? n = some l) (hlive : l.state ≠ .revoking) :
    sendRevoking n r s = resettle s (beginEnding n r s) := by
  rw [sendRevoking, hl]
  exact if_neg hlive

theorem sendRevoking_revocable (r : LeaseOutcome) (hl : s.lease? n = some l) (hr : l.Revocable) :
    sendRevoking n r s = resettle s (beginRevoking n l r s) := by
  rw [sendRevoking_live r hl hr.live, beginEnding_revocable r hl hr]

/-- A lease sent to REVOKING stands there when the step is closed. -/
theorem revoked_closing (h1 : 1 ≤ n) (r : LeaseOutcome) (hslot : s.leaseSlot n = { issue := k, lease := some l })
    (hr : l.Revocable) : (closing (sendRevoking n r s)).rests n k (l.revoked r) := by
  rw [sendRevoking_revocable r (congrArg LeaseSlot.lease hslot) hr]
  have hnot : (l.revoked r).state ≠ .suspended := by
    rw [state_revoked]
    decide
  exact rests_closing h1 rfl hnot (rests_resettle h1 rfl hnot s (rests_beginRevoking r hslot))

theorem calm_sendRevoking (r : LeaseOutcome) (hl : s.lease? n = some l) (hr : l.Revocable) :
    (sendRevoking n r s).calm = s.calm := by
  rw [sendRevoking_revocable r hl hr, calm_resettle, calm_beginRevoking]

theorem shelf_sendRevoking (r : LeaseOutcome) (hl : s.lease? n = some l) (hr : l.Revocable) :
    (sendRevoking n r s).shelf = s.shelf := by
  rw [sendRevoking_revocable r hl hr, shelf_resettle, shelf_beginRevoking]

/-! ### A lease that leaves the table -/

theorem leaseHandle_eq (hslot : s.leaseSlot n = { issue := k, lease := some l }) :
    s.leaseHandle n = { slot := n, issue := k } := by
  rw [State.leaseHandle, hslot]

/-- The lease table, the roster and the link after a dismissal are those that the lease's own traces leave. -/
theorem dismiss_blocks (out : LeaseOutcome) (hl : s.lease? n = some l) :
    (dismiss n out s).roster = (freeLease n l out s).roster ∧ (dismiss n out s).link = (freeLease n l out s).link := by
  obtain ⟨b, c, hb⟩ := unserve_eq l.serve s
  have htold (u : State) : (tellOwner l.kind out u).roster = u.roster ∧ (tellOwner l.kind out u).link = u.link := by
    unfold tellOwner
    repeat' split
    · unfold State.raiseIf
      split <;> exact ⟨rfl, rfl⟩
    all_goals exact ⟨rfl, rfl⟩
  unfold dismiss
  rw [hl]
  dsimp only
  rw [hb, (htold _).1, (htold _).2, noteEligible_eq]
  exact ⟨rfl, rfl⟩

theorem leaseSlot_dismiss (h8 : n - 1 < 8) (out : LeaseOutcome) (hl : s.lease? n = some l) :
    (dismiss n out s).leaseSlot n = { issue := ((s.leaseSlot n).issue + 1) % 16, lease := none } :=
  (leaseSlot_of_admission (admission_dismiss out hl) n).trans (leaseSlot_setLeaseSlot h8 _ _)

theorem leaseSlot_dismiss_ne (hne : n - 1 ≠ m - 1) (out : LeaseOutcome) (hl : s.lease? n = some l) :
    (dismiss n out s).leaseSlot m = s.leaseSlot m :=
  (leaseSlot_of_admission (admission_dismiss out hl) m).trans (leaseSlot_setLeaseSlot_ne hne _ _)

theorem order_dismiss (out : LeaseOutcome) (hl : s.lease? n = some l) :
    (dismiss n out s).admission.order = s.admission.order.filter (· != s.leaseHandle n) := by
  rw [admission_dismiss out hl]
  rfl

/-- What the entry of a lease's holder records of its end (R84). -/
def State.recorded (s : State) (n : Nat) (l : Lease) (out : LeaseOutcome) : State :=
  s.modEntry l.holder fun e =>
    { e with last := some { handle := s.leaseHandle n, kind := l.kind, outcome := out, delivered := l.delivered } }

theorem entry_dismiss (out : LeaseOutcome) (hl : s.lease? n = some l) :
    (dismiss n out s).entry = (s.recorded n l out).entry := by
  funext i
  rw [State.entry, State.entry, (dismiss_blocks out hl).1]
  rfl

theorem station_dismiss (out : LeaseOutcome) (hl : s.lease? n = some l) (i : Nat) :
    (dismiss n out s).station i = (dropCommands l.holder (s.leaseHandle n) s).station i := by
  rw [State.station, State.station, (dismiss_blocks out hl).2]
  rfl

theorem link_dismiss (out : LeaseOutcome) (hl : s.lease? n = some l) :
    (dismiss n out s).link.roll = s.link.roll ∧ (dismiss n out s).link.staleItems = s.link.staleItems := by
  rw [(dismiss_blocks out hl).2]
  exact ⟨rfl, rfl⟩

/-- A slot that is free stays so, under its issue. -/
theorem freed_of_shelf (h : t.shelf = s.shelf) (hslot : s.leaseSlot n = { issue := k, lease := none }) :
    t.leaseSlot n = { issue := k, lease := none } := by
  have hroot := root_of_shelf h n
  rw [hslot] at hroot
  rcases ht : t.leaseSlot n with ⟨j, _ | l⟩
  · rw [ht] at hroot
    cases hroot
    rfl
  · rw [ht] at hroot
    cases hroot

/-- A lease that has been dismissed, as the work that follows leaves the table: its slot freed with the issue one on, its
handle out of the admission order, and what its holder's entry records of it. -/
structure State.Retired (s : State) (n : Nat) (l : Lease) (out : LeaseOutcome) (t : State) : Prop where
  slot : t.leaseSlot n = { issue := ((s.leaseSlot n).issue + 1) % 16, lease := none }
  order : s.leaseHandle n ∉ t.admission.order
  flagged : t.flagged .leaseRetired = true
  entry : t.entry = (s.recorded n l out).entry
  stale : t.link.staleItems = s.link.staleItems

theorem retired_dismiss (h8 : n - 1 < 8) (out : LeaseOutcome) (hl : s.lease? n = some l) :
    s.Retired n l out (dismiss n out s) where
  slot := leaseSlot_dismiss h8 out hl
  order := by
    rw [order_dismiss out hl]
    simp
  flagged := dismiss_raises n out (by rw [hl]; nofun)
  entry := entry_dismiss out hl
  stale := (link_dismiss out hl).2

theorem retired_of_works {out : LeaseOutcome} (hworks : Works u t) (h : s.Retired n l out u) :
    s.Retired n l out t where
  slot := freed_of_shelf (shelf_of_works hworks) h.slot
  order := by
    have horder : t.admission.order = u.admission.order := congrArg Shelf.order (shelf_of_works hworks)
    rw [horder]
    exact h.order
  flagged := marked_of_calm (e := some .leaseRetired) (calm_of_works hworks) h.flagged
  entry := (entry_of_calm (calm_of_works hworks)).trans h.entry
  stale := (link_of_works hworks).2.trans h.stale

theorem retired_resettle {out : LeaseOutcome} (b : State) (h : s.Retired n l out u) :
    s.Retired n l out (resettle b u) :=
  retired_of_works (works_resettle b u) h

theorem retired_closing {out : LeaseOutcome} (h : s.Retired n l out u) : s.Retired n l out (closing u) :=
  retired_of_works (works_closing u) h

theorem entry_recorded (out : LeaseOutcome) (h7 : l.holder ≤ 7) :
    (s.recorded n l out).entry l.holder =
      { s.entry l.holder with
        last := some { handle := s.leaseHandle n, kind := l.kind, outcome := out, delivered := l.delivered } } :=
  entry_modEntry h7 _ s

theorem entry_recorded_ne (out : LeaseOutcome) (hne : i ≠ l.holder) : (s.recorded n l out).entry i = s.entry i :=
  entry_modEntry_ne hne _ s

theorem retire_eq (out : LeaseOutcome) (hl : s.lease? n = some l) : retire n out s = resettle s (dismiss n out s) := by
  rw [retire, hl]

theorem retired_retire (h8 : n - 1 < 8) (out : LeaseOutcome) (hl : s.lease? n = some l) :
    s.Retired n l out (retire n out s) := by
  rw [retire_eq out hl]
  exact retired_resettle s (retired_dismiss h8 out hl)

end Sys2Proof.Machine

/-! ### The timers that end a lease (R74, R77, R82) -/

namespace Sys2Proof.Machine
variable {s t u : State} {n k x : Nat} {h r : Handle} {l : Lease} {out reason : LeaseOutcome}

theorem leaseOf?_none (h : s.resolveLease r ≠ .live) : s.leaseOf? r = none := if_neg h

/-- The slot of a live handle is one of the eight, with the handle's issue. -/
theorem slot_of_live (hlive : s.resolveLease h = .live) :
    1 ≤ h.slot ∧ h.slot ≤ 8 ∧ (s.leaseSlot h.slot).issue = h.issue := by
  unfold State.resolveLease resolveHandle at hlive
  split at hlive
  · cases hlive
  · next hslot =>
    split at hlive
    · cases hlive
    · next hissue => exact ⟨by omega, by omega, (not_not.mp hissue).symm⟩

theorem leaseSlot_of_live (hlive : s.resolveLease h = .live) (hl : s.lease? h.slot = some l) :
    s.leaseSlot h.slot = { issue := h.issue, lease := some l } := by
  obtain ⟨-, -, hissue⟩ := slot_of_live hlive
  rw [← hissue, ← hl]
  rfl

theorem leaseHandle_of_live (hlive : s.resolveLease h = .live) : s.leaseHandle h.slot = h := by
  obtain ⟨-, -, hissue⟩ := slot_of_live hlive
  rw [State.leaseHandle, hissue]

/-! ### The duration (R74) -/

theorem counts_iff_state {st : LeaseState} :
    st.counts = true ↔ st = .admitted ∨ st = .throttled ∨ st = .finishing := by
  cases st <;> decide

/-- The part in which a lease whose duration has run out is sent to REVOKING. -/
def State.expiring (s : State) (n : Nat) (l : Lease) : State :=
  (s.modLease n fun l => { l with timer := some 0 }).raiseIf (l.kind == .sanitise) .sanitiseFailed

theorem leaseSlot_expiring (l0 : Lease) (hslot : s.leaseSlot n = { issue := k, lease := some l }) :
    (s.expiring n l0).leaseSlot n = { issue := k, lease := some { l with timer := some 0 } } := by
  have hraised : (s.expiring n l0).leaseSlot n = (s.modLease n fun l => { l with timer := some 0 }).leaseSlot n :=
    leaseSlot_of_admission (raiseIf_admission _ _ _) n
  rw [hraised, leaseSlot_modLease, State.lease?, hslot]
  rfl

theorem flagged_expiring (hkind : l.kind = .sanitise) : (s.expiring n l).flagged .sanitiseFailed = true := by
  rw [State.expiring, hkind]
  exact raised _

theorem sameOutside_raiseIf {touched : List Block} (h : .port ∈ touched) (c : Bool) (f : EventFlag) (s : State) :
    s.sameOutside (s.raiseIf c f) touched := by
  cases c
  · exact sameOutside_refl s touched
  · exact sameOutside_raise h f s

theorem sameOutside_modLease {touched : List Block} (hsub : [Block.admission, .roster, .link] ⊆ touched) (n : Nat)
    (f : Lease → Lease) (s : State) : s.sameOutside (s.modLease n f) touched :=
  sameOutside_of_calm (calm_modLease n f s) hsub

theorem entries_expiring (n : Nat) (l : Lease) (s : State) :
    (s.expiring n l).roster.entries = s.roster.entries := by
  rw [State.expiring, raiseIf_roster]
  rfl

theorem endDuration_idle (hlive : s.resolveLease h = .live) (hl : s.lease? h.slot = some l)
    (hidle : l.timer = none ∨ (l.state ≠ .admitted ∧ l.state ≠ .throttled ∧ l.state ≠ .finishing)) :
    endDuration h s = s := by
  rw [endDuration, leaseOf?_live hlive, hl]
  refine if_neg fun hall => ?_
  obtain ⟨htimer, hcounts⟩ := Bool.and_eq_true_iff.mp hall
  rcases hidle with hnone | ⟨hadmitted, hthrottled, hfinishing⟩
  · rw [hnone] at htimer
    cases htimer
  · rcases counts_iff_state.mp hcounts with e | e | e
    · exact hadmitted e
    · exact hthrottled e
    · exact hfinishing e

theorem endDuration_running (hlive : s.resolveLease h = .live) (hl : s.lease? h.slot = some l) (ht : l.timer = some x)
    (hstate : l.state = .admitted ∨ l.state = .throttled ∨ l.state = .finishing) :
    endDuration h s = closing (sendRevoking h.slot .expired (s.expiring h.slot l)) := by
  rw [endDuration, leaseOf?_live hlive, hl]
  refine if_pos ?_
  rw [ht, counts_iff_state.mpr hstate]
  rfl

theorem revocable_of_counts (hkind : l.kind ≠ .solar)
    (hstate : l.state = .admitted ∨ l.state = .throttled ∨ l.state = .finishing) : l.Revocable := by
  refine ⟨?_, hkind, .inl ?_⟩ <;> (rcases hstate with e | e | e <;> rw [e] <;> decide)

theorem duration_ends (hlive : s.resolveLease h = .live) (hl : s.lease? h.slot = some l) (hkind : l.kind ≠ .solar)
    (ht : l.timer = some x) (hstate : l.state = .admitted ∨ l.state = .throttled ∨ l.state = .finishing) :
    ∃ t l', exec (.durationExpiry h) s = .next t ∧ t.leaseSlot h.slot = { issue := h.issue, lease := some l' } ∧
      l'.isRevokingFor .expired ∧ l'.root = l.root ∧ l'.budget = l.budget ∧ l'.timer = some 0 ∧
      (l.kind = .sanitise → t.flagged .sanitiseFailed = true) ∧
      s.sameOutside t [.admission, .roster, .link, .port] ∧ t.roster.entries = s.roster.entries := by
  have hslot := leaseSlot_expiring l (leaseSlot_of_live hlive hl)
  have hrevocable : Lease.Revocable { l with timer := some 0 } := revocable_of_counts hkind hstate
  obtain ⟨l', hl', hrevoking, hroot, hbudget, htimer⟩ :=
    revoked_of_rests (revoked_closing (slot_of_live hlive).1 .expired hslot hrevocable)
  have hcalm : (closing (sendRevoking h.slot .expired (s.expiring h.slot l))).calm = (s.expiring h.slot l).calm :=
    (calm_closing _).trans (calm_sendRevoking .expired (congrArg LeaseSlot.lease hslot) hrevocable)
  refine ⟨_, l', congrArg Host.Outcome.next (endDuration_running hlive hl ht hstate), hl', hrevoking, hroot, hbudget,
    htimer, fun hsan => ?_, ?_, ?_⟩
  · exact marked_of_calm (e := some .sanitiseFailed) hcalm (flagged_expiring hsan)
  · exact sameOutside_trans (sameOutside_modLease (by decide) _ _ s)
      (sameOutside_trans (sameOutside_raiseIf (by decide) _ _ _) (sameOutside_of_calm hcalm (by decide)))
  · exact (calm_eq_iff.mp hcalm).2.2.2.1.trans (entries_expiring h.slot l s)

/-! ### The finishing hold (R77) -/

theorem endHold_idle (hlive : s.resolveLease h = .live) (hl : s.lease? h.slot = some l)
    (hidle : l.hold = none ∨ l.state ≠ .finishing) : endHold h s = s := by
  rw [endHold, leaseOf?_live hlive, hl]
  refine if_neg fun hall => ?_
  obtain ⟨hhold, hstate⟩ := Bool.and_eq_true_iff.mp hall
  rcases hidle with hnone | hother
  · rw [hnone] at hhold
    cases hhold
  · exact hother (beq_iff_eq.mp hstate)

theorem endHold_running (hlive : s.resolveLease h = .live) (hl : s.lease? h.slot = some l) (hx : l.hold = some x)
    (hstate : l.state = .finishing) : endHold h s = closing (sendRevoking h.slot .completed s) := by
  rw [endHold, leaseOf?_live hlive, hl]
  refine if_pos ?_
  rw [hx, hstate]
  rfl

theorem hold_ends (hlive : s.resolveLease h = .live) (hl : s.lease? h.slot = some l) (hkind : l.kind ≠ .solar)
    (hx : l.hold = some x) (hstate : l.state = .finishing) :
    ∃ t l', exec (.finishingHoldExpiry h) s = .next t ∧
      t.leaseSlot h.slot = { issue := h.issue, lease := some l' } ∧ l'.isRevokingFor .completed ∧
      l'.root = l.root ∧ l'.budget = l.budget ∧ l'.timer = l.timer ∧ t.port = s.port ∧
      s.sameOutside t [.admission, .roster, .link] ∧ t.roster.entries = s.roster.entries := by
  have hrevocable : l.Revocable := revocable_of_counts hkind (.inr (.inr hstate))
  obtain ⟨l', hl', hrevoking, hroot, hbudget, htimer⟩ :=
    revoked_of_rests (revoked_closing (slot_of_live hlive).1 .completed (leaseSlot_of_live hlive hl) hrevocable)
  have hcalm : (closing (sendRevoking h.slot .completed s)).calm = s.calm :=
    (calm_closing _).trans (calm_sendRevoking .completed hl hrevocable)
  obtain ⟨-, -, -, hentries, -, -, -, -, hport, -⟩ := calm_eq_iff.mp hcalm
  exact ⟨_, l', congrArg Host.Outcome.next (endHold_running hlive hl hx hstate), hl', hrevoking, hroot, hbudget, htimer,
    hport, sameOutside_of_calm hcalm (by decide), hentries⟩

/-! ### The records that a lease served (R84) -/

/-- The record that a handle names has no top-up lease. -/
def State.unserved (r : Handle) (s : State) : Prop := ∀ y, s.recordOf? r = some y → y.topUp = none

theorem unserved_of_book (h : t.book = s.book) (hs : s.unserved r) : t.unserved r := by
  intro y hy
  refine hs y ?_
  rw [State.recordOf?, record?_of_book h, bookSlot_of_book h] at hy
  exact hy

theorem recordOf?_eq_some {y : Reservation} (h : s.recordOf? r = some y) :
    (s.bookSlot r.slot).issue = r.issue ∧ s.record? r.slot = some y := by
  unfold State.recordOf? at h
  split at h
  · next hissue => exact ⟨hissue, h⟩
  · cases h

/-- A record whose link is cleared has none, and the clearing of another's links none. -/
theorem unserved_clearTopUp (h : Handle) (hs : h = r ∨ s.unserved r) : (clearTopUp h s).unserved r := by
  intro y hy
  obtain ⟨hissue, hrecord⟩ := recordOf?_eq_some hy
  unfold clearTopUp at hissue hrecord hy
  split at hy
  · next hlive =>
    rw [if_pos hlive] at hrecord
    by_cases hplace : h.slot - 1 = r.slot - 1
    · have hsame (u : State) : u.record? r.slot = u.record? h.slot := by
        rw [State.record?, State.record?, State.bookSlot, State.bookSlot, hplace]
      rw [hsame, record?_modRecord] at hrecord
      obtain ⟨y0, -, rfl⟩ := Option.map_eq_some_iff.mp hrecord
      rfl
    · rcases hs with rfl | hs
      · exact absurd rfl hplace
      · rw [State.recordOf?, bookSlot_modRecord_ne hplace, record?_modRecord_ne hplace] at hy
        exact hs y hy
  · next hstale =>
    rcases hs with rfl | hs
    · rw [if_neg hstale] at hissue
      exact absurd hissue hstale
    · exact hs y hy

theorem unserved_foldl (serve : List Handle) (hs : r ∈ serve ∨ s.unserved r) :
    (serve.foldl (fun t r => passStart (clearTopUp r t)) s).unserved r := by
  induction serve generalizing s with
  | nil => exact hs.resolve_left List.not_mem_nil
  | cons a serve ih =>
    refine ih ?_
    rcases hs with hmem | hs
    · rcases List.mem_cons.mp hmem with rfl | hmem
      · exact .inr (unserved_of_book (book_passStart _) (unserved_clearTopUp _ (.inl rfl)))
      · exact .inl hmem
    · exact .inr (unserved_of_book (book_passStart _) (unserved_clearTopUp _ (.inr hs)))

theorem book_dismiss (hl : s.lease? n = some l) :
    (dismiss n out s).book = (l.serve.foldl (fun t r => passStart (clearTopUp r t)) s).book := by
  unfold dismiss
  rw [hl]
  dsimp only
  rw [book_tellOwner, raise_book, book_noteEligible]
  rfl

theorem unserved_dismiss (hl : s.lease? n = some l) (hr : r ∈ l.serve) : (dismiss n out s).unserved r :=
  unserved_of_book (book_dismiss hl) (unserved_foldl l.serve (.inl hr))

/-- Each record served gives a pass start. -/
theorem pass_unserve {serve : List Handle} (hserve : serve ≠ []) (hvalid : s.map.valid = true) :
    (serve.foldl (fun t r => passStart (clearTopUp r t)) s).coverage.pass.isSome = true := by
  obtain ⟨r, serve, rfl⟩ := List.exists_cons_of_ne_nil hserve
  refine foldl_marked (e := none) _ (fun u a hu => ?_) serve _ (passStart_inFlight ?_)
  · refine marked_passStart (marked_of_eq ?_ ?_ hu)
    · unfold clearTopUp
      split <;> rfl
    · unfold clearTopUp
      split <;> rfl
  · unfold clearTopUp
    split <;> exact hvalid

theorem pass_dismiss (hl : s.lease? n = some l) (hserve : l.serve ≠ []) (hvalid : s.map.valid = true) :
    (dismiss n out s).coverage.pass.isSome = true := by
  have hstart := pass_unserve hserve hvalid
  unfold dismiss
  rw [hl]
  exact marked_tellOwner (e := none) _ _ (marked_raise _ (marked_noteEligible _ hstart))

/-! ### The revoke time (R82, R84) -/

/-- A revoke timeout counted. -/
def State.timedOut (s : State) : State := s.modAdmission fun a => { a with revokeTimeouts := satInc a.revokeTimeouts }

theorem endRevokeTime_idle (hlive : s.resolveLease h = .live) (hl : s.lease? h.slot = some l)
    (hstate : l.state ≠ .revoking) : endRevokeTime h s = s := by
  rw [endRevokeTime, leaseOf?_live hlive, hl]
  exact if_neg hstate

theorem endRevokeTime_revoking (hlive : s.resolveLease h = .live) (hl : s.lease? h.slot = some l)
    (hstate : l.state = .revoking) (hreason : l.reason = some reason) :
    endRevokeTime h s = closing (retire h.slot reason s.timedOut) := by
  rw [endRevokeTime, leaseOf?_live hlive, hl]
  dsimp only
  rw [if_pos hstate, hreason]
  rfl

theorem revokeTime_ends (hlive : s.resolveLease h = .live) (hl : s.lease? h.slot = some l)
    (hstate : l.state = .revoking) (hreason : l.reason = some reason) (h7 : l.holder ≤ 7) :
    ∃ t, exec (.revokeTimeout h) s = .next t ∧
      t.leaseSlot h.slot = { issue := (h.issue + 1) % 16, lease := none } ∧ t.flagged .leaseRetired = true ∧
      t.admission.revokeTimeouts = (if s.admission.revokeTimeouts < 65535 then s.admission.revokeTimeouts + 1
        else s.admission.revokeTimeouts) ∧
      t.entry l.holder =
        { s.entry l.holder with
          last := some { handle := h, kind := l.kind, outcome := reason, delivered := l.delivered } } ∧
      h ∉ t.admission.order ∧
      (∀ r x, r ∈ l.serve → 1 ≤ r.slot → r.slot ≤ 24 → t.recordOf? r = some x → x.topUp = none) ∧
      (∀ n x, s.record? n = some x → ∃ x', t.record? n = some x' ∧ sameBooking x x') ∧
      (s.map.valid = true → l.serve ≠ [] → t.coverage.pass.isSome = true) ∧
      t.map = s.map ∧ t.clock = s.clock ∧ t.sanitise = s.sanitise ∧ t.port.state = s.port.state := by
  obtain ⟨h1, h8, hissue⟩ := slot_of_live hlive
  have hl1 : s.timedOut.lease? h.slot = some l := hl
  have hretired := retired_closing (retired_retire (by omega) reason hl1)
  have hhandle : s.timedOut.leaseHandle h.slot = h := leaseHandle_of_live hlive
  have hcalm : (closing (retire h.slot reason s.timedOut)).calm = (dismiss h.slot reason s.timedOut).calm := by
    rw [calm_closing, retire_eq reason hl1, calm_resettle]
  have hkept : (closing (retire h.slot reason s.timedOut)).kept = s.timedOut.kept := by
    rw [kept_closing, kept_retire]
  refine ⟨_, congrArg Host.Outcome.next (endRevokeTime_revoking hlive hl hstate hreason), ?_, hretired.flagged,
    (congrArg (fun x => x.desk.revokeTimeouts) hkept :), ?_, ?_, fun r x hr _ _ hx => ?_, fun n x hx => ?_,
    fun hvalid hserve => ?_, map_of_kept hkept, congrArg Kept.clock hkept, sanitise_of_kept hkept,
    congrArg Kept.portState hkept⟩
  · rw [hretired.slot, ← hissue]
    rfl
  · rw [hretired.entry, entry_recorded reason h7, hhandle]
    rfl
  · have horder := hretired.order
    rw [hhandle] at horder
    exact horder
  · exact unserved_of_book (calm_eq_iff.mp hcalm).2.1 (unserved_dismiss hl1 hr) x hx
  · exact sameBooking_of_slots (congrArg Kept.slots hkept) hx
  · exact marked_of_calm (e := none) hcalm (pass_dismiss hl1 hserve hvalid)

/-- Settles O29: the three timers, each on a handle that names no live lease, on a lease for which it does not run, and
as it runs out. -/
theorem timersEndALease : Obligations.TimersEndALease := by
  intro s h
  refine ⟨fun hdead => ?_, fun l hlive hl => ⟨fun x hkind ht hstate => duration_ends hlive hl hkind ht hstate,
    fun hidle => congrArg Host.Outcome.next (endDuration_idle hlive hl hidle),
    fun x hkind hx hstate => hold_ends hlive hl hkind hx hstate,
    fun hidle => congrArg Host.Outcome.next (endHold_idle hlive hl hidle),
    fun reason hstate hreason h7 => revokeTime_ends hlive hl hstate hreason h7,
    fun hstate => congrArg Host.Outcome.next (endRevokeTime_idle hlive hl hstate)⟩⟩
  have hnone := leaseOf?_none hdead
  refine ⟨congrArg Host.Outcome.next ?_, congrArg Host.Outcome.next ?_, congrArg Host.Outcome.next ?_⟩
  · rw [endDuration, hnone]
  · rw [endHold, hnone]
  · rw [endRevokeTime, hnone]

end Sys2Proof.Machine

/-! ### A REVOKE placed -/

namespace Sys2Proof.Machine
variable {q : List Queued} {bears : LinkCmd → Bool} {y : Queued} {h : Handle} {c : LinkCmd} {age : Nat}

theorem isRevoke_iff : c.isRevoke h = true ↔ c = .revoke h := by
  cases c <;> simp [LinkCmd.isRevoke]

theorem not_of_mem_removeAll {p : LinkCmd → Bool} (hy : y ∈ removeAll p q) : p y.cmd = false :=
  by simpa using (List.mem_filter.mp hy).2

/-- A REVOKE placed waits, and no other command for its lease does (R142, R143). -/
theorem waits_placeRevoke : ∃ y ∈ placeRevoke bears h age q, y.cmd = .revoke h := by
  unfold placeRevoke
  dsimp only
  split
  · next hwaits =>
    obtain ⟨y, hy, hrevoke⟩ := List.any_eq_true.mp hwaits
    exact ⟨y, hy, isRevoke_iff.mp hrevoke⟩
  · exact waits_enqueue

theorem alone_placeRevoke (hy : y ∈ placeRevoke bears h age q) (hh : y.cmd.handle? = some h) : y.cmd = .revoke h := by
  have hleft (hy : y ∈ removeAll (fun c => c.handle? == some h && !c.isRevoke h) q) : y.cmd = .revoke h := by
    have hkept := not_of_mem_removeAll hy
    rw [hh] at hkept
    exact isRevoke_iff.mp (by simpa using hkept)
  unfold placeRevoke at hy
  dsimp only at hy
  split at hy
  · exact hleft hy
  · exact (mem_of_enqueue hy).elim id hleft

end Sys2Proof.Machine

/-! ### A lease at rest and its holder's queue -/

namespace Sys2Proof.Machine
variable {s t u b : State} {n i k : Nat} {l l' : Lease} {r : LeaseOutcome}

theorem heating_of_running {st : LeaseState} (h : st.isRunning = true) : st.isHeating = true := by
  revert h
  cases st <;> decide

/-- No turn is the own of a lease that neither heats nor has a saved context. -/
theorem plot_of_turns_rest (hl : s.lease? n = some l) (hheat : l.state.isHeating = false) (hsaved : l.saved = none)
    (h : Turns n i s t) : t.plot n i = s.plot n i := by
  induction h with
  | refl => rfl
  | tail _ hturn ih =>
    obtain ⟨l1, hl1, hcore⟩ := lease_of_core (plot_eq_iff.mp ih).2.2.1 hl
    obtain ⟨hheats, -, -, -, hsav, -⟩ := same_of_core hcore
    have hcold {l2 : Lease} {w : State} (hl1 : w.lease? n = some l1) (hl2 : w.lease? n = some l2) :
        l2.state.isHeating = false ∧ l2.saved = none := by
      obtain rfl := Option.some.inj (hl1.symm.trans hl2)
      exact ⟨hheats.trans hheat, hsav.trans hsaved⟩
    cases hturn with
    | elsewhere h => exact h.trans ih
    | told hl2 hstate | suspended hl2 hstate =>
      rw [(hcold hl1 hl2).1] at hstate
      cases hstate
    | finishing hl2 hstate =>
      have hheating := heating_of_running hstate
      rw [(hcold hl1 hl2).1] at hheating
      cases hheating
    | ended _ hl2 hstate | recharged hl2 hstate =>
      have hcold := (hcold hl1 hl2).1
      rw [hstate] at hcold
      cases hcold
    | resumed hl2 hctx =>
      rw [(hcold hl1 hl2).2] at hctx
      cases hctx

theorem plot_freeRates (b s : State) : (freeRates b s).plot n i = s.plot n i := by
  unfold freeRates
  dsimp only
  rw [foldl_keeps (State.plot · n i) _ (fun s m => plot_followDemand b m s),
    foldl_keeps (State.plot · n i) _ (fun s m => plot_followEntitlement m s)]

theorem turns_resettle (b : State) (hs : s.Holds n i) : Turns n i s (resettle b s) := by
  have hfree : Turns n i s (freeRates b s) := turns_of_plot (plot_freeRates b s)
  have hfreed := holds_of_turns hfree hs
  unfold resettle
  dsimp only
  split
  · exact hfree.trans (turns_settle b hfreed)
  · exact hfree.trans (turns_actOnOverlap b hfreed)

/-- The queue of a lease's holder once the lease has been put into REVOKING and the step closed. -/
theorem queue_revoked (hs : s.Holds n i) (hl : s.lease? n = some l) (hr : l.Revocable) (r : LeaseOutcome) :
    ((closing (sendRevoking n r s)).station i).queue = ((beginRevoking n l r s).station i).queue := by
  have hshelf : (beginRevoking n l r s).shelf = s.shelf := shelf_beginRevoking n l r s
  have hentries : (beginRevoking n l r s).roster.entries = s.roster.entries :=
    (calm_eq_iff.mp (calm_beginRevoking n l r s)).2.2.2.1
  have hbegun := holds_of_shelf hentries hshelf hs
  have hsettled := turns_resettle s hbegun
  have hturns := hsettled.trans (turns_closing (holds_of_turns hsettled hbegun))
  have hrevoked : (beginRevoking n l r s).lease? n = some (l.revoked r) := by
    rw [State.lease?, leaseSlot_beginRevoking, hl]
    rfl
  rw [sendRevoking_revocable r hl hr]
  exact (plot_eq_iff.mp (plot_of_turns_rest hrevoked rfl rfl hturns)).2.2.2

theorem queue_beginRevoking (hs : s.Holds n i) (hl : s.lease? n = some l) :
    ∃ bears age q, ((beginRevoking n l r s).station i).queue = placeRevoke bears (s.leaseHandle n) age q := by
  unfold beginRevoking
  rw [holder_eq hs hl, queue_place hs.index.1 hs.index.2]
  exact ⟨_, _, _, rfl⟩

/-! ### REVOKE LEASE (R81) -/

variable {h : Handle}

theorem withLease_live (work : Lease → State → Reply) (hlive : s.resolveLease h = .live)
    (hl : s.lease? h.slot = some l) : withLease h work s = work l s := by
  rw [withLease, hlive, hl]
  rfl

/-- The queue of a dismissed lease's holder holds no command for it. -/
theorem dropped_dismiss {out : LeaseOutcome} {y : Queued} (hl : s.lease? n = some l)
    (hy : y ∈ ((dismiss n out s).station l.holder).queue) : y.cmd.handle? ≠ some (s.leaseHandle n) := by
  rw [station_dismiss out hl, dropCommands] at hy
  by_cases hin : l.holder < 8
  · have hset : ((s.modStation l.holder fun t => { t with
        queue := removeAll (fun c => c.handle? == some (s.leaseHandle n)) t.queue }).station l.holder).queue =
          removeAll (fun c => c.handle? == some (s.leaseHandle n)) (s.station l.holder).queue :=
      congrArg Station.queue (tget_tset_self s.link.stations l.holder _ .initial hin)
    rw [hset] at hy
    intro hown
    have hkept := not_of_mem_removeAll hy
    rw [hown] at hkept
    simp at hkept
  · rw [State.station, tget_of_le _ _ _ (Nat.not_lt.mp hin)] at hy
    cases hy

theorem revoke_refused (hidle : s.isWorking = false) (hlive : s.resolveLease h = .live)
    (hl : s.lease? h.slot = some l) (hnot : l.kind = .solar ∨ l.state = .revoking) :
    exec (.revokeLease h) s = .next (s.replies .wrongState 0x19#8 []) :=
  congrArg Host.Outcome.next
    (request_refused hidle ((withLease_live _ hlive hl).trans (if_pos hnot)) (by decide))

/-- A REVOKE LEASE taken ends the lease named. -/
theorem revoke_taken (hidle : s.isWorking = false) (hlive : s.resolveLease h = .live) (hl : s.lease? h.slot = some l)
    (hkind : l.kind ≠ .solar) (hstate : l.state ≠ .revoking) :
    exec (.revokeLease h) s = .next ((closing (sendRevoking h.slot .revoked s)).answering 0x19#8 .ok []) := by
  refine congrArg Host.Outcome.next (request_ok hidle ((withLease_live _ hlive hl).trans (if_neg ?_)))
  rintro (hsolar | hrevoking)
  · exact hkind hsolar
  · exact hstate hrevoking

theorem sendRevoking_unsent (hl : s.lease? n = some l) (hoffered : l.state = .offered) (hunsent : l.grantSent = false) :
    sendRevoking n r s = resettle s (dismiss n r s) := by
  rw [sendRevoking_live r hl (by rw [hoffered]; decide), beginEnding, hl]
  dsimp only
  rw [if_neg (by rw [hoffered]; decide), if_pos (.inr ⟨hoffered, hunsent⟩)]

theorem revoke_unsent (hidle : s.isWorking = false) (hlive : s.resolveLease h = .live) (hl : s.lease? h.slot = some l)
    (hkind : l.kind ≠ .solar) (hoffered : l.state = .offered) (hunsent : l.grantSent = false) :
    ∃ t, exec (.revokeLease h) s = .next t ∧ t.answersWith .ok 0x19#8 [] ∧
      t.leaseSlot h.slot = { issue := (h.issue + 1) % 16, lease := none } ∧ t.flagged .leaseRetired = true ∧
      h ∉ t.admission.order ∧
      ∀ y ∈ (t.station l.holder).queue, ∀ kind rate c b, y.cmd ≠ .grant h kind rate c b := by
  obtain ⟨h1, h8, hissue⟩ := slot_of_live hlive
  have hhandle := leaseHandle_of_live hlive
  have hretired := retired_closing (retired_resettle s (retired_dismiss (by omega) .revoked hl))
  have htaken := revoke_taken hidle hlive hl hkind (by rw [hoffered]; decide)
  rw [sendRevoking_unsent hl hoffered hunsent] at htaken
  have hworks := (works_resettle s (dismiss h.slot .revoked s)).trans (works_closing _)
  generalize closing (resettle s (dismiss h.slot .revoked s)) = u at hretired htaken hworks
  refine ⟨_, htaken, ⟨rfl, rfl⟩, ?_, hretired.flagged, ?_, fun y hy kind rate c b hgrant => ?_⟩
  · rw [← hissue]
    exact hretired.slot
  · rw [← hhandle]
    exact hretired.order
  · rcases mem_of_queue_works (t := u) hworks hy with hrunning | hy
    · rw [hgrant] at hrunning
      cases hrunning
    · refine dropped_dismiss hl hy ?_
      rw [hgrant, hhandle]
      rfl

theorem revoke_sent (hidle : s.isWorking = false) (hlive : s.resolveLease h = .live) (hl : s.lease? h.slot = some l)
    (hr : l.Revocable) :
    ∃ t l', exec (.revokeLease h) s = .next t ∧ s.answersOk t 0x19#8 [] ∧
      t.leaseSlot h.slot = { issue := h.issue, lease := some l' } ∧ l'.isRevokingFor .revoked ∧
      l'.root = l.root ∧ l'.budget = l.budget ∧ l'.timer = l.timer ∧ t.admission.order = s.admission.order ∧
      (s.tableInOrder → (∃ y ∈ (t.station l.holder).queue, y.cmd = .revoke h) ∧
        ∀ y ∈ (t.station l.holder).queue, y.cmd.handle? = some h → y.cmd = .revoke h) ∧
      s.sameOutside t [.admission, .roster, .link, .port] ∧ t.roster.entries = s.roster.entries := by
  obtain ⟨h1, h8, -⟩ := slot_of_live hlive
  obtain ⟨l', hl', hrevoking, hroot, hbudget, htimer⟩ :=
    revoked_of_rests (revoked_closing h1 .revoked (leaseSlot_of_live hlive hl) hr)
  have hcalm := calm_sendRevoking .revoked hl hr
  have hshelf := (shelf_closing _).trans (shelf_sendRevoking .revoked hl hr)
  refine ⟨_, l', revoke_taken hidle hlive hl hr.kind hr.live, answersOk_answered ?_, hl', hrevoking, hroot, hbudget,
    htimer, congrArg Shelf.order hshelf, fun htable => ?_,
    sameOutside_answered (by simp) (sameOutside_of_calm hcalm (by decide)), ?_⟩
  · exact (calm_eq_iff.mp hcalm).2.2.2.2.2.2.2.2.1
  · have hlink : l.holder ≠ 0 := by
      obtain ⟨hsolar, -⟩ := htable.1 h.slot l h1 h8 hl
      exact fun e => hr.kind (hsolar.mpr e)
    have hs := holds_of_tableInOrder htable h1 h8 hl hlink
    have hqueue : (((closing (sendRevoking h.slot .revoked s)).answering 0x19#8 .ok []).station l.holder).queue = _ :=
      queue_revoked hs hl hr .revoked
    obtain ⟨bears, age, q, hplaced⟩ := queue_beginRevoking (r := .revoked) hs hl
    rw [hqueue, hplaced, leaseHandle_of_live hlive]
    exact ⟨waits_placeRevoke, fun y hy hh => alone_placeRevoke hy hh⟩
  · exact (calm_eq_iff.mp ((calm_closing _).trans hcalm)).2.2.2.1

/-- Settles O28: a lease that may not be revoked, one whose GRANT is unsent, and any other. -/
theorem theHostRevokesALease : Obligations.TheHostRevokesALease := by
  intro s h l hidle hlive hl
  refine ⟨fun hnot => revoke_refused hidle hlive hl hnot, fun hkind hoffered hunsent => ?_,
    fun hkind hstate hsent => revoke_sent hidle hlive hl ⟨hstate, hkind, hsent⟩⟩
  obtain ⟨t, ht, hanswer, hslot, hflag, horder, hqueue⟩ := revoke_unsent hidle hlive hl hkind hoffered hunsent
  exact ⟨t, ht, hanswer, hslot, hflag, horder, fun _ => hqueue⟩

end Sys2Proof.Machine

/-! ### A good exchange (R137, R139)

What an answer brings is handed to its block in the part that has heard the entry; what closes the step follows. -/

namespace Sys2Proof.Machine
variable {s t u w : State} {n i a : Nat} {x : Exchange} {ans : LinkAnswer} {h : Handle} {l : Lease}

/-- The part with entry `i` heard: no exchange in flight, and the entry's missed exchanges at 0. -/
def State.heard (s : State) (i : Nat) : State := countGood i (s.modLink fun k => { k with exchange := none })

/-- An answer taken and closed, but for what the end of an enumeration adds. -/
def State.concluded (u : State) (x : Exchange) : State := closing (afterEnumerated x u)

theorem index_of_indexAt (h : s.indexAt a = some i) : 1 ≤ i ∧ i ≤ 7 := mem_stationIndexes.mp (List.mem_of_find?_eq_some h)

theorem stationExchange?_eq (hx : s.link.exchange = some x) (haddr : x.addr = a) (h31 : a ≠ 31) :
    s.stationExchange? = some x := by
  have hstation : (x.addr != allStations) = true := by
    rw [haddr]
    exact bne_iff_ne.mpr h31
  rw [State.stationExchange?, hx, Option.filter_some, if_pos hstation]

/-- A good answer of an entry that is present. -/
theorem takeAnswer_good (hx : s.link.exchange = some x) (haddr : x.addr = a) (h31 : a ≠ 31)
    (hi : s.indexAt a = some i) (hallows : x.cmd.allows ans = true) (hfault : ans.hasFault = false) :
    takeAnswer a ans s = (handAnswer i x ans (s.heard i)).concluded x := by
  have hindex : (s.modLink fun k => { k with exchange := none }).indexAt x.addr = some i := haddr ▸ hi
  have hprobed (u : State) : afterProbed x s u = u := if_neg fun hnone => by
    rw [haddr, hi] at hnone
    cases hnone.2
  unfold takeAnswer
  rw [stationExchange?_eq hx haddr h31]
  dsimp only
  rw [if_pos ⟨haddr.symm, hallows⟩]
  unfold goodExchange
  dsimp only
  rw [hindex, hprobed]
  dsimp only
  rw [hfault, countAnswer, hfault]
  rfl

/-- What the end of an enumeration leaves alone. -/
theorem afterEnumerated_eq (x : Exchange) (u : State) :
    ∃ k, afterEnumerated x u = u.modLink (fun _ => k) ∧ k.stations = u.link.stations ∧
      k.exchange = u.link.exchange ∧ k.roll = u.link.roll ∧ k.staleItems = u.link.staleItems := by
  unfold afterEnumerated
  split
  · exact ⟨_, rfl, rfl, rfl, rfl, rfl⟩
  · exact ⟨u.link, rfl, rfl, rfl, rfl, rfl⟩

/-! ### What an answer's taking leaves at the end of the step -/

theorem enumerated_shelf (x : Exchange) (u : State) : (afterEnumerated x u).shelf = u.shelf := by
  obtain ⟨k, hk, hstations, -⟩ := afterEnumerated_eq x u
  rw [hk, State.shelf, State.shelf, modLink_link, hstations]
  rfl

theorem concluded_shelf (u : State) (x : Exchange) : (u.concluded x).shelf = u.shelf :=
  (shelf_closing _).trans (enumerated_shelf x u)

theorem concluded_link (u : State) (x : Exchange) :
    (u.concluded x).link.roll = u.link.roll ∧ (u.concluded x).link.staleItems = u.link.staleItems := by
  obtain ⟨k, hk, -, -, hroll, hstale⟩ := afterEnumerated_eq x u
  obtain ⟨hroll', hstale'⟩ := link_of_works (works_closing (afterEnumerated x u))
  rw [State.concluded, hroll', hstale', hk]
  exact ⟨hroll, hstale⟩

theorem exchange_of_calm (h : t.calm = s.calm) (hs : s.link.exchange = none) : t.link.exchange = none := by
  obtain ⟨-, -, -, -, -, -, -, -, -, -, hwires, -⟩ := calm_eq_iff.mp h
  have hmap : t.link.exchange.map (fun x => { x with overtaken := false }) =
      s.link.exchange.map (fun x => { x with overtaken := false }) := congrArg Link.exchange hwires
  rw [hs] at hmap
  exact Option.map_eq_none_iff.mp hmap

theorem concluded_exchange (x : Exchange) (hu : u.link.exchange = none) : (u.concluded x).link.exchange = none := by
  obtain ⟨k, hk, -, hexchange, -⟩ := afterEnumerated_eq x u
  refine exchange_of_calm (calm_closing (afterEnumerated x u)) ?_
  rw [hk, modLink_link, hexchange, hu]

theorem concluded_entry (u : State) (x : Exchange) : (u.concluded x).entry = u.entry := by
  obtain ⟨k, hk, -⟩ := afterEnumerated_eq x u
  rw [State.concluded, entry_closing, hk]
  rfl

theorem concluded_desk (u : State) (x : Exchange) : (u.concluded x).admission.desk = u.admission.desk := by
  obtain ⟨k, hk, -⟩ := afterEnumerated_eq x u
  obtain ⟨-, -, -, -, -, -, -, -, -, hdesk, -⟩ := calm_eq_iff.mp (calm_closing (afterEnumerated x u))
  rw [State.concluded, hdesk, hk]
  rfl

theorem concluded_kept (u : State) (x : Exchange) : (u.concluded x).kept = u.kept := by
  obtain ⟨k, hk, -⟩ := afterEnumerated_eq x u
  rw [State.concluded, kept_closing, hk, kept_modLink]

theorem sameOutside_modLink {touched : List Block} (h : .link ∈ touched) (f : Link → Link) (s : State) :
    s.sameOutside (s.modLink f) touched := by
  refine ⟨fun b hb => ?_, rfl⟩
  cases b with
  | link => exact absurd h hb
  | _ => rfl

theorem concluded_sameOutside {touched : List Block} (hsub : [Block.admission, .roster, .link] ⊆ touched) (u : State)
    (x : Exchange) : u.sameOutside (u.concluded x) touched := by
  obtain ⟨k, hk, -⟩ := afterEnumerated_eq x u
  refine sameOutside_trans (u := afterEnumerated x u) ?_ (sameOutside_of_calm (calm_closing _) hsub)
  rw [hk]
  exact sameOutside_modLink (hsub (by simp)) _ u

theorem concluded_retired {out : LeaseOutcome} (x : Exchange) (h : s.Retired n l out u) :
    s.Retired n l out (u.concluded x) := by
  refine retired_closing ⟨?_, ?_, ?_, ?_, ?_⟩ <;> obtain ⟨k, hk, -, -, -, hstale⟩ := afterEnumerated_eq x u <;>
    rw [hk]
  · exact h.slot
  · exact h.order
  · exact h.flagged
  · exact h.entry
  · exact hstale.trans h.stale

/-- The lease of a slot whose core no work since has changed: work on its slot ended with `u`. -/
theorem concluded_past {l' : Lease} (x : Exchange) (hl' : (u.concluded x).lease? n = some l') :
    ∃ l, u.lease? n = some l ∧ l.Moves l' := by
  obtain ⟨k, hk, -⟩ := afterEnumerated_eq x u
  obtain ⟨l, hl, hmoves⟩ := lease_of_works (works_closing (afterEnumerated x u)) hl'
  rw [hk] at hl
  exact ⟨l, hl, hmoves⟩

/-! ### The entry heard -/

theorem heard_entry (h7 : i ≤ 7) (s : State) : (s.heard i).entry i = { s.entry i with missed := 0 } :=
  entry_modEntry h7 _ (s.modLink fun k => { k with exchange := none })

theorem heard_entry_ne {j : Nat} (hj : j ≠ i) (s : State) : (s.heard i).entry j = s.entry j :=
  entry_modEntry_ne hj _ (s.modLink fun k => { k with exchange := none })

theorem heard_sameOutside {touched : List Block} (hlink : .link ∈ touched) (hroster : .roster ∈ touched) (i : Nat)
    (s : State) : s.sameOutside (s.heard i) touched :=
  sameOutside_trans (sameOutside_modLink hlink _ s) (sameOutside_modEntry hroster i _ _)

theorem ownSlot_of_live (hlive : s.resolveLease h = .live) (hl : s.lease? h.slot = some l) (hi : l.holder = i) :
    s.ownSlot i h = some h.slot := by
  rw [State.ownSlot, leaseOf?_live hlive, hl]
  exact if_pos (beq_iff_eq.mpr hi)

/-! ### ACCEPT (R63, R70) -/

/-- The part in which an accepted lease takes its rate: its offer gone from the queue, the lease out of OFFERED, and its
handle at the tail of the admission order. -/
def State.accepted (s : State) (i n rate : Nat) : State :=
  (noteRunning n rate ((dropOffer i (s.leaseHandle n) s).modLease n s.acceptedAs)).modAdmission fun a =>
    { a with order := a.order ++ [s.leaseHandle n] }

theorem works_enterRate (b : State) (n : Nat) (s : State) : Works s (enterRate b s n) :=
  ((works_followEntitlement s n).trans (works_followDemand b _ n)).trans
    (works_lease n _ _ fun l _ => moves_settledState s.map.valid l)

theorem works_admitLease (i n rate : Nat) (s : State) : Works (s.accepted i n rate) (admitLease i n rate s) := by
  have hsettled : Works (s.accepted i n rate) (resettle s (enterRate s (s.accepted i n rate) n)) :=
    (works_enterRate s n _).trans (works_resettle s _)
  unfold admitLease
  dsimp only
  refine Relation.ReflTransGen.trans ?_ (works_endZeroHold n _)
  rw [← State.accepted]
  split
  · exact hsettled
  · split
    · exact hsettled
    · exact hsettled.trans (works_place i rfl _)

theorem leaseSlot_accepted (i n rate : Nat) (s : State) :
    (s.accepted i n rate).leaseSlot n =
      { s.leaseSlot n with
        lease := (s.lease? n).map fun l => { s.acceptedAs l with ackRate := some rate, runView := some .running } } := by
  have hordered : (s.accepted i n rate).leaseSlot n =
      (noteRunning n rate ((dropOffer i (s.leaseHandle n) s).modLease n s.acceptedAs)).leaseSlot n := rfl
  have hdropped : (dropOffer i (s.leaseHandle n) s).leaseSlot n = s.leaseSlot n := rfl
  rw [hordered, noteRunning, leaseSlot_modLease, leaseSlot_modLease, lease_modLease, State.lease?, hdropped,
    Option.map_map]
  rfl

theorem acceptedAs_root (s : State) (l : Lease) : (s.acceptedAs l).root = l.root := by
  unfold State.acceptedAs
  split <;> rfl

theorem acceptedAs_past (s : State) (l : Lease) (rate : Nat) :
    Lease.past { s.acceptedAs l with ackRate := some rate, runView := some .running } := by
  unfold State.acceptedAs
  split
  · exact past_of_state nofun nofun
  · exact past_of_state nofun nofun

theorem sameOutside_accepted (i n rate : Nat) (s : State) :
    s.sameOutside (s.accepted i n rate) [.admission, .roster, .link] := by
  refine ⟨fun b hb => ?_, rfl⟩
  cases b with
  | admission | roster | link => exact absurd (by decide) hb
  | _ => rfl

theorem allows_accept {kind : LeaseKind} {rate : Nat} {c : Temp} {b : Option Nat} :
    (LinkCmd.grant h kind rate c b).allows (.accept h) = true := beq_iff_eq.mpr rfl

theorem allows_decline {kind : LeaseKind} {rate : Nat} {c : Temp} {b : Option Nat} :
    (LinkCmd.grant h kind rate c b).allows (.decline h) = true := beq_iff_eq.mpr rfl

/-- An ACCEPT of a lease still OFFERED admits it. -/
theorem takeAccept_offered (hlive : s.resolveLease h = .live) (hl : s.lease? h.slot = some l) (hi : l.holder = i)
    (hoffered : l.state = .offered) (rate : Nat) : takeAccept i h rate s = admitLease i h.slot rate s := by
  rw [takeAccept, ownSlot_of_live hlive hl hi]
  dsimp only
  rw [State.leaseState?, hl, Option.map_some, hoffered]

theorem accept_taken {kind : LeaseKind} {rate : Nat} {c : Temp} {b : Option Nat} (hx : s.link.exchange = some x)
    (haddr : x.addr = a) (h31 : a ≠ 31) (hi : s.indexAt a = some i) (hcmd : x.cmd = .grant h kind rate c b)
    (hlive : s.resolveLease h = .live) (hl : s.lease? h.slot = some l) (hholder : l.holder = i)
    (hoffered : l.state = .offered) :
    takeAnswer a (.accept h) s = (admitLease i h.slot rate (s.heard i)).concluded x := by
  rw [takeAnswer_good hx haddr h31 hi (by rw [hcmd]; exact allows_accept) rfl, handAnswer, hcmd]
  exact congrArg (State.concluded · x) (takeAccept_offered (s := s.heard i) hlive hl hholder hoffered rate)

theorem accept_admits {kind : LeaseKind} {rate : Nat} {c : Temp} {b : Option Nat} (hx : s.link.exchange = some x)
    (haddr : x.addr = a) (h31 : a ≠ 31) (hi : s.indexAt a = some i) (hcmd : x.cmd = .grant h kind rate c b)
    (hlive : s.resolveLease h = .live) (hl : s.lease? h.slot = some l) (hholder : l.holder = i)
    (hoffered : l.state = .offered) :
    ∃ t l', exec (.accept a h) s = .next t ∧ t.link.exchange = none ∧ t.entry i = { s.entry i with missed := 0 } ∧
      t.leaseSlot h.slot = { issue := h.issue, lease := some l' } ∧ l'.state ≠ .offered ∧
      l'.root = { l with ackRate := some rate, runView := some .running }.root ∧
      t.admission.order = s.admission.order ++ [h] ∧ t.admission.desk = s.admission.desk ∧
      (∀ j, j ≤ 7 → j ≠ i → t.entry j = s.entry j) ∧ s.sameOutside t [.admission, .roster, .link] := by
  obtain ⟨-, h7⟩ := index_of_indexAt hi
  have hworks := works_admitLease i h.slot rate (s.heard i)
  have hcalm := calm_of_works hworks
  obtain ⟨-, -, -, -, -, -, -, -, -, hdesk, -⟩ := calm_eq_iff.mp hcalm
  have hentry : (admitLease i h.slot rate (s.heard i)).entry = (s.heard i).entry := entry_of_calm hcalm
  have hslot : ((s.heard i).accepted i h.slot rate).leaseSlot h.slot =
      { issue := h.issue
        lease := some { (s.heard i).acceptedAs l with ackRate := some rate, runView := some .running } } := by
    have hheard : (s.heard i).leaseSlot h.slot = { issue := h.issue, lease := some l } := leaseSlot_of_live hlive hl
    rw [leaseSlot_accepted, State.lease?, hheard]
    rfl
  have hshelf := (concluded_shelf (admitLease i h.slot rate (s.heard i)) x).trans (shelf_of_works hworks)
  obtain ⟨l', hl', hroot⟩ := leaseSlot_of_shelf hshelf hslot
  obtain ⟨l1, hl1, hlast⟩ := concluded_past x (congrArg LeaseSlot.lease hl')
  obtain ⟨l2, hl2, hfirst⟩ := lease_of_works hworks hl1
  obtain rfl := Option.some.inj ((congrArg LeaseSlot.lease hslot).symm.trans hl2)
  refine ⟨_, l', congrArg Host.Outcome.next (accept_taken hx haddr h31 hi hcmd hlive hl hholder hoffered),
    concluded_exchange x ?_, ?_, hl', (hlast.past (hfirst.past (acceptedAs_past _ l rate))).1, ?_, ?_,
    (concluded_desk _ x).trans hdesk, fun j _ hj => ?_,
    sameOutside_trans (heard_sameOutside (by decide) (by decide) i s) (sameOutside_trans (sameOutside_accepted i _ rate _)
      (sameOutside_trans (sameOutside_of_calm hcalm (by decide)) (concluded_sameOutside (by decide) _ x)))⟩
  · exact exchange_of_calm hcalm rfl
  · rw [concluded_entry, hentry, heard_entry h7]
  · have hnoted := congrArg (fun l : Lease => { l with ackRate := some rate, runView := some RunView.running })
      (acceptedAs_root (s.heard i) l)
    exact hroot.trans hnoted
  · have horder : ((admitLease i h.slot rate (s.heard i)).concluded x).admission.order =
        s.admission.order ++ [s.leaseHandle h.slot] := congrArg Shelf.order hshelf
    rw [horder, leaseHandle_of_live hlive]
  · rw [concluded_entry, hentry, heard_entry_ne hj]

/-! ### DECLINE (R71, R133) -/

theorem entry_setCooldown (h7 : i ≤ 7) (s : State) :
    (setCooldown i s).entry i =
      { s.entry i with cooldown := if (s.entry i).cls.isBought then some 600 else (s.entry i).cooldown } := by
  unfold setCooldown
  split
  · exact entry_modEntry h7 _ s
  · rfl

theorem entry_setCooldown_ne {j : Nat} (hj : j ≠ i) (s : State) : (setCooldown i s).entry j = s.entry j := by
  unfold setCooldown
  split
  · exact entry_modEntry_ne hj _ s
  · rfl

theorem setCooldown_eq (i : Nat) (s : State) : setCooldown i s = s.modRoster fun _ => (setCooldown i s).roster := by
  unfold setCooldown
  split <;> rfl

theorem lease_setCooldown (i : Nat) (s : State) (n : Nat) : (setCooldown i s).leaseSlot n = s.leaseSlot n := by
  rw [setCooldown_eq]
  rfl

theorem takeDecline_offered (hlive : s.resolveLease h = .live) (hl : s.lease? h.slot = some l) (hi : l.holder = i)
    (hoffered : l.state = .offered) : takeDecline i h s = retire h.slot .declined (setCooldown i s) := by
  rw [takeDecline, ownSlot_of_live hlive hl hi]
  dsimp only
  rw [State.leaseState?, hl, Option.map_some, hoffered]
  rfl

theorem exchange_dismiss {out : LeaseOutcome} (hl : s.lease? n = some l) :
    (dismiss n out s).link.exchange = s.link.exchange := by
  rw [(dismiss_blocks out hl).2]
  rfl

theorem exchange_retire {out : LeaseOutcome} (hl : s.lease? n = some l) (hs : s.link.exchange = none) :
    (retire n out s).link.exchange = none := by
  rw [retire_eq out hl]
  exact exchange_of_calm (calm_resettle _ _) ((exchange_dismiss hl).trans hs)

theorem decline_retires {kind : LeaseKind} {rate : Nat} {c : Temp} {b : Option Nat} (hx : s.link.exchange = some x)
    (haddr : x.addr = a) (h31 : a ≠ 31) (hi : s.indexAt a = some i) (hcmd : x.cmd = .grant h kind rate c b)
    (hlive : s.resolveLease h = .live) (hl : s.lease? h.slot = some l) (hholder : l.holder = i)
    (hoffered : l.state = .offered) :
    ∃ t, exec (.decline a h) s = .next t ∧ t.link.exchange = none ∧
      t.leaseSlot h.slot = { issue := (h.issue + 1) % 16, lease := none } ∧ h ∉ t.admission.order ∧
      t.flagged .leaseRetired = true ∧
      t.entry i =
        { s.entry i with
          missed := 0, cooldown := if (s.entry i).cls.isBought then some 600 else (s.entry i).cooldown
          last := some { handle := h, kind := l.kind, outcome := .declined, delivered := l.delivered } } ∧
      (∀ j, j ≤ 7 → j ≠ i → t.entry j = s.entry j) ∧ t.map = s.map ∧ t.clock = s.clock ∧
      t.port.state = s.port.state := by
  obtain ⟨-, h7⟩ := index_of_indexAt hi
  obtain ⟨h1, h8, hissue⟩ := slot_of_live hlive
  have hslot : (setCooldown i (s.heard i)).leaseSlot h.slot = { issue := h.issue, lease := some l } :=
    (lease_setCooldown i (s.heard i) h.slot).trans (leaseSlot_of_live hlive hl)
  have hlc := congrArg LeaseSlot.lease hslot
  have hhandle : (setCooldown i (s.heard i)).leaseHandle h.slot = h := leaseHandle_eq hslot
  have htaken : takeAnswer a (.decline h) s = (retire h.slot .declined (setCooldown i (s.heard i))).concluded x := by
    rw [takeAnswer_good hx haddr h31 hi (by rw [hcmd]; exact allows_decline) rfl]
    exact congrArg (State.concluded · x) (takeDecline_offered (s := s.heard i) hlive hl hholder hoffered)
  have hretired := concluded_retired x (retired_retire (by omega) .declined hlc)
  have hkept : ((retire h.slot .declined (setCooldown i (s.heard i))).concluded x).kept = s.kept := by
    rw [concluded_kept, kept_retire, kept_setCooldown]
    rfl
  refine ⟨_, congrArg Host.Outcome.next htaken, concluded_exchange x (exchange_retire hlc ?_), ?_, ?_,
    hretired.flagged, ?_, fun j _ hj => ?_, map_of_kept hkept, congrArg Kept.clock hkept,
    congrArg Kept.portState hkept⟩
  · rw [setCooldown_eq]
    rfl
  · rw [hretired.slot, hslot]
  · rw [← hhandle]
    exact hretired.order
  · rw [hretired.entry, ← hholder, entry_recorded .declined (by omega), hholder, entry_setCooldown h7, heard_entry h7,
      hhandle]
  · rw [hretired.entry, entry_recorded_ne .declined (by omega), entry_setCooldown_ne hj, heard_entry_ne hj]

/-! ### ACK (R124, R139) -/

theorem takeAnswer_ack (hx : s.link.exchange = some x) (haddr : x.addr = a) (h31 : a ≠ 31) (hi : s.indexAt a = some i)
    {code : Byte} (hallows : x.cmd.allows (.ack code) = true) :
    takeAnswer a (.ack code) s = (takeAck i x.cmd (s.heard i)).concluded x :=
  takeAnswer_good hx haddr h31 hi hallows rfl

theorem modOwn_live (hlive : s.resolveLease h = .live) (hl : s.lease? h.slot = some l) (hi : l.holder = i)
    (f : Lease → Lease) : modOwn i h f s = s.modLease h.slot f := by
  rw [modOwn, ownSlot_of_live hlive hl hi]

/-- An ACK that records what the acknowledged command told the station of its lease. -/
theorem ack_notes {code : Byte} (f : Lease → Lease) (hx : s.link.exchange = some x) (haddr : x.addr = a) (h31 : a ≠ 31)
    (hi : s.indexAt a = some i) (hallows : x.cmd.allows (.ack code) = true)
    (htake : takeAck i x.cmd (s.heard i) = modOwn i h f (s.heard i)) (hlive : s.resolveLease h = .live)
    (hl : s.lease? h.slot = some l) (hholder : l.holder = i) :
    ∃ t l', exec (.ack a code) s = .next t ∧ t.link.exchange = none ∧
      t.leaseSlot h.slot = { issue := h.issue, lease := some l' } ∧ l'.root = (f l).root ∧
      t.entry i = { s.entry i with missed := 0 } ∧ t.admission.order = s.admission.order ∧
      s.sameOutside t [.admission, .roster, .link] := by
  obtain ⟨-, h7⟩ := index_of_indexAt hi
  have htaken : takeAnswer a (.ack code) s = ((s.heard i).modLease h.slot f).concluded x := by
    rw [takeAnswer_ack hx haddr h31 hi hallows, htake]
    exact congrArg (State.concluded · x) (modOwn_live (s := s.heard i) hlive hl hholder f)
  have hslot : ((s.heard i).modLease h.slot f).leaseSlot h.slot = { issue := h.issue, lease := some (f l) } := by
    have hheard : (s.heard i).leaseSlot h.slot = { issue := h.issue, lease := some l } := leaseSlot_of_live hlive hl
    rw [leaseSlot_modLease, State.lease?, hheard]
    rfl
  have hshelf := concluded_shelf ((s.heard i).modLease h.slot f) x
  obtain ⟨l', hl', hroot⟩ := leaseSlot_of_shelf hshelf hslot
  refine ⟨_, l', congrArg Host.Outcome.next htaken, concluded_exchange x rfl, hl', hroot, ?_,
    congrArg Shelf.order hshelf, ?_⟩
  · rw [concluded_entry]
    exact heard_entry h7 s
  · exact sameOutside_trans (heard_sameOutside (by decide) (by decide) i s)
      (sameOutside_trans (sameOutside_modLease (by decide) _ f _) (concluded_sameOutside (by decide) _ x))

/-- With nothing to suspend or resume and the window of the trial begun, the closing is a new moment. -/
theorem window_begins {y : Trial} {rate : Nat} (hx : s.link.exchange = some x) (haddr : x.addr = a) (h31 : a ≠ 31)
    (hi : s.indexAt a = some i) (hcmd : x.cmd = .qualify rate) (hrate : rate ≠ 0) (hy : s.roster.trial = some y)
    (hyi : y.entry = i) (hwindow : y.window = none) (hsuspend : s.toSuspend = []) (hresume : s.toResume = []) :
    ∃ t, exec (.ack a 0x18#8) s = .next t ∧ t.link.exchange = none ∧ t.admission = s.admission ∧
      t.roster.trial = some { y with window := some 300 } ∧ t.entry i = { s.entry i with missed := 0 } ∧
      s.sameOutside t [.roster, .link] := by
  obtain ⟨-, h7⟩ := index_of_indexAt hi
  have hbegun : (beginWindow i (s.heard i)).roster.trial = some { y with window := some 300 } := by
    have htrial : (s.heard i).roster.trial = some y := hy
    rw [beginWindow, modRoster_roster, htrial, Option.map_some, if_pos ⟨hyi, hwindow⟩]
    rfl
  have htaken : takeAnswer a (.ack 0x18#8) s = (beginWindow i (s.heard i)).concluded x := by
    rw [takeAnswer_ack hx haddr h31 hi (by rw [hcmd]; rfl), hcmd, takeAck, if_neg hrate]
  obtain ⟨k, hk, -, hexchange, -⟩ := afterEnumerated_eq x (beginWindow i (s.heard i))
  have hsettled : ((beginWindow i (s.heard i)).modLink fun _ => k).isSettled := by
    refine ⟨hsuspend, hresume, fun z hz hnone => ?_⟩
    obtain rfl := Option.some.inj (hbegun.symm.trans hz)
    cases hnone
  have hclosed : (beginWindow i (s.heard i)).concluded x = ((beginWindow i (s.heard i)).modLink fun _ => k).bump := by
    rw [State.concluded, hk, closing_of_settled hsettled]
  refine ⟨_, congrArg Host.Outcome.next (htaken.trans hclosed), hexchange, rfl, hbegun, heard_entry h7 s, ?_⟩
  have hwindowed : (s.heard i).sameOutside (beginWindow i (s.heard i)) [.roster, .link] :=
    sameOutside_modRoster (by decide) _ _
  have hended : (beginWindow i (s.heard i)).sameOutside ((beginWindow i (s.heard i)).modLink fun _ => k)
      [.roster, .link] := sameOutside_modLink (by decide) _ _
  exact sameOutside_trans (heard_sameOutside (by decide) (by decide) i s) (sameOutside_trans hwindowed hended)

/-- Settles O50: each answer to the command that allows it. -/
theorem acceptsDeclinesAndAcksAreTaken : Obligations.AcceptsDeclinesAndAcksAreTaken := by
  intro s a i h x hx haddr h31 hi
  refine ⟨fun l kind rate c b hcmd hlive hl hholder hoffered => ⟨?_, ?_⟩, fun l rate hlive hl hholder => ⟨?_, ?_, ?_⟩,
    fun y rate hcmd hrate hy hyi hwindow hsuspend hresume => ?_⟩
  · exact accept_admits hx haddr h31 hi hcmd hlive hl hholder hoffered
  · exact decline_retires hx haddr h31 hi hcmd hlive hl hholder hoffered
  · intro hcmd
    exact ack_notes (fun l => { l with ackRate := some rate }) hx haddr h31 hi (by rw [hcmd]; rfl)
      (by rw [hcmd]; rfl) hlive hl hholder
  · intro hcmd
    obtain ⟨t, l', ht, hexchange, hslot, hroot, -, -, houtside⟩ :=
      ack_notes (code := 0x13#8) (fun l => { l with runView := some .suspended }) hx haddr h31 hi (by rw [hcmd]; rfl)
        (by rw [hcmd]; rfl) hlive hl hholder
    exact ⟨t, l', ht, hexchange, hslot, hroot, houtside⟩
  · intro hcmd
    obtain ⟨t, l', ht, hexchange, hslot, hroot, -, -, houtside⟩ :=
      ack_notes (code := 0x14#8) (fun l => { l with ackRate := some rate, runView := some .running }) hx haddr h31 hi
        (by rw [hcmd]; rfl) (by rw [hcmd]; rfl) hlive hl hholder
    exact ⟨t, l', ht, hexchange, hslot, hroot, houtside⟩
  · exact window_begins hx haddr h31 hi hcmd hrate hy hyi hwindow hsuspend hresume

end Sys2Proof.Machine

/-! ### A slot under the overlap test

A slot that the test does not resume comes out of it with its lease suspended, where the test suspends it, and else with
its lease as it was, in both cases but for its rates. -/

namespace Sys2Proof.Machine
variable {s t b : State} {n m k : Nat} {l l' : Lease}

/-- A lease as its suspension leaves it (R107). -/
def Lease.suspended (l : Lease) (freeHeat : Nat) : Lease :=
  { l with
    state := .suspended
    saved := some
      { state := l.state, rate := l.granted, timer := l.timer, hold := l.hold, freeMark := freeHeat
        deliveredMark := l.delivered }
    granted := 0, hold := none, limitMark := false, stepTimer := none, waiting := false }

theorem leaseSlot_beginSuspension (s : State) (n : Nat) :
    (beginSuspension s n).leaseSlot n =
      { s.leaseSlot n with lease := (s.lease? n).map (·.suspended s.admission.freeHeat) } := by
  unfold beginSuspension
  split
  · next hnone =>
    rw [hnone]
    exact congrArg (LeaseSlot.mk _) hnone
  · next l hl =>
    rw [leaseSlot_of_admission (admission_place _ _ _), leaseSlot_modLease, hl]
    rfl

theorem leaseSlot_beginSuspension_ne (hmn : m - 1 ≠ n - 1) (s : State) :
    (beginSuspension s m).leaseSlot n = s.leaseSlot n := by
  unfold beginSuspension
  split
  · rfl
  · rw [leaseSlot_of_admission (admission_place _ _ _), leaseSlot_modLease_ne hmn]

theorem leaseSlot_suspensions {slots : List Nat} (hnodup : slots.Nodup) (hpos : ∀ m ∈ slots, 1 ≤ m) (h1 : 1 ≤ n) :
    (slots.foldl beginSuspension s).leaseSlot n = (if n ∈ slots then beginSuspension s n else s).leaseSlot n := by
  induction slots generalizing s with
  | nil => rfl
  | cons m slots ih =>
    obtain ⟨hnot, hnodup⟩ := List.nodup_cons.mp hnodup
    have hm := hpos m List.mem_cons_self
    rw [List.foldl_cons, ih hnodup fun k hk => hpos k (List.mem_cons_of_mem m hk)]
    by_cases hmn : m = n
    · subst hmn
      rw [if_neg hnot, if_pos List.mem_cons_self]
    · have hother := leaseSlot_beginSuspension_ne (n := n) (m := m) (by omega) s
      have hfree : (beginSuspension s m).admission.freeHeat = s.admission.freeHeat :=
        freeHeat_of_calm (calm_beginSuspension s m)
      by_cases hn : n ∈ slots
      · rw [if_pos hn, if_pos (List.mem_cons_of_mem m hn), leaseSlot_beginSuspension, leaseSlot_beginSuspension,
          State.lease?, State.lease?, hother, hfree]
      · rw [if_neg hn, if_neg fun h => (List.mem_cons.mp h).elim (fun e => hmn e.symm) hn, hother]

theorem core_of_leaseSlot (h : t.leaseSlot n = s.leaseSlot n) : t.core n = s.core n := by
  rw [State.core, State.core, State.lease?, State.lease?, h]

theorem pos_of_toSuspend (hm : m ∈ s.toSuspend) : 1 ≤ m := (mem_upTo8.mp (List.mem_filter.mp hm).1).1

theorem pos_of_toResume (hm : m ∈ s.toResume) : 1 ≤ m := (mem_upTo8.mp (List.mem_filter.mp hm).1).1

theorem nodup_toSuspend (s : State) : s.toSuspend.Nodup := (by decide : upTo8.Nodup).filter _

theorem nodup_toResume (s : State) : s.toResume.Nodup := (by decide : upTo8.Nodup).filter _

theorem core_actOnOverlap_unresumed (h1 : 1 ≤ n) (b : State) (hn : n ∉ s.toResume) :
    (actOnOverlap b s).core n = (if n ∈ s.toSuspend then beginSuspension s n else s).core n := by
  have hback : ∀ m ∈ s.toResume, m - 1 ≠ n - 1 := fun m hm hmn => hn <| by
    have := pos_of_toResume hm
    obtain rfl : m = n := by omega
    exact hm
  simp only [actOnOverlap]
  rw [foldl_core n _ _ (fun m => m - 1 ≠ n - 1) (fun t m hm => core_testFinishing_ne hm t) hback,
    foldl_core_all n _ (core_announceResume n), core_settle,
    foldl_core n _ _ (fun m => m - 1 ≠ n - 1) (fun t m hm => core_beginResumption_ne hm t) hback]
  exact core_of_leaseSlot (leaseSlot_suspensions (nodup_toSuspend s) (fun m hm => pos_of_toSuspend hm) h1)

theorem core_testOverlap_unresumed (h1 : 1 ≤ n) (hn : n ∉ s.toResume) :
    (testOverlap s).core n = (if n ∈ s.toSuspend then beginSuspension s n else s).core n := by
  unfold testOverlap
  split
  · next hcalm =>
    have hnone : s.toSuspend = [] := List.isEmpty_iff.mp (Bool.and_eq_true_iff.mp hcalm).1
    rw [hnone, if_neg List.not_mem_nil]
  · exact core_actOnOverlap_unresumed h1 s hn

theorem core_closing_unresumed (h1 : 1 ≤ n) (hn : n ∉ s.toResume) :
    (closing s).core n = (if n ∈ s.toSuspend then beginSuspension s n else s).core n := by
  simp only [closing, core_bump, core_callOffEvicted]
  exact core_testOverlap_unresumed h1 hn

theorem not_toResume (hl : s.lease? n = some l) (hstate : l.state ≠ .suspended) : n ∉ s.toResume :=
  fun hn => hstate (suspended_of_toResume hn l hl)

end Sys2Proof.Machine

/-! ### The limit mark (R100) -/

namespace Sys2Proof.Machine
variable {s t u b : State} {n m i k : Nat} {l l' : Lease} {mark : Bool} {timer : Option Nat}

/-- The limit mark and the step timer of a lease: these two while it is ADMITTED or THROTTLED, and else none. -/
def Lease.limitedBy (l : Lease) (mark : Bool) (timer : Option Nat) : Prop :=
  if l.state.isRunning then l.limitMark = mark ∧ l.stepTimer = timer else l.limitMark = false ∧ l.stepTimer = none

theorem limitedBy_of_cleared (hstate : l.state.isRunning = false) (hmark : l.limitMark = false)
    (htimer : l.stepTimer = none) : l.limitedBy mark timer := by
  rw [Lease.limitedBy, hstate, if_neg Bool.false_ne_true]
  exact ⟨hmark, htimer⟩

theorem running_of_core (h : l'.core = l.core) : l'.state.isRunning = l.state.isRunning := by
  have hstates : ∀ a b : LeaseState,
      (if a.isRunning then LeaseState.admitted else a) = (if b.isRunning then .admitted else b) →
      a.isRunning = b.isRunning := by
    intro a b
    cases a <;> cases b <;> decide
  exact hstates _ _ (congrArg Lease.state h)

theorem limitedBy_of_core (h : l'.core = l.core) (hl : l.limitedBy mark timer) : l'.limitedBy mark timer := by
  have hmark : l'.limitMark = l.limitMark := (congrArg Lease.limitMark h :)
  have htimer : l'.stepTimer = l.stepTimer := (congrArg Lease.stepTimer h :)
  rw [Lease.limitedBy, running_of_core h, hmark, htimer]
  exact hl

/-- The lease of slot `n` is not SUSPENDED, and its mark and timer are as `limitedBy` says. -/
def State.tracks (s : State) (n : Nat) (mark : Bool) (timer : Option Nat) : Prop :=
  ∀ l, s.lease? n = some l → l.state ≠ .suspended ∧ l.limitedBy mark timer

theorem tracks_of_core (h : t.core n = s.core n) (hs : s.tracks n mark timer) : t.tracks n mark timer := by
  intro l' hl'
  obtain ⟨l, hl, hcore⟩ := lease_of_core h.symm hl'
  obtain ⟨hstate, hlimited⟩ := hs l hl
  exact ⟨fun e => hstate ((same_of_core hcore).2.2.2.1.mpr e), limitedBy_of_core hcore.symm hlimited⟩

theorem tracks_of_lease (hl : s.lease? n = some l) (hstate : l.state ≠ .suspended) (hlimited : l.limitedBy mark timer) :
    s.tracks n mark timer := by
  intro l' hl'
  obtain rfl := Option.some.inj (hl.symm.trans hl')
  exact ⟨hstate, hlimited⟩

theorem tracks_endZeroHold (hs : s.tracks n mark timer) : (endZeroHold n s).tracks n mark timer := by
  unfold endZeroHold
  split
  · exact hs
  · next l hl =>
    split
    · refine tracks_of_core (core_settling n _ s) (tracks_of_lease (l := l.revoked .completed) ?_ nofun ?_)
      · rw [State.lease?, leaseSlot_beginRevoking, hl]
        rfl
      · exact limitedBy_of_cleared rfl rfl rfl
    · exact hs

/-- A lease that is not FINISHING loses mark and timer as it enters FINISHING. -/
theorem tracks_testFinishing (hfin : ∀ l, s.lease? n = some l → l.state ≠ .finishing) (hs : s.tracks n mark timer) :
    (testFinishing n s).tracks n mark timer := by
  unfold testFinishing
  split
  · exact hs
  · next l hl =>
    split
    · refine tracks_endZeroHold (tracks_of_core (core_settling n _ s) ?_)
      have hbegun : (beginFinishing n s).lease? n =
          some { l with state := .finishing, hold := s.startHold l, limitMark := false, stepTimer := none } := by
        rw [beginFinishing, lease_modLease, hl]
        rfl
      exact tracks_of_lease hbegun nofun (limitedBy_of_cleared rfl rfl rfl)
    · split
      · next hrecharges => exact absurd (beq_iff_eq.mp (Bool.and_eq_true_iff.mp hrecharges).1) (hfin l hl)
      · exact hs

theorem tracks_testFinishingUnlessSanitise (hfin : ∀ l, s.lease? n = some l → l.state ≠ .finishing)
    (hs : s.tracks n mark timer) : (testFinishingUnlessSanitise n s).tracks n mark timer := by
  unfold testFinishingUnlessSanitise
  split
  · exact hs
  · exact tracks_testFinishing hfin hs

/-- A lease whose mark is tracked has it, at the end of the step, where it still runs. -/
theorem limitedBy_closing (h1 : 1 ≤ n) (hs : s.tracks n mark timer) (hl' : (closing s).lease? n = some l') :
    l'.limitedBy mark timer := by
  obtain ⟨l, hl, -⟩ := lease_of_works (works_closing s) hl'
  obtain ⟨hstate, hlimited⟩ := hs l hl
  have hcore := core_closing_unresumed h1 (not_toResume hl hstate)
  by_cases hn : n ∈ s.toSuspend
  · rw [if_pos hn] at hcore
    obtain ⟨l1, hl1, hcore1⟩ := lease_of_core hcore.symm hl'
    rw [State.lease?, leaseSlot_beginSuspension, hl] at hl1
    obtain rfl := Option.some.inj hl1
    exact limitedBy_of_core hcore1.symm (limitedBy_of_cleared rfl rfl rfl)
  · rw [if_neg hn] at hcore
    obtain ⟨l1, hl1, hcore1⟩ := lease_of_core hcore.symm hl'
    obtain rfl := Option.some.inj (hl.symm.trans hl1)
    exact limitedBy_of_core hcore1.symm hlimited

end Sys2Proof.Machine

/-! ### A STATUS recorded, and its REPORT credited (R73, R100, R123, R139) -/

namespace Sys2Proof.Machine
variable {s t u : State} {n m i j a e : Nat} {l l' : Lease} {x : Exchange} {flags : Byte} {b : Bool}
  {believed : Option Handle}

theorem held_of_slotHeldBy (h : s.slotHeldBy i = some n) :
    1 ≤ n ∧ n ≤ 8 ∧ ∃ l, s.lease? n = some l ∧ l.holder = i := by
  obtain ⟨h1, h8⟩ := mem_upTo8.mp (List.mem_of_find?_eq_some h)
  have hany := List.find?_some h
  obtain ⟨l, hl, hi⟩ := (Option.any_eq_true _ _).mp hany
  exact ⟨h1, h8, l, hl, beq_iff_eq.mp hi⟩

theorem holder_of_slotHeldBy (h : s.slotHeldBy i = some n) (hl : s.lease? n = some l) : l.holder = i := by
  obtain ⟨-, -, l1, hl1, hi⟩ := held_of_slotHeldBy h
  obtain rfl := Option.some.inj (hl.symm.trans hl1)
  exact hi

/-- What a station was last heard to say is part of the shelf. -/
theorem said_of_shelf (h : t.shelf = s.shelf) (i : Nat) :
    (t.station i).status = (s.station i).status ∧ (t.station i).supply = (s.station i).supply := by
  have hmarks : t.link.stations.map (fun x => (x.status, x.supply)) =
      s.link.stations.map fun x => (x.status, x.supply) := congrArg Shelf.marks h
  have hi := congrArg (tget · i ((Station.initial.status, Station.initial.supply))) hmarks
  simp only [tget_map (fun x : Station => (x.status, x.supply))] at hi
  exact ⟨congrArg Prod.fst hi, congrArg Prod.snd hi⟩

/-! ### The flags recorded -/

/-- The record of a STATUS's flags (R139). -/
def State.statusNow (s : State) (flags : Byte) : StatusRecord :=
  { flags := flags, day := s.clock.day, minute := s.clock.minute, second := s.clock.second }

theorem station_recordFlags (h7 : i ≤ 7) (flags : Byte) (s : State) :
    (recordFlags i flags s).station i = { s.station i with status := some (s.statusNow flags) } :=
  tget_tset_self s.link.stations i _ .initial (by omega)

theorem recordFlags_eq (i : Nat) (flags : Byte) (s : State) :
    recordFlags i flags s = s.modLink fun _ => (recordFlags i flags s).link := rfl

/-! ### An entry that leaves IDENTIFYING -/

/-- An entry as it leaves IDENTIFYING (R123). -/
def Entry.identified (e : Entry) : Entry :=
  if e.cls.isBought then { e with state := .qualifying, failures := 0 } else { e with state := .ready }

/-- The part in which an entry has left IDENTIFYING, before a trial is tried. -/
def State.leaving (s : State) (i : Nat) : State :=
  if (s.entry i).state = .identifying then s.modEntry i Entry.identified else s

theorem works_leaveIdentifying (i : Nat) (s : State) : Works (s.leaving i) (leaveIdentifying i s) := by
  unfold leaveIdentifying State.leaving
  split
  · split
    · next hbought =>
      have hsame : s.modEntry i Entry.identified = s.modEntry i fun e => { e with state := .qualifying, failures := 0 } := by
        rw [State.modEntry, State.modEntry, Entry.identified, if_pos hbought]
      rw [hsame]
      exact works_tryTrial _
    · next hfree =>
      have hsame : s.modEntry i Entry.identified = s.modEntry i fun e => { e with state := .ready } := by
        rw [State.modEntry, State.modEntry, Entry.identified, if_neg hfree]
      rw [hsame]
  · exact .refl

theorem leaving_eq (s : State) (i : Nat) : s.leaving i = s.modRoster fun _ => (s.leaving i).roster := by
  unfold State.leaving
  split <;> rfl

theorem entry_leaving (h7 : i ≤ 7) (s : State) :
    (s.leaving i).entry i = if (s.entry i).state = .identifying then (s.entry i).identified else s.entry i := by
  unfold State.leaving
  split
  · exact entry_modEntry h7 _ s
  · rfl

theorem entry_leaving_ne (hj : j ≠ i) (s : State) : (s.leaving i).entry j = s.entry j := by
  unfold State.leaving
  split
  · exact entry_modEntry_ne hj _ s
  · rfl

theorem identified_counts (e : Entry) :
    e.identified.lifetime = e.lifetime ∧ e.identified.missed = e.missed ∧ e.identified.learned = e.learned := by
  unfold Entry.identified
  split <;> exact ⟨rfl, rfl, rfl⟩

/-- What an entry counts is not changed as it leaves IDENTIFYING. -/
theorem leaving_counts (h7 : i ≤ 7) (s : State) :
    ((s.leaving i).entry i).lifetime = (s.entry i).lifetime ∧ ((s.leaving i).entry i).missed = (s.entry i).missed ∧
      ((s.leaving i).entry i).learned = (s.entry i).learned := by
  rw [entry_leaving h7]
  split
  · exact identified_counts _
  · exact ⟨rfl, rfl, rfl⟩

theorem sameOutside_leaving (s : State) (i : Nat) : s.sameOutside (s.leaving i) [.admission, .roster, .link] := by
  rw [leaving_eq]
  exact sameOutside_modRoster (by decide) _ s

/-- What the end of a STATUS's taking leaves: the entry out of IDENTIFYING and the step closed. -/
structure State.StatusEnds (u : State) (i : Nat) (t : State) : Prop where
  shelf : t.shelf = u.shelf
  entry : t.entry = (u.leaving i).entry
  desk : t.admission.desk = u.admission.desk
  roll : t.link.roll = u.link.roll
  stale : t.link.staleItems = u.link.staleItems
  exchange : u.link.exchange = none → t.link.exchange = none
  outside : u.sameOutside t [.admission, .roster, .link]

theorem statusEnds (u : State) (i : Nat) (x : Exchange) : u.StatusEnds i ((leaveIdentifying i u).concluded x) := by
  have hworks := works_leaveIdentifying i u
  have hcalm := calm_of_works hworks
  obtain ⟨hroll, hstale⟩ := link_of_works hworks
  have heq := leaving_eq u i
  refine ⟨?_, ?_, ?_, ?_, ?_, fun hnone => concluded_exchange x (exchange_of_calm hcalm ?_),
    sameOutside_trans (sameOutside_leaving u i)
      (sameOutside_trans (sameOutside_of_calm hcalm (by decide)) (concluded_sameOutside (by decide) _ x))⟩
  · rw [concluded_shelf, shelf_of_works hworks, heq]
    rfl
  · rw [concluded_entry, entry_of_calm hcalm]
  · rw [concluded_desk, (calm_eq_iff.mp hcalm).2.2.2.2.2.2.2.2.2.1, heq]
    rfl
  · rw [(concluded_link _ x).1, hroll, heq]
    rfl
  · rw [(concluded_link _ x).2, hstale, heq]
    rfl
  · rw [heq]
    exact hnone

/-! ### A STATUS of an entry that holds no lease -/

/-- The part with a STATUS's flags recorded, its entry heard. -/
def State.reported (s : State) (i : Nat) (flags : Byte) : State := recordFlags i flags (s.heard i)

/-- A STATUS that answers a POLL, its handle the entry's own. -/
theorem takeAnswer_status {item : Option Item} (hx : s.link.exchange = some x)
    (haddr : x.addr = a) (h31 : a ≠ 31) (hcmd : x.cmd = .poll) (hi : s.indexAt a = some i)
    (hfault : flags.getLsbD 3 = false) :
    takeAnswer a (.status flags believed item) s = (takeStatus i flags believed item (s.heard i)).concluded x :=
  takeAnswer_good hx haddr h31 hi (by rw [hcmd]; rfl) hfault

theorem state_heard (h7 : i ≤ 7) (s : State) : ((s.heard i).entry i).state = (s.entry i).state := by
  rw [heard_entry h7]

/-- The handle of a STATUS is the entry's own lease's, or none where it holds none (R140). -/
theorem checkHandle_own (h : s.handleHeldBy i = believed) : checkHandle i believed s = s := by
  subst h
  unfold checkHandle State.handleHeldBy
  cases s.slotHeldBy i with
  | none => rfl
  | some n => exact if_pos rfl

theorem takeStatus_bare (h7 : i ≤ 7) (hlost : (s.entry i).state ≠ .lost) (hnone : s.slotHeldBy i = none) :
    takeStatus i flags none none (s.heard i) = leaveIdentifying i (s.reported i flags) := by
  have hown : (s.heard i).handleHeldBy i = none := congrArg (Option.map _) hnone
  rw [takeStatus, state_heard h7, if_neg hlost]
  dsimp only
  rw [checkHandle_own hown]
  rfl

theorem sameOutside_reported (s : State) (i : Nat) (flags : Byte) :
    s.sameOutside (s.reported i flags) [.admission, .roster, .link] := by
  refine sameOutside_trans (heard_sameOutside (by decide) (by decide) i s) ?_
  rw [State.reported, recordFlags_eq]
  exact sameOutside_modLink (by decide) _ _

theorem status_recorded (hx : s.link.exchange = some x) (haddr : x.addr = a) (h31 : a ≠ 31) (hcmd : x.cmd = .poll)
    (hi : s.indexAt a = some i) (hlost : (s.entry i).state ≠ .lost) (hfault : flags.getLsbD 3 = false)
    (hnone : s.slotHeldBy i = none) :
    ∃ t, exec (.status a flags none none) s = .next t ∧ t.link.exchange = none ∧
      (t.station i).status = some (s.statusNow flags) ∧ (t.station i).supply = (s.station i).supply ∧
      t.link.roll = s.link.roll.map (fun r => { r with heard := r.heard || flags.getLsbD 0 }) ∧
      ((s.entry i).state ≠ .identifying → t.entry i = { s.entry i with missed := 0 }) ∧
      ((s.entry i).state = .identifying → (s.entry i).cls.isBought = true →
        t.entry i = { s.entry i with missed := 0, state := .qualifying, failures := 0 }) ∧
      ((s.entry i).state = .identifying → (s.entry i).cls.isBought = false →
        t.entry i = { s.entry i with missed := 0, state := .ready }) ∧
      (∀ j, j ≤ 7 → j ≠ i → t.entry j = s.entry j) ∧ s.sameOutside t [.admission, .roster, .link] ∧
      s.sameRoots t := by
  obtain ⟨-, h7⟩ := index_of_indexAt hi
  have hends := statusEnds (s.reported i flags) i x
  have hentry : (s.reported i flags).entry = (s.heard i).entry := rfl
  obtain ⟨hstatus, hsupply⟩ := said_of_shelf hends.shelf i
  have hsaid : (s.reported i flags).station i = { s.station i with status := some (s.statusNow flags) } :=
    station_recordFlags h7 flags (s.heard i)
  refine ⟨_, congrArg Host.Outcome.next ((takeAnswer_status hx haddr h31 hcmd hi hfault).trans
    (congrArg (State.concluded · x) (takeStatus_bare h7 hlost hnone))), hends.exchange rfl, ?_, ?_, hends.roll,
    fun hstate => ?_, fun hstate hbought => ?_, fun hstate hfree => ?_, fun j _ hj => ?_,
    sameOutside_trans (sameOutside_reported s i flags) hends.outside, ?_⟩
  · rw [hstatus, hsaid]
  · rw [hsupply, hsaid]
  · rw [hends.entry, entry_leaving h7, hentry, heard_entry h7, if_neg hstate]
  · rw [hends.entry, entry_leaving h7, hentry, heard_entry h7, if_pos hstate, Entry.identified, if_pos hbought]
  · rw [hends.entry, entry_leaving h7, hentry, heard_entry h7, if_pos hstate, Entry.identified,
      if_neg (by rw [hfree]; decide)]
  · rw [hends.entry, entry_leaving_ne hj, hentry, heard_entry_ne hj]
  · exact sameRoots_of_shelf (s := s.reported i flags) hends.shelf

/-! ### The credit (R73, R102, R134) -/

/-- A lease with delivered energy credited. -/
def Lease.credited (l : Lease) (e : Nat) : Lease := { l with delivered := satAdd32 l.delivered e }

/-- The free-heat counter after a credit. -/
def State.freeHeatAfter (s : State) (l : Lease) (e : Nat) : Nat :=
  if !l.kind.isBought && decide (s.map.reserveLine ≤ s.entryInlet l.holder) then wrapAdd32 s.admission.freeHeat e
  else s.admission.freeHeat

/-- A credit: the lease, its holder's entry and the free-heat counter. -/
theorem credit_eq (hl : s.lease? n = some l) (e : Nat) :
    credit n e s =
      ((s.modLease n (·.credited e)).modEntry l.holder fun r => { r with lifetime := wrapAdd32 r.lifetime e }).modAdmission
        fun a => { a with freeHeat := s.freeHeatAfter l e } := by
  unfold credit
  rw [hl]
  dsimp only
  unfold State.freeHeatAfter
  split <;> rfl

theorem leaseSlot_credit (hl : s.lease? n = some l) (e : Nat) :
    (credit n e s).leaseSlot n = { s.leaseSlot n with lease := some (l.credited e) } := by
  have hsame : (credit n e s).leaseSlot n = (s.modLease n (·.credited e)).leaseSlot n := by
    rw [credit_eq hl]
    rfl
  rw [hsame, leaseSlot_modLease, hl]
  rfl

theorem entry_credit (hl : s.lease? n = some l) (e : Nat) :
    (credit n e s).entry = (s.modEntry l.holder fun r => { r with lifetime := wrapAdd32 r.lifetime e }).entry := by
  rw [credit_eq hl]
  rfl

theorem link_credit (hl : s.lease? n = some l) (e : Nat) : (credit n e s).link = s.link := by
  rw [credit_eq hl]
  rfl

theorem freeHeat_credit (hl : s.lease? n = some l) (e : Nat) :
    (credit n e s).admission.freeHeat = s.freeHeatAfter l e := by
  rw [credit_eq hl]
  rfl

theorem sameOutside_credit (hl : s.lease? n = some l) (e : Nat) :
    s.sameOutside (credit n e s) [.admission, .roster, .link] := by
  rw [credit_eq hl]
  refine ⟨fun b hb => ?_, rfl⟩
  cases b with
  | admission | roster | link => simp at hb
  | _ => rfl

/-! ### A SUSPENDED lease told again (R108), and the limit mark (R100) -/

theorem works_suspendAgain (i n : Nat) (s : State) : Works s (suspendAgain i n s) := by
  unfold suspendAgain
  split
  · exact .refl
  · next l hl =>
    split
    · exact .refl
    · next ctx hctx =>
      split
      · refine .tail (works_lease n _ s ?_) (.command i rfl)
        refine fun l' hl' => ⟨rfl, fun h => h, fun h => ⟨h.1, ?_⟩⟩
        obtain rfl := Option.some.inj (hl.symm.trans hl')
        rintro hsuspended ctx' ⟨⟩
        exact h.2 hsuspended ctx hctx
      · exact .refl

/-- The limited bit of a REPORT bears on this lease (R100). -/
def Lease.isLimitable (l : Lease) : Prop := l.kind.isBought = true ∧ l.state.isRunning = true

/-- A limited REPORT that takes a learned-cap step (R100). -/
def Lease.steps (l : Lease) (limited : Bool) : Prop := l.isLimitable ∧ l.limitMark = false ∧ limited = true

theorem noteLimited_other (hl : s.lease? n = some l) (hnot : ¬l.isLimitable) : noteLimited n b s = s := by
  rw [noteLimited, hl]
  exact if_neg fun h => hnot (Bool.and_eq_true_iff.mp h)

section limitable

variable (hl : s.lease? n = some l) (hlim : l.isLimitable)

include hl hlim

theorem noteLimited_limitable :
    noteLimited n b s =
      if b then
        if l.limitMark then s
        else takeLearnedStep l.holder (s.modLease n fun l => { l with limitMark := true, stepTimer := some 60 })
      else s.modLease n fun l => { l with limitMark := false, stepTimer := none } := by
  rw [noteLimited, hl]
  exact if_pos (Bool.and_eq_true_iff.mpr hlim)

theorem noteLimited_steps (hsteps : l.steps b) :
    noteLimited n b s =
      takeLearnedStep l.holder (s.modLease n fun l => { l with limitMark := true, stepTimer := some 60 }) := by
  rw [noteLimited_limitable hl hlim, hsteps.2.2, if_pos rfl, hsteps.2.1, if_neg Bool.false_ne_true]

end limitable

/-- A learned-cap step of an entry (R100). -/
def Entry.stepped (e : Entry) : Entry := { e with learned := e.learned.map (stepDown e.declared) }

theorem works_takeLearnedStep (i : Nat) (s : State) : Works (s.modEntry i Entry.stepped) (takeLearnedStep i s) :=
  works_settle s _

theorem works_mark (n : Nat) (mark : Bool) (timer : Option Nat) (s : State) :
    Works s (s.modLease n fun l => { l with limitMark := mark, stepTimer := timer }) :=
  works_lease n _ s fun _ _ => moves_of_state rfl rfl rfl fun _ h => h

/-- A REPORT that takes no step changes no more than its lease's mark and timer. -/
theorem works_noteLimited (hl : s.lease? n = some l) (hsteps : ¬l.steps b) : Works s (noteLimited n b s) := by
  by_cases hlim : l.isLimitable
  · rw [noteLimited_limitable hl hlim]
    split
    · next hb =>
      split
      · exact .refl
      · next hmark => exact absurd ⟨hlim, Bool.eq_false_iff.mpr hmark, hb⟩ hsteps
    · exact works_mark n false none s
  · rw [noteLimited_other hl hlim]

/-- The mark and the timer that a REPORT leaves (R100). -/
theorem tracks_noteLimited (hl : s.lease? n = some l) (hlim : l.isLimitable) :
    (l.steps b → (noteLimited n b s).tracks n b (some 60)) ∧
      (¬l.steps b → (noteLimited n b s).tracks n b (if b then l.stepTimer else none)) := by
  obtain ⟨-, hrun⟩ := id hlim
  have hsuspended : l.state ≠ .suspended := fun e => by
    rw [e] at hrun
    cases hrun
  have hmarked (mark : Bool) (timer : Option Nat) :
      (s.modLease n fun l => { l with limitMark := mark, stepTimer := timer }).tracks n mark timer := by
    refine tracks_of_lease (l := { l with limitMark := mark, stepTimer := timer }) ?_ hsuspended ?_
    · rw [lease_modLease, hl]
      rfl
    · rw [Lease.limitedBy, if_pos hrun]
      exact ⟨rfl, rfl⟩
  constructor
  · intro hsteps
    rw [noteLimited_steps hl hlim hsteps, hsteps.2.2]
    refine tracks_of_core ?_ (hmarked true (some 60))
    rw [takeLearnedStep, core_settling]
    rfl
  · intro hsteps
    rw [noteLimited_limitable hl hlim]
    cases b with
    | false => exact hmarked false none
    | true =>
      have hmark : l.limitMark = true := by
        by_contra hno
        exact hsteps ⟨hlim, Bool.eq_false_iff.mpr hno, rfl⟩
      rw [if_pos rfl, if_pos hmark]
      refine tracks_of_lease hl hsuspended ?_
      rw [Lease.limitedBy, if_pos hrun]
      exact ⟨hmark, rfl⟩

/-! ### The REPORT taken -/

/-- The part with a REPORT's supply kept and its energy credited. -/
def State.reportCredited (s : State) (i n e : Nat) (supply : Temp) (flags : Byte) : State :=
  suspendAgain i n (credit n e (keepSupply i supply (s.reported i flags)))

theorem takeStatus_report {supply : Temp} {limited : Bool} (h7 : i ≤ 7) (hlost : (s.entry i).state ≠ .lost)
    (hn : s.slotHeldBy i = some n) (htrial : ∀ y, s.roster.trial = some y → y.entry ≠ i) :
    takeStatus i flags (some (s.leaseHandle n)) (some (.report e supply limited)) (s.heard i) =
      leaveIdentifying i (testFinishingUnlessSanitise n (noteLimited n limited (s.reportCredited i n e supply flags))) := by
  have hown : (s.heard i).handleHeldBy i = some (s.leaseHandle n) := congrArg (Option.map _) hn
  have hheld' : (keepSupply i supply (s.reported i flags)).slotHeldBy i = some n := hn
  have hnone : (keepSupply i supply (s.reported i flags)).roster.trial.filter (fun t => t.entry == i) = none := by
    have hsame : (keepSupply i supply (s.reported i flags)).roster.trial = s.roster.trial := rfl
    rw [hsame, Option.filter_eq_none_iff]
    intro y hy h
    exact htrial y hy (beq_iff_eq.mp h)
  rw [takeStatus, state_heard h7, if_neg hlost]
  dsimp only
  rw [checkHandle_own hown, ← State.reported, routeItem, takeReport]
  rw [hnone, hheld']
  rfl

/-- A REPORT noted and its lease tested for finishing: no more than the work on leases, but for the step of a learned
cap. -/
theorem works_report (hl : s.lease? n = some l) :
    (l.steps b → Works (s.modEntry l.holder Entry.stepped) (testFinishingUnlessSanitise n (noteLimited n b s))) ∧
      (¬l.steps b → Works s (testFinishingUnlessSanitise n (noteLimited n b s))) := by
  constructor
  · intro hsteps
    refine Relation.ReflTransGen.trans ?_ (works_testFinishingUnlessSanitise n _)
    rw [noteLimited_steps hl hsteps.1 hsteps]
    refine Relation.ReflTransGen.trans ?_ (works_takeLearnedStep l.holder _)
    exact works_mark n true (some 60) (s.modEntry l.holder Entry.stepped)
  · intro hsteps
    exact (works_noteLimited hl hsteps).trans (works_testFinishingUnlessSanitise n _)

/-- The lease told again keeps all but its saved context. -/
theorem lease_suspendAgain (hl : s.lease? n = some l) (i : Nat) :
    ∃ saved, (suspendAgain i n s).lease? n = some { l with saved := saved } := by
  unfold suspendAgain
  rw [hl]
  dsimp only
  split
  · exact ⟨l.saved, hl⟩
  · next ctx _ =>
    split
    · refine ⟨some { ctx with deliveredMark := l.delivered }, ?_⟩
      rw [lease?_place, lease_modLease, hl]
      rfl
    · exact ⟨l.saved, hl⟩

theorem core_takeLearnedStep (i n : Nat) (s : State) : (takeLearnedStep i s).core n = s.core n := by
  rw [takeLearnedStep, core_settling]
  rfl

theorem running_marked (hl : s.lease? n = some l) (mark : Bool) (timer : Option Nat) :
    ∃ l1, (s.modLease n fun l => { l with limitMark := mark, stepTimer := timer }).lease? n = some l1 ∧
      l1.state = l.state :=
  ⟨{ l with limitMark := mark, stepTimer := timer }, by rw [lease_modLease, hl, Option.map_some], rfl⟩

theorem running_noteLimited (hl : s.lease? n = some l) (hl' : (noteLimited n b s).lease? n = some l') :
    l'.state.isRunning = l.state.isRunning := by
  by_cases hlim : l.isLimitable
  · rw [noteLimited_limitable hl hlim] at hl'
    split at hl'
    · split at hl'
      · rw [hl] at hl'
        cases hl'
        rfl
      · obtain ⟨l1, hl1, hstate⟩ := running_marked hl true (some 60)
        obtain ⟨l2, hl2, hcore⟩ := lease_of_core (core_takeLearnedStep _ n _) hl1
        obtain rfl := Option.some.inj (hl2.symm.trans hl')
        exact (running_of_core hcore).trans (congrArg LeaseState.isRunning hstate)
    · obtain ⟨l1, hl1, hstate⟩ := running_marked hl false none
      obtain rfl := Option.some.inj (hl1.symm.trans hl')
      exact congrArg LeaseState.isRunning hstate
  · rw [noteLimited_other hl hlim, hl] at hl'
    cases hl'
    rfl

theorem core_leaveIdentifying (i n : Nat) (s : State) : (leaveIdentifying i s).core n = s.core n := by
  unfold leaveIdentifying
  repeat' split
  all_goals simp

/-- What a REPORT has left of its lease's mark and timer at the end of the step. -/
theorem limitedBy_reported (h1 : 1 ≤ n) (hl : s.lease? n = some l) (hlim : l.isLimitable)
    (hl' : ((leaveIdentifying i (testFinishingUnlessSanitise n (noteLimited n b s))).concluded x).lease? n = some l') :
    (l.steps b → l'.limitedBy b (some 60)) ∧ (¬l.steps b → l'.limitedBy b (if b then l.stepTimer else none)) := by
  have hfin : ∀ l1, (noteLimited n b s).lease? n = some l1 → l1.state ≠ .finishing := fun l1 hl1 e => by
    have hrun := (running_noteLimited hl hl1).trans hlim.2
    rw [e] at hrun
    cases hrun
  have hended {timer : Option Nat} (htracks : (noteLimited n b s).tracks n b timer) : l'.limitedBy b timer := by
    refine limitedBy_closing h1 (tracks_of_core ?_ (tracks_testFinishingUnlessSanitise hfin htracks)) hl'
    obtain ⟨k, hk, -⟩ := afterEnumerated_eq x (leaveIdentifying i (testFinishingUnlessSanitise n (noteLimited n b s)))
    rw [hk, core_modLink, core_leaveIdentifying]
  exact ⟨fun h => hended ((tracks_noteLimited hl hlim).1 h), fun h => hended ((tracks_noteLimited hl hlim).2 h)⟩

/-- What a REPORT leaves of the entry, with the step that it takes. -/
theorem entry_reportCredited {supply : Temp} (h7 : i ≤ 7) (hl : s.lease? n = some l) (hi : l.holder = i) :
    (s.reportCredited i n e supply flags).entry i =
        { s.entry i with missed := 0, lifetime := wrapAdd32 (s.entry i).lifetime e } ∧
      ∀ j, j ≠ i → (s.reportCredited i n e supply flags).entry j = s.entry j := by
  have hentry : (s.reportCredited i n e supply flags).entry =
      ((s.heard i).modEntry i fun r => { r with lifetime := wrapAdd32 r.lifetime e }).entry := by
    have hlk : (keepSupply i supply (s.reported i flags)).lease? n = some l := hl
    rw [State.reportCredited, entry_of_calm (calm_suspendAgain i n _), entry_credit hlk, hi]
    rfl
  rw [hentry]
  refine ⟨?_, fun j hj => ?_⟩
  · rw [entry_modEntry h7, heard_entry h7]
  · rw [entry_modEntry_ne hj, heard_entry_ne hj]

theorem works_reportCredited {supply : Temp} :
    Works (credit n e (keepSupply i supply (s.reported i flags))) (s.reportCredited i n e supply flags) :=
  works_suspendAgain i n _

theorem station_keepSupply (h7 : i ≤ 7) (supply : Temp) (s : State) :
    (keepSupply i supply s).station i = { s.station i with supply := some supply } :=
  tget_tset_self s.link.stations i _ .initial (by omega)

theorem sameOutside_reportCredited {supply : Temp} (hl : s.lease? n = some l) :
    s.sameOutside (s.reportCredited i n e supply flags) [.admission, .roster, .link] := by
  have hlk : (keepSupply i supply (s.reported i flags)).lease? n = some l := hl
  exact sameOutside_trans (sameOutside_reported s i flags)
    (sameOutside_trans (u := keepSupply i supply (s.reported i flags)) (sameOutside_modLink (by decide) _ _)
      (sameOutside_trans (sameOutside_credit hlk e) (sameOutside_of_calm (calm_suspendAgain i n _) (by decide))))

/-- The free-heat counter rises with a credit to a free lease at or above the reserve line (R102). -/
theorem freeHeatAfter_eq (hi : l.holder = i) (h1 : 1 ≤ i) :
    s.freeHeatAfter l e =
      if (l.kind = .free ∨ l.kind = .solar) ∧ s.map.reserveLine ≤ (s.entry i).inlet then
        (s.admission.freeHeat + e) % 4294967296 else s.admission.freeHeat := by
  have hinlet : s.entryInlet l.holder = (s.entry i).inlet := by
    rw [State.entryInlet, if_neg (by omega), hi]
  have hkind : (!l.kind.isBought) = true ↔ l.kind = .free ∨ l.kind = .solar := by
    cases l.kind <;> decide
  rw [State.freeHeatAfter, hinlet]
  refine if_congr ?_ rfl rfl
  rw [Bool.and_eq_true, hkind, decide_eq_true_eq]

theorem freeHeatAfter_reported {supply : Temp} (h1 : 1 ≤ i) (h7 : i ≤ 7) (hi : l.holder = i) :
    (keepSupply i supply (s.reported i flags)).freeHeatAfter l e = s.freeHeatAfter l e := by
  have hinlet : ((keepSupply i supply (s.reported i flags)).entry i).inlet = (s.entry i).inlet :=
    (congrArg Entry.inlet (heard_entry h7 s) :)
  rw [freeHeatAfter_eq hi h1, freeHeatAfter_eq hi h1, hinlet]
  rfl

theorem report_credited {supply : Temp} {limited : Bool} (hx : s.link.exchange = some x) (haddr : x.addr = a)
    (h31 : a ≠ 31) (hcmd : x.cmd = .poll) (hi : s.indexAt a = some i) (hlost : (s.entry i).state ≠ .lost)
    (hfault : flags.getLsbD 3 = false) (hn : s.slotHeldBy i = some n) (hl : s.lease? n = some l)
    (htrial : ∀ y, s.roster.trial = some y → y.entry ≠ i) :
    ∃ t l', exec (.status a flags (some (s.leaseHandle n)) (some (.report e supply limited))) s = .next t ∧
      t.link.exchange = none ∧ (t.station i).status = some (s.statusNow flags) ∧ (t.station i).supply = some supply ∧
      t.leaseSlot n = { issue := (s.leaseSlot n).issue, lease := some l' } ∧
      l'.root = { l with delivered := min (l.delivered + e) 4294967295 }.root ∧
      (t.entry i).lifetime = ((s.entry i).lifetime + e) % 4294967296 ∧ (t.entry i).missed = 0 ∧
      (∀ j, j ≤ 7 → j ≠ i → t.entry j = s.entry j) ∧
      t.admission.freeHeat = s.freeHeatAfter l e ∧
      (l.steps limited → (t.entry i).learned = (s.entry i).learned.map (stepDown (s.entry i).declared)) ∧
      (¬l.steps limited → (t.entry i).learned = (s.entry i).learned) ∧
      (l.isLimitable → (l.steps limited → l'.limitedBy limited (some 60)) ∧
        (¬l.steps limited → l'.limitedBy limited (if limited then l.stepTimer else none))) ∧
      s.sameOutside t [.admission, .roster, .link] := by
  obtain ⟨hi1, h7⟩ := index_of_indexAt hi
  obtain ⟨h1, h8, -⟩ := held_of_slotHeldBy hn
  have hholder := holder_of_slotHeldBy hn hl
  have hlk : (keepSupply i supply (s.reported i flags)).lease? n = some l := hl
  obtain ⟨saved, hlg⟩ : ∃ saved, (s.reportCredited i n e supply flags).lease? n =
      some { l.credited e with saved := saved } := by
    refine lease_suspendAgain (s := credit n e (keepSupply i supply (s.reported i flags))) ?_ i
    exact congrArg LeaseSlot.lease (leaseSlot_credit hlk e)
  obtain ⟨hwstep, hwkept⟩ := works_report (b := limited) hlg
  have hslot := leaseSlot_credit hlk e
  obtain ⟨hentry, hothers⟩ := entry_reportCredited (e := e) (flags := flags) (supply := supply) h7 hl hholder
  have houtside := sameOutside_reportCredited (i := i) (e := e) (flags := flags) (supply := supply) hl
  have hcredited := works_reportCredited (s := s) (n := n) (i := i) (e := e) (flags := flags) (supply := supply)
  have hfree : (s.reportCredited i n e supply flags).admission.freeHeat = s.freeHeatAfter l e :=
    (freeHeat_of_calm (calm_of_works hcredited)).trans
      ((freeHeat_credit hlk e).trans (freeHeatAfter_reported hi1 h7 hholder))
  have hexchange : (s.reportCredited i n e supply flags).link.exchange = none :=
    exchange_of_calm (calm_of_works hcredited) (by rw [link_credit hlk]; rfl)
  have hsaid : (credit n e (keepSupply i supply (s.reported i flags))).station i =
      { s.station i with status := some (s.statusNow flags), supply := some supply } := by
    rw [State.station, link_credit hlk]
    exact (station_keepSupply h7 supply _).trans (congrArg (fun x => { x with supply := some supply })
      (station_recordFlags h7 flags (s.heard i)))
  have hmarks {l'} := limitedBy_reported (x := x) (i := i) (b := limited) (l' := l') h1 hlg
  have hends := statusEnds (testFinishingUnlessSanitise n (noteLimited n limited
    (s.reportCredited i n e supply flags))) i x
  have htaken := (takeAnswer_status (a := a) (believed := some (s.leaseHandle n)) (item := some (.report e supply limited))
    hx haddr h31 hcmd hi hfault).trans (congrArg (State.concluded · x) (takeStatus_report h7 hlost hn htrial))
  generalize s.reportCredited i n e supply flags = g at *
  have hbase : ∃ u, Works u (testFinishingUnlessSanitise n (noteLimited n limited g)) ∧ u.shelf = g.shelf ∧
      u.admission = g.admission ∧ u.link = g.link ∧ g.sameOutside u [.admission, .roster, .link] ∧
      (l.steps limited → u.entry = (g.modEntry l.holder Entry.stepped).entry) ∧
      (¬l.steps limited → u.entry = g.entry) := by
    by_cases hsteps : l.steps limited
    · exact ⟨_, hwstep hsteps, rfl, rfl, rfl, sameOutside_modEntry (by decide) _ _ g, fun _ => rfl,
        fun hno => absurd hsteps hno⟩
    · exact ⟨g, hwkept hsteps, rfl, rfl, rfl, sameOutside_refl g _, fun h => absurd h hsteps, fun _ => rfl⟩
  obtain ⟨u, hworks, hshelf, hadmission, hlink, hout, hstep, hkept⟩ := hbase
  have hcalm := calm_of_works hworks
  have hshelves := hends.shelf.trans ((shelf_of_works hworks).trans (hshelf.trans (shelf_of_works hcredited)))
  obtain ⟨l', hl', hroot⟩ := leaseSlot_of_shelf hshelves hslot
  obtain ⟨hstatus, hsupply⟩ := said_of_shelf hshelves i
  obtain ⟨hlifetime, hmissed, hlearned⟩ := leaving_counts h7 (testFinishingUnlessSanitise n (noteLimited n limited g))
  have hcounts : (u.entry i).lifetime = (g.entry i).lifetime ∧ (u.entry i).missed = (g.entry i).missed := by
    by_cases hsteps : l.steps limited
    · rw [hstep hsteps, hholder, entry_modEntry h7]
      exact ⟨rfl, rfl⟩
    · rw [hkept hsteps]
      exact ⟨rfl, rfl⟩
  refine ⟨_, l', congrArg Host.Outcome.next htaken, hends.exchange (exchange_of_calm hcalm (by rw [hlink, hexchange])),
    by rw [hstatus, hsaid], by rw [hsupply, hsaid], hl', hroot, ?_, ?_, fun j _ hj => ?_, ?_, fun hsteps => ?_,
    fun hsteps => ?_, fun hlim => hmarks hlim (congrArg LeaseSlot.lease hl'),
    sameOutside_trans houtside (sameOutside_trans hout
      (sameOutside_trans (sameOutside_of_calm hcalm (by decide)) hends.outside))⟩
  · rw [hends.entry, hlifetime, entry_of_calm hcalm, hcounts.1, hentry]
    rfl
  · rw [hends.entry, hmissed, entry_of_calm hcalm, hcounts.2, hentry]
  · rw [hends.entry, entry_leaving_ne hj, entry_of_calm hcalm, ← hothers j hj]
    by_cases hsteps : l.steps limited
    · rw [hstep hsteps, entry_modEntry_ne (by omega)]
    · rw [hkept hsteps]
  · rw [← hfree, ← hadmission, ← freeHeat_of_calm hcalm]
    exact (congrArg Admission.freeHeat hends.desk :)
  · rw [hends.entry, hlearned, entry_of_calm hcalm, hstep hsteps, hholder, entry_modEntry h7, hentry]
    rfl
  · rw [hends.entry, hlearned, entry_of_calm hcalm, hkept hsteps, hentry]

/-- Settles O48: the flags of a STATUS and the credit of a REPORT. -/
theorem statusesAreRecordedAndReportsCredited : Obligations.StatusesAreRecordedAndReportsCredited := by
  intro s a i flags x hx haddr h31 hcmd hi hlost hfault record
  refine ⟨fun hnone => status_recorded hx haddr h31 hcmd hi hlost hfault hnone, ?_⟩
  intro n l e supply limited hn hl htrial marks steps declared
  obtain ⟨t, l', ht, hexchange, hstatus, hsupply, hslot, hroot, hlifetime, hmissed, hothers, hfree, hstep, hkept,
    hlimited, houtside⟩ := report_credited (e := e) (supply := supply) (limited := limited) hx haddr h31 hcmd hi hlost
      hfault hn hl htrial
  have hsteps : l.steps limited ↔ steps := Iff.rfl
  refine ⟨t, l', ht, hexchange, hstatus, hsupply, hslot, hroot, hlifetime, hmissed, hothers,
    hfree.trans (freeHeatAfter_eq (holder_of_slotHeldBy hn hl) (index_of_indexAt hi).1), ?_, fun hmarks hrun => ?_,
    fun hmarks hrun => ?_, houtside⟩
  · by_cases h : steps
    · rw [if_pos h]
      exact hstep h
    · rw [if_neg h]
      exact hkept h
  · by_cases h : steps
    · have hl' := (hlimited hmarks).1 h
      rw [Lease.limitedBy, if_pos hrun] at hl'
      rw [if_pos h]
      exact hl'
    · have hl' := (hlimited hmarks).2 h
      rw [Lease.limitedBy, if_pos hrun] at hl'
      rw [if_neg h]
      exact hl'
  · by_cases h : steps
    · have hl' := (hlimited hmarks).1 h
      rw [Lease.limitedBy, if_neg (by rw [hrun]; decide)] at hl'
      exact hl'
    · have hl' := (hlimited hmarks).2 h
      rw [Lease.limitedBy, if_neg (by rw [hrun]; decide)] at hl'
      exact hl'

end Sys2Proof.Machine

/-! ### What the loop does at a sweep (chapter 9)

The loop's work at a sweep is made of writes to its own block, flags, the SOLAR lease opened, moved or retired, and the
arbiter. A predicate that each of these keeps is kept by the whole. -/

namespace Sys2Proof.Machine
variable {P : State → Prop} {s t u : State} {n m k : Nat} {l l' : Lease}

/-- What the work of the loop at a sweep is made of keeps this predicate. -/
structure LoopKeeps (P : State → Prop) : Prop where
  solar : ∀ (u : State) (f : Solar → Solar), P u → P (u.modSolar f)
  flag : ∀ (u : State) (e : EventFlag), P u → P (u.raise e)
  inlet : ∀ u : State, P u → P (followInlet u)
  opened : ∀ u : State, P u → P (openSolar u)
  retired : ∀ (u : State) (m : Nat), u.slotOfKind .solar = some m → P u → P (retire m .ceased u)
  settled : ∀ b u : State, P u → P (settle b u)

section loop

variable (h : LoopKeeps P)
include h

theorem LoopKeeps.stopLoop (st : LoopState) (hs : P s) : P (stopLoop st s) :=
  h.flag _ _ (h.solar s _ hs)

theorem LoopKeeps.moveValve (v : Valve) (hs : P s) : P (moveValve v s) :=
  h.inlet _ (h.solar s _ hs)

theorem LoopKeeps.evaluateValve (hs : P s) : P (evaluateValve s) := by
  unfold Machine.evaluateValve
  repeat' split
  · exact hs
  · exact h.moveValve .upper hs
  · exact hs
  · exact h.moveValve .lower hs
  · exact hs

theorem LoopKeeps.driveUpper (hs : P s) : P (driveUpper s) := by
  unfold Machine.driveUpper
  split
  · exact h.moveValve .upper hs
  · exact hs

theorem LoopKeeps.endLoop (st : LoopState) (hs : P s) : P (endLoop st s) := by
  have hstop := h.stopLoop st hs
  unfold Machine.endLoop
  dsimp only
  split
  · exact hstop
  · next m hm => exact h.retired _ m hm hstop

theorem LoopKeeps.testOff (hs : P s) : P (testOff s) := by
  unfold Machine.testOff
  repeat' split
  · exact h.stopLoop _ hs
  · exact h.stopLoop _ hs
  · exact h.flag _ _ (h.solar _ _ (h.opened s hs))
  · exact h.driveUpper (h.flag _ _ (h.solar s _ hs))
  · exact hs

theorem LoopKeeps.sweepRunning (hs : P s) : P (sweepRunning s) := by
  have htimer : P (tendStopTimer s) := h.solar s _ hs
  unfold Machine.sweepRunning
  dsimp only
  split
  · exact h.evaluateValve (h.flag _ _ (h.settled _ _ (h.solar _ _ htimer)))
  · exact h.evaluateValve htimer

theorem LoopKeeps.sweepWithLease {go : State → State} (hgo : P s → P (go s)) (hs : P s) : P (sweepWithLease go s) := by
  unfold Machine.sweepWithLease
  repeat' split
  · exact h.endLoop _ hs
  · exact h.endLoop _ hs
  · exact h.endLoop _ hs
  · exact hgo hs

theorem LoopKeeps.sweepStagnant (hs : P s) : P (sweepStagnant s) := by
  unfold Machine.sweepStagnant
  repeat' split
  · exact h.stopLoop _ hs
  · exact h.stopLoop _ hs
  · exact hs

theorem LoopKeeps.sweepRecooling (hs : P s) : P (sweepRecooling s) := by
  unfold Machine.sweepRecooling
  repeat' split
  · exact h.stopLoop _ hs
  · exact h.stopLoop _ hs
  · exact h.driveUpper hs

theorem LoopKeeps.solarSweep (hs : P s) : P (solarSweep s) := by
  unfold Machine.solarSweep
  extract_lets s1
  have hs1 : P s1 := h.solar s _ hs
  clear_value s1
  split
  · exact h.testOff hs1
  · exact h.sweepWithLease h.evaluateValve hs1
  · exact h.sweepWithLease h.sweepRunning hs1
  · exact h.sweepWithLease h.sweepRunning hs1
  · exact h.sweepStagnant hs1
  · exact h.sweepRecooling hs1
  · split
    · exact hs1
    · exact h.stopLoop _ hs1

end loop

end Sys2Proof.Machine

/-! ### The SANITISE lease up to the monitor's test (R78, R80, R105)

A SANITISE lease has neither a budget nor a finishing hold, so nothing that precedes the monitor's test in a
sweep-complete sends it to REVOKING: it may be suspended, resumed, put into FINISHING and taken out of it. -/

namespace Sys2Proof.Machine
variable {s t u b : State} {n m k : Nat} {l l' : Lease}

/-- A SANITISE lease that has not been ended: without budget and hold, outside REVOKING, its saved context, which it has
in SUSPENDED alone, that of a heating state. -/
structure Lease.Unended (l : Lease) : Prop where
  kind : l.kind = .sanitise
  budget : l.budget = none
  hold : l.hold = none
  live : l.state ≠ .revoking
  saved : l.saved ≠ none → l.state = .suspended
  context : ∀ ctx, l.saved = some ctx → ctx.state.isHeating = true ∧ ctx.hold = none

/-- What the sweep may leave of a SANITISE lease before the monitor's test: its root, OFFERED or not as it was. -/
structure Lease.Lasts (l l' : Lease) : Prop where
  root : l'.root = l.root
  offered : l'.state = .offered ↔ l.state = .offered
  unended : l'.Unended

/-- Slot `n` holds what is left of this lease, and it is the SANITISE lease's slot. -/
def State.lasts (s : State) (n k : Nat) (l : Lease) : Prop :=
  s.slotOfKind .sanitise = some n ∧ ∃ l', s.leaseSlot n = { issue := k, lease := some l' } ∧ l.Lasts l'

theorem unended_of_core (hcore : l'.core = l.core) (h : l.Unended) : l'.Unended := by
  obtain ⟨-, -, hrev, hsus, hsaved, hbudget, -⟩ := same_of_core hcore
  have hkind : l'.kind = l.kind := (congrArg Lease.kind hcore :)
  have hhold : l'.hold = l.hold := (congrArg Lease.hold hcore :)
  exact ⟨hkind.trans h.kind, hbudget.trans h.budget, hhold.trans h.hold, fun e => h.live (hrev.mp e),
    fun e => hsus.mpr (h.saved (hsaved ▸ e)), fun ctx e => h.context ctx (hsaved ▸ e)⟩

theorem slotOfKind_congr {kind : LeaseKind}
    (h : ∀ m, 1 ≤ m → m ≤ 8 → ((t.lease? m).map Lease.kind = some kind ↔ (s.lease? m).map Lease.kind = some kind)) :
    t.slotOfKind kind = s.slotOfKind kind := by
  have hany (u : State) (m : Nat) :
      ((u.lease? m).any fun l => l.kind == kind) = decide ((u.lease? m).map Lease.kind = some kind) := by
    cases u.lease? m with
    | none => rfl
    | some l => simp [beq_eq_decide]
  unfold State.slotOfKind
  refine List.find?_congr fun m hm => ?_
  obtain ⟨h1, h8⟩ := mem_upTo8.mp hm
  rw [hany, hany, decide_eq_decide]
  exact h m h1 h8

theorem slotOfKind_of_shelf (kind : LeaseKind) (h : t.shelf = s.shelf) : t.slotOfKind kind = s.slotOfKind kind := by
  refine slotOfKind_congr fun m _ _ => ?_
  have hroot : (t.lease? m).map Lease.root = (s.lease? m).map Lease.root := congrArg LeaseSlot.lease (root_of_shelf h m)
  have hkinds : ∀ x : Option Lease, x.map Lease.kind = (x.map Lease.root).map Lease.kind := fun x => by cases x <;> rfl
  rw [hkinds (t.lease? m), hroot, ← hkinds]

theorem lasts_of_core (hcore : t.core n = s.core n) (hshelf : t.shelf = s.shelf) (hs : s.lasts n k l) :
    t.lasts n k l := by
  obtain ⟨hkind, l1, hslot, hlasts⟩ := hs
  obtain ⟨l2, hslot2, hcore2⟩ := leaseSlot_of_core hcore hslot
  refine ⟨(slotOfKind_of_shelf _ hshelf).trans hkind, l2, hslot2, ?_, ?_, unended_of_core hcore2 hlasts.unended⟩
  · exact (congrArg Lease.root hcore2 :).trans hlasts.root
  · exact (same_of_core hcore2).2.1.trans hlasts.offered

/-- A change of the slot's lease that may be made of it before the monitor's test. -/
theorem lasts_lease (f : Lease → Lease) (hf : ∀ l', (f l').root = l'.root)
    (hself : ∀ l', s.lease? n = some l' → l.Lasts l' → l.Lasts (f l')) (hs : s.lasts n k l) :
    (s.modLease n f).lasts n k l := by
  obtain ⟨hkind, l1, hslot, hlasts⟩ := hs
  refine ⟨(slotOfKind_of_shelf _ (shelf_modLease n f hf s)).trans hkind, f l1, ?_,
    hself l1 (congrArg LeaseSlot.lease hslot) hlasts⟩
  rw [leaseSlot_modLease, State.lease?, hslot]
  rfl

/-- What has left OFFERED and SUSPENDED for a heating state. -/
theorem lasts_heating (hlasts : l.Lasts l') (hpast : l'.state ≠ .offered) {l1 : Lease} (hroot : l1.root = l'.root)
    (hbudget : l1.budget = none) (hhold : l1.hold = none) (hheat : l1.state.isHeating = true) (hsaved : l1.saved = none) :
    l.Lasts l1 := by
  have hkind : l1.kind = l'.kind := (congrArg Lease.kind hroot :)
  refine ⟨hroot.trans hlasts.root, iff_of_false ?_ fun e => hpast (hlasts.offered.mpr e), hkind.trans hlasts.unended.kind,
    hbudget, hhold, ?_, fun e => absurd hsaved e, fun ctx e => ?_⟩
  · intro e
    rw [e] at hheat
    cases hheat
  · intro e
    rw [e] at hheat
    cases hheat
  · rw [hsaved] at e
    cases e

theorem unsaved_of_lasts (hlasts : l.Lasts l') (hstate : l'.state ≠ .suspended) : l'.saved = none := by
  by_contra h
  exact hstate (hlasts.unended.saved h)

theorem lasts_place (i : Nat) (c : LinkCmd) (hs : s.lasts n k l) : (place i c s).lasts n k l :=
  lasts_of_core (core_place n i c s) (shelf_place i c s) hs

theorem lasts_settle (b : State) (hs : s.lasts n k l) : (settle b s).lasts n k l :=
  lasts_of_core (core_settle n b s) (shelf_settle b s) hs

/-! #### The finishing test -/

theorem lasts_beginFinishing (hrun : ∀ l', s.lease? n = some l' → l'.state.isRunning = true) (hs : s.lasts n k l) :
    (beginFinishing n s).lasts n k l := by
  refine lasts_lease _ (fun _ => rfl) (fun l1 hl1 hlasts => ?_) hs
  have hstate (x : LeaseState) (hx : x.isRunning = false) : l1.state ≠ x := fun e => by
    have hl1run := hrun l1 hl1
    rw [e, hx] at hl1run
    cases hl1run
  have hsaved := unsaved_of_lasts hlasts (hstate _ rfl)
  exact lasts_heating hlasts (hstate _ rfl) rfl hlasts.unended.budget (if_pos hlasts.unended.kind) rfl hsaved

theorem lasts_endZeroHold (hs : s.lasts n k l) : (endZeroHold n s).lasts n k l := by
  obtain ⟨-, l1, hslot, hlasts⟩ := id hs
  have hl : s.lease? n = some l1 := congrArg LeaseSlot.lease hslot
  rw [endZeroHold, hl]
  dsimp only
  rw [if_neg]
  · exact hs
  · rintro ⟨-, hzero⟩
    rw [hlasts.unended.hold] at hzero
    cases hzero

theorem lasts_recharge (hfin : ∀ l', s.lease? n = some l' → l'.state = .finishing) (hs : s.lasts n k l) :
    (recharge n s).lasts n k l := by
  have hrates : (settling (fun t => t.modLease n fun l => { l with state := .admitted, hold := none }) s).lasts n k l := by
    refine lasts_settle s (lasts_lease _ (fun _ => rfl) (fun l1 hl1 hlasts => ?_) hs)
    have hstate (x : LeaseState) (hx : x ≠ .finishing) : l1.state ≠ x := fun e => hx (e.symm.trans (hfin l1 hl1))
    have hsaved := unsaved_of_lasts hlasts (hstate _ nofun)
    exact lasts_heating hlasts (hstate _ nofun) rfl hlasts.unended.budget rfl rfl hsaved
  unfold recharge
  dsimp only
  split
  · exact hrates
  · exact lasts_place _ _ hrates

theorem lasts_testFinishing (h1 : 1 ≤ n) (hm : 1 ≤ m) (hs : s.lasts n k l) : (testFinishing m s).lasts n k l := by
  by_cases hmn : m = n
  · subst hmn
    unfold testFinishing
    split
    · exact hs
    · next l1 hl1 =>
      have hself {Q : Lease → Prop} (h : Q l1) : ∀ l', s.lease? m = some l' → Q l' := fun l' hl' =>
        Option.some.inj (hl1.symm.trans hl') ▸ h
      split
      · next hmet =>
        have hrun : l1.state.isRunning = true := (Bool.and_eq_true_iff.mp (Bool.and_eq_true_iff.mp hmet).1).1
        exact lasts_endZeroHold (lasts_settle s (lasts_beginFinishing (hself hrun) hs))
      · split
        · next hback => exact lasts_recharge (hself (beq_iff_eq.mp (Bool.and_eq_true_iff.mp hback).1)) hs
        · exact hs
  · exact lasts_of_core (core_testFinishing_ne (by omega) s) (shelf_testFinishing m s) hs

/-! #### The overlap test -/

/-- Without a budget no free heat satisfies a lease (R109). -/
theorem beginResumption_unbudgeted {ctx : SavedContext} (hl : s.lease? n = some l) (hctx : l.saved = some ctx)
    (hbudget : l.budget = none) :
    beginResumption s n =
      s.modLease n fun l1 =>
        { l1 with
          state := ctx.state, timer := ctx.timer, hold := ctx.hold, saved := none, budget := none, granted := 0
          waiting := s.drawsBudget l1 } := by
  have hadjusted : s.adjustedBudget l ctx = none := by
    rw [State.adjustedBudget, hbudget]
    rfl
  have hnot : s.satisfiedByFree l ctx = false := by
    rw [State.satisfiedByFree, hadjusted]
    rfl
  unfold beginResumption
  rw [hl]
  dsimp only
  rw [hctx]
  dsimp only
  rw [hnot, if_neg Bool.false_ne_true, hadjusted, hbudget, if_pos rfl]

theorem lasts_beginResumption (h1 : 1 ≤ n) (hm : 1 ≤ m) (hs : s.lasts n k l) : (beginResumption s m).lasts n k l := by
  by_cases hmn : m = n
  · subst hmn
    obtain ⟨-, l1, hslot, hlasts⟩ := id hs
    have hl : s.lease? m = some l1 := congrArg LeaseSlot.lease hslot
    cases hctx : l1.saved with
    | none =>
      unfold beginResumption
      rw [hl]
      dsimp only
      rw [hctx]
      exact hs
    | some ctx =>
      rw [beginResumption_unbudgeted hl hctx hlasts.unended.budget]
      refine lasts_lease _ (fun _ => rfl) (fun l2 hl2 hlasts2 => ?_) hs
      obtain rfl := Option.some.inj (hl.symm.trans hl2)
      obtain ⟨hheat, hhold⟩ := hlasts.unended.context ctx hctx
      have hsus := hlasts.unended.saved (by rw [hctx]; nofun)
      exact lasts_heating hlasts (by rw [hsus]; nofun) rfl rfl hhold hheat rfl
  · exact lasts_of_core (core_beginResumption_ne (by omega) s) (shelf_beginResumption s m) hs

theorem lasts_suspensions (h1 : 1 ≤ n) (hs : s.lasts n k l) : (s.toSuspend.foldl beginSuspension s).lasts n k l := by
  have hshelf : (s.toSuspend.foldl beginSuspension s).shelf = s.shelf := foldl_shelf _ shelf_beginSuspension _ s
  have hfold := leaseSlot_suspensions (s := s) (nodup_toSuspend s) (fun m hm => pos_of_toSuspend hm) h1
  by_cases hn : n ∈ s.toSuspend
  · rw [if_pos hn, leaseSlot_beginSuspension] at hfold
    obtain ⟨hkind, l1, hslot, hlasts⟩ := hs
    have hl : s.lease? n = some l1 := congrArg LeaseSlot.lease hslot
    have hheat : l1.state.isHeating = true := by
      have hmem := (List.mem_filter.mp hn).2
      rw [hl, Option.any_some] at hmem
      simp only [Bool.and_eq_true] at hmem
      exact hmem.1.1.2
    have hended := hlasts.unended
    refine ⟨(slotOfKind_of_shelf _ hshelf).trans hkind, l1.suspended s.admission.freeHeat, ?_, hlasts.root, ?_,
      hended.kind, hended.budget, rfl, nofun, fun _ => rfl, ?_⟩
    · rw [hfold, hslot, hl]
      rfl
    · refine iff_of_false nofun fun e => ?_
      rw [hlasts.offered.mpr e] at hheat
      cases hheat
    · rintro ctx ⟨⟩
      exact ⟨hheat, hended.hold⟩
  · rw [if_neg hn] at hfold
    exact lasts_of_core (core_of_leaseSlot hfold) hshelf hs

theorem lasts_actOnOverlap (h1 : 1 ≤ n) (b : State) (hs : s.lasts n k l) : (actOnOverlap b s).lasts n k l := by
  have hback := List.foldlRecOn (motive := fun t => t.lasts n k l) s.toResume beginResumption (lasts_suspensions h1 hs)
    fun t ht m hm => lasts_beginResumption h1 (pos_of_toResume hm) ht
  have htold := List.foldlRecOn (motive := fun t => t.lasts n k l) s.toResume announceResume (lasts_settle b hback)
    fun t ht m _ => lasts_of_core (core_announceResume n t m) (shelf_announceResume t m) ht
  unfold actOnOverlap
  exact List.foldlRecOn (motive := fun t => t.lasts n k l) s.toResume (fun t m => testFinishing m t) htold fun t ht m hm =>
    lasts_testFinishing h1 (pos_of_toResume hm) ht

theorem lasts_testOverlap (h1 : 1 ≤ n) (hs : s.lasts n k l) : (testOverlap s).lasts n k l := by
  unfold testOverlap
  split
  · exact hs
  · exact lasts_actOnOverlap h1 s hs

theorem lasts_resettle (h1 : 1 ≤ n) (b : State) (hs : s.lasts n k l) : (resettle b s).lasts n k l := by
  have hrates : (freeRates b s).lasts n k l := lasts_of_core (core_freeRates n b s) (shelf_freeRates b s) hs
  unfold resettle
  dsimp only
  split
  · exact lasts_settle b hrates
  · exact lasts_actOnOverlap h1 b hrates

/-! #### The loop -/

theorem slotOfKind_some {kind : LeaseKind} (h : s.slotOfKind kind = some m) :
    1 ≤ m ∧ m ≤ 8 ∧ ∃ l, s.lease? m = some l ∧ l.kind = kind := by
  obtain ⟨h1, h8⟩ := mem_upTo8.mp (List.mem_of_find?_eq_some h)
  unfold State.slotOfKind at h
  have hany := List.find?_some h
  obtain ⟨l, hl⟩ : ∃ l, s.lease? m = some l := by
    cases hl : s.lease? m with
    | none =>
      rw [hl] at hany
      cases hany
    | some l => exact ⟨l, rfl⟩
  rw [hl, Option.any_some] at hany
  exact ⟨h1, h8, l, hl, beq_iff_eq.mp hany⟩

theorem freeLeaseSlot_some (h : s.freeLeaseSlot = some m) : 1 ≤ m ∧ m ≤ 8 ∧ s.lease? m = none := by
  obtain ⟨h1, h8⟩ := mem_upTo8.mp (List.mem_of_find?_eq_some h)
  exact ⟨h1, h8, Option.isNone_iff_eq_none.mp (List.find?_some (p := fun n => (s.lease? n).isNone) h)⟩

/-- Work on another slot, that neither held nor holds a SANITISE lease. -/
theorem lasts_of_other (h1 : 1 ≤ n) (hm : 1 ≤ m) (hslots : ∀ j, m - 1 ≠ j - 1 → t.leaseSlot j = s.leaseSlot j)
    (hold : (s.lease? m).map Lease.kind ≠ some .sanitise) (hnew : (t.lease? m).map Lease.kind ≠ some .sanitise)
    (hs : s.lasts n k l) : t.lasts n k l := by
  obtain ⟨hkind, l1, hslot, hlasts⟩ := hs
  have hmn : m ≠ n := by
    rintro rfl
    rw [State.lease?, hslot] at hold
    exact hold (congrArg some hlasts.unended.kind)
  refine ⟨(slotOfKind_congr fun j hj _ => ?_).trans hkind, l1, (hslots n (by omega)).trans hslot, hlasts⟩
  by_cases hjm : m = j
  · subst hjm
    exact iff_of_false hnew hold
  · rw [State.lease?, State.lease?, hslots j (by omega)]

theorem kind_modLease (m : Nat) (f : Lease → Lease) (hf : ∀ l, (f l).kind = l.kind) (s : State) :
    ((s.modLease m f).lease? m).map Lease.kind = (s.lease? m).map Lease.kind := by
  rw [lease_modLease, Option.map_map]
  exact congrArg (fun g => (s.lease? m).map g) (funext hf)

/-- The SOLAR opening fills the lowest free slot alone. -/
theorem openSolar_slots (hm : s.freeLeaseSlot = some m) :
    (∀ j, m - 1 ≠ j - 1 → (openSolar s).leaseSlot j = s.leaseSlot j) ∧
      ((openSolar s).lease? m).map Lease.kind = some .solar := by
  obtain ⟨hm1, hm8, -⟩ := freeLeaseSlot_some hm
  unfold openSolar
  rw [hm]
  dsimp only
  generalize hl : ({ Lease.fresh .solar .part 0 s.solar.inlet s.map.thetaMax with state := .admitted } : Lease) = l
  have hkind : l.kind = .solar := by rw [← hl]; rfl
  clear hl
  have hput : (∀ j, m - 1 ≠ j - 1 → (putLease m l s).leaseSlot j = s.leaseSlot j) ∧
      ((putLease m l s).lease? m).map Lease.kind = some .solar := by
    refine ⟨fun j hj => leaseSlot_putLease_ne hj l s, ?_⟩
    obtain ⟨_, _, hslot⟩ := leaseSlot_putLease (n := m) (by omega) l s
    rw [State.lease?, hslot]
    exact congrArg some hkind
  generalize putLease m l s = u at hput
  refine ⟨fun j hj => (leaseSlot_modLease_ne hj _ u).trans (hput.1 j hj), ?_⟩
  have hsettled := kind_modLease m (fun l => { l with state := settledState u.map.valid l }) (fun _ => rfl) u
  exact hsettled.trans hput.2

theorem loopKeeps_lasts (h1 : 1 ≤ n) : LoopKeeps fun s => s.lasts n k l where
  solar u f hu := lasts_of_core (core_modSolar n f u) (shelf_modSolar f u) hu
  flag u e hu := lasts_of_core (core_raise n e u) rfl hu
  inlet u hu := by
    unfold followInlet
    split
    · exact hu
    · next m hm =>
      obtain ⟨hm1, -, l1, hl1, hkind⟩ := slotOfKind_some hm
      refine lasts_of_other h1 hm1 (fun j hj => leaseSlot_modLease_ne hj _ _) ?_ ?_ hu
      · rw [hl1, Option.map_some, hkind]
        nofun
      · rw [lease_modLease, hl1]
        exact fun e => nomatch hkind.symm.trans (Option.some.inj e)
  opened u hu := by
    cases hm : u.freeLeaseSlot with
    | none =>
      unfold openSolar
      rw [hm]
      exact hu
    | some m =>
      obtain ⟨hm1, -, hnone⟩ := freeLeaseSlot_some hm
      obtain ⟨hslots, hkind⟩ := openSolar_slots hm
      refine lasts_of_other h1 hm1 hslots ?_ ?_ hu
      · rw [hnone]
        nofun
      · rw [hkind]
        nofun
  retired u m hm hu := by
    obtain ⟨hm1, hm8, l1, hl1, hkind⟩ := slotOfKind_some hm
    rw [retire_eq _ hl1]
    refine lasts_resettle h1 u (lasts_of_other h1 hm1 (fun j hj => leaseSlot_dismiss_ne hj _ hl1) ?_ ?_ hu)
    · rw [hl1, Option.map_some, hkind]
      nofun
    · rw [lease_dismiss (by omega)]
      nofun
  settled b u hu := lasts_settle b hu

/-! ### The monitor at a sweep (R78, R80, R170) -/

/-- The part as a sweep-complete leaves it before the monitor looks at the map. -/
def State.beforeMonitor (s : State) (r : Readings) : State := testOverlap (solarSweep (admitMap s (publishMap r s)))

/-- What a sweep-complete does after the monitor. -/
def afterMonitor (s : State) : State := closing (passStart (tryTrial (callOffHotTrial (testAllFinishing s))))

theorem completeSweep_eq (r : Readings) (h : s.map.sweeping = true) :
    exec (.sweepComplete r) s = .next (afterMonitor (sanitiseSweep (s.beforeMonitor r))) :=
  congrArg Host.Outcome.next (if_pos h)

theorem keptByLoop_beforeMonitor (r : Readings) (s : State) :
    (s.beforeMonitor r).keptByLoop =
      { s.keptByLoop with
        map := s.map.afterSweep r, desk := { s.kept.desk with guard := (s.map.afterSweep r).guard } } := by
  rw [State.beforeMonitor, keptByLoop_of_kept (kept_testOverlap _), keptByLoop_solarSweep,
    keptByLoop_of_kept (kept_admitMap s _), State.keptByLoop, State.keptByLoop, kept_publishMap]

theorem kept_afterMonitor (s : State) : (afterMonitor s).kept = s.kept := by
  rw [afterMonitor, kept_closing, kept_passStart, kept_tryTrial, kept_callOffHotTrial, kept_testAllFinishing]

theorem marked_afterMonitor {e : Option EventFlag} (h : s.marked e) : (afterMonitor s).marked e :=
  marked_closing (marked_passStart (marked_tryTrial (marked_callOffHotTrial (marked_testAllFinishing h))))

theorem leases_publishMap (r : Readings) (s : State) :
    (publishMap r s).admission = s.admission ∧ (publishMap r s).map = s.map.afterSweep r := by
  unfold publishMap
  dsimp only
  cases someProbeFell s.map (s.map.afterSweep r) <;> cases invalidRaised s.map (s.map.afterSweep r) <;> exact ⟨rfl, rfl⟩

/-- The flags of a published map and the guard leave the lease table. -/
theorem leaseSlot_published (r : Readings) (s : State) (n : Nat) :
    (publishMap r s).withGuard.leaseSlot n = s.leaseSlot n :=
  leaseSlot_of_admission (leases_publishMap r s).1 n

theorem lasts_of_leaseSlot (h : ∀ j, t.leaseSlot j = s.leaseSlot j) (hs : s.lasts n k l) : t.lasts n k l := by
  obtain ⟨hkind, hslot⟩ := hs
  refine ⟨(slotOfKind_congr fun j _ _ => ?_).trans hkind, by rwa [h n]⟩
  rw [State.lease?, State.lease?, h j]

theorem lasts_tellFree (m : Nat) (hs : s.lasts n k l) : (tellFree s m).lasts n k l := by
  unfold tellFree
  repeat' split
  · exact hs
  · exact lasts_place _ _ hs
  · exact hs

theorem lasts_beforeMonitor (r : Readings) (h1 : 1 ≤ n) (hmap : s.map.valid = true → (s.map.afterSweep r).valid = true)
    (hs : s.lasts n k l) : (s.beforeMonitor r).lasts n k l := by
  have hpublished := lasts_of_leaseSlot (leaseSlot_published r s) hs
  have hnew := congrArg StratumMap.valid (leases_publishMap r s).2
  refine lasts_testOverlap h1 ((loopKeeps_lasts h1).solarSweep ?_)
  generalize publishMap r s = u at hpublished hnew
  have hstays : (s.map.valid && !u.map.valid) = false := by
    rw [hnew]
    cases h : s.map.valid with
    | false => rfl
    | true => rw [hmap h]; rfl
  have hrates := lasts_resettle h1 s hpublished
  unfold admitMap
  dsimp only
  rw [hstays, if_neg Bool.false_ne_true]
  split
  · exact List.foldlRecOn (motive := fun t => t.lasts n k l) upTo8 tellFree hrates fun t ht m _ => lasts_tellFree m ht
  · exact hrates

/-! #### The hold (R169, R170) -/

theorem holdCounts_iff :
    s.holdCounts = true ↔ s.sanitise.interval ≠ none ∧ s.sanitise.lastDay ≠ some s.clock.day := by
  simp [State.holdCounts, Option.isSome_iff_ne_none]

/-- The published map is VALID and stands at or above the sanitise temperature from the floor up. -/
def State.isHot (s : State) : Prop :=
  s.map.valid = true ∧ ∀ n, 1 ≤ n → n ≤ 8 → s.sanitise.floor ≤ n → s.sanitise.temp ≤ (s.map.stratum n).temp

theorem isHot_iff : s.isHot ↔ s.map.valid = true ∧ s.hotFromFloor = true := by
  have hlayer (n : Nat) : (s.sanitise.floor ≤ n → s.sanitise.temp ≤ (s.map.stratum n).temp) ↔
      (decide (n < s.sanitise.floor) || decide (s.sanitise.temp ≤ s.temp n)) = true := by
    rw [Bool.or_eq_true, decide_eq_true_eq, decide_eq_true_eq, ← Nat.not_le, ← imp_iff_not_or]
    rfl
  rw [State.isHot, State.hotFromFloor, List.all_eq_true]
  refine and_congr_right fun _ => ⟨fun h n hn => ?_, fun h n h1 h8 => (hlayer n).mpr (h n (mem_upTo8.mpr ⟨h1, h8⟩))⟩
  obtain ⟨h1, h8⟩ := mem_upTo8.mp hn
  exact (hlayer n).mp (h n h1 h8)

theorem accumulated_hot (hcounts : s.holdCounts = true) (hhot : s.isHot) :
    s.accumulated = s.sanitise.accumulator + 10 := by
  obtain ⟨hvalid, hfloor⟩ := isHot_iff.mp hhot
  rw [State.accumulated, hcounts, hvalid, hfloor]
  rfl

theorem accumulated_else (h : ¬(s.holdCounts = true ∧ s.isHot)) : s.accumulated = 0 := by
  refine if_neg fun hall => h ?_
  simp only [Bool.and_eq_true] at hall
  obtain ⟨⟨hcounts, hvalid⟩, hfloor⟩ := hall
  exact ⟨hcounts, isHot_iff.mpr ⟨hvalid, hfloor⟩⟩

theorem holdReached_iff :
    s.holdReached = true ↔ s.holdCounts = true ∧
      (60 * s.sanitise.hold ≤ s.sanitise.accumulator ∨ (s.isHot ∧ 60 * s.sanitise.hold ≤ s.sanitise.accumulator + 10)) := by
  rw [State.holdReached, Bool.and_eq_true, decide_eq_true_eq]
  refine and_congr_right fun hcounts => ?_
  by_cases hhot : s.isHot
  · rw [accumulated_hot hcounts hhot]
    constructor
    · intro h
      exact .inr ⟨hhot, by omega⟩
    · rintro (h | ⟨-, h⟩) <;> omega
  · rw [accumulated_else fun h => hhot h.2]
    constructor
    · intro h
      exact .inl (by omega)
    · rintro (h | ⟨h, -⟩)
      · omega
      · exact absurd h hhot

/-- The day satisfied, before the lease is sent to REVOKING. -/
def State.satisfied (s : State) : State :=
  (s.modSanitise fun m => { m with lastDay := some s.clock.day, accumulator := 0 }).raise .sanitiseDone

theorem sanitiseSweep_reached (h : s.holdReached = true) : sanitiseSweep s = revokeSanitise .completed s.satisfied :=
  if_pos h

theorem monitor_reached (h : s.holdReached = true) :
    (afterMonitor (sanitiseSweep s)).sanitise = { s.sanitise with accumulator := 0, lastDay := some s.clock.day } ∧
      (afterMonitor (sanitiseSweep s)).flagged .sanitiseDone = true := by
  rw [sanitiseSweep_reached h]
  constructor
  · exact sanitise_of_kept ((kept_afterMonitor _).trans (kept_revokeSanitise _ _))
  · exact marked_afterMonitor (e := some .sanitiseDone) (marked_revokeSanitise _ (raised _))

theorem monitor_unreached (h : ¬s.holdReached = true) :
    (afterMonitor (sanitiseSweep s)).sanitise = { s.sanitise with accumulator := s.accumulated } := by
  rw [sanitise_of_kept (kept_afterMonitor _), sanitiseSweep, if_neg h]
  rfl

/-- The monitor reads its own block and the clock as they were and the map as it is published. -/
theorem beforeMonitor_reads (r : Readings) (s : State) :
    (s.beforeMonitor r).sanitise = s.sanitise ∧ (s.beforeMonitor r).map = s.map.afterSweep r ∧
      (s.beforeMonitor r).clock = s.clock := by
  have hkept := keptByLoop_beforeMonitor r s
  exact ⟨(congrArg Kept.sanitise hkept :), (congrArg Kept.map hkept :), (congrArg Kept.clock hkept :)⟩

/-! #### What becomes of the SANITISE lease (R80, R170) -/

theorem rests_of_leaseSlot (h : t.leaseSlot n = s.leaseSlot n) (hs : s.rests n k l) : t.rests n k l := by
  obtain ⟨l', hslot, hrest⟩ := hs
  exact ⟨l', h.trans hslot, hrest⟩

theorem rests_testFinishing (hm : 1 ≤ m) (h1 : 1 ≤ n) (hstate : l.state = .revoking) (hs : s.rests n k l) :
    (testFinishing m s).rests n k l := by
  by_cases hmn : m = n
  · subst hmn
    obtain ⟨l1, hslot, hcore, -⟩ := id hs
    have hrev : l1.state = .revoking := (same_of_core hcore).2.2.1.mpr hstate
    have hl : s.lease? m = some l1 := congrArg LeaseSlot.lease hslot
    unfold testFinishing
    rw [hl]
    dsimp only
    rw [hrev]
    exact hs
  · exact rests_of_works (core_testFinishing_ne (by omega) s) (works_testFinishing m s) hs

theorem works_testAllFinishing (s : State) : Works s (testAllFinishing s) :=
  works_foldl (fun t m => works_testFinishing m t) upTo8 s

theorem works_callOffHotTrial (s : State) : Works s (callOffHotTrial s) := by
  unfold callOffHotTrial
  split
  · exact (works_stopTrial s).trans (works_settle s _)
  · exact .refl

theorem core_callOffHotTrial (n : Nat) (s : State) : (callOffHotTrial s).core n = s.core n := by
  unfold callOffHotTrial
  split
  · exact core_callOffTrial n s
  · rfl

theorem rests_afterMonitor {r : LeaseOutcome} (h1 : 1 ≤ n) (hs : s.rests n k (l.revoked r)) :
    (afterMonitor s).rests n k (l.revoked r) := by
  have htested : (testAllFinishing s).rests n k (l.revoked r) :=
    List.foldlRecOn (motive := fun t => t.rests n k (l.revoked r)) upTo8 (fun t m => testFinishing m t) hs fun t ht m hm =>
      rests_testFinishing (mem_upTo8.mp hm).1 h1 (state_revoked l r) ht
  have hcalled := rests_of_works (core_callOffHotTrial n _) (works_callOffHotTrial _) htested
  have htried := rests_of_works (core_tryTrial n _) (works_tryTrial _) hcalled
  refine rests_closing h1 rfl ?_ (rests_of_leaseSlot (leaseSlot_of_admission (admission_passStart _) n) htried)
  rw [state_revoked]
  decide

theorem retired_passStart {out : LeaseOutcome} (h : s.Retired n l out u) : s.Retired n l out (passStart u) := by
  rw [passStart_eq]
  exact ⟨h.slot, h.order, h.flagged, h.entry, h.stale⟩

theorem retired_afterMonitor {out : LeaseOutcome} (h : s.Retired n l out u) : s.Retired n l out (afterMonitor u) :=
  retired_closing (retired_passStart (retired_of_works
    ((works_testAllFinishing u).trans ((works_callOffHotTrial _).trans (works_tryTrial _))) h))

theorem revokeSanitise_of_lasts (r : LeaseOutcome) (hs : s.lasts n k l) :
    revokeSanitise r s = sendRevoking n r s := by
  rw [revokeSanitise, hs.1]

theorem lasts_satisfied (hs : s.lasts n k l) : s.satisfied.lasts n k l :=
  lasts_of_leaseSlot (fun _ => rfl) hs

theorem sent_of_lasts (h1 : 1 ≤ n) (hlasts : l.Lasts l') (hslot : s.leaseSlot n = { issue := k, lease := some l' })
    (hsent : ¬(l.state = .offered ∧ l.grantSent = false)) :
    ∃ l1, (afterMonitor (sendRevoking n .completed s)).leaseSlot n = { issue := k, lease := some l1 } ∧
      l1.isRevokingFor .completed ∧ l1.root = l.root := by
  have hgrant : l'.grantSent = l.grantSent := (congrArg Lease.grantSent hlasts.root :)
  have hrevocable : l'.Revocable := by
    refine ⟨hlasts.unended.live, ?_, ?_⟩
    · rw [hlasts.unended.kind]
      nofun
    · rw [hgrant, Ne, hlasts.offered]
      by_contra hno
      obtain ⟨hoffered, hunsent⟩ := not_or.mp hno
      exact hsent ⟨not_not.mp hoffered, Bool.eq_false_iff.mpr hunsent⟩
  have hnot : (l'.revoked .completed).state ≠ .suspended := by
    rw [state_revoked]
    decide
  have hrests : (sendRevoking n .completed s).rests n k (l'.revoked .completed) := by
    rw [sendRevoking_revocable _ (congrArg LeaseSlot.lease hslot) hrevocable]
    exact rests_resettle h1 rfl hnot s (rests_beginRevoking _ hslot)
  obtain ⟨l1, hslot1, hrev, hroot, -⟩ := revoked_of_rests (rests_afterMonitor h1 hrests)
  exact ⟨l1, hslot1, hrev, hroot.trans hlasts.root⟩

theorem unsent_of_lasts (h8 : n - 1 < 8) (hlasts : l.Lasts l') (hl : s.lease? n = some l')
    (hoffered : l.state = .offered) (hunsent : l.grantSent = false) :
    s.Retired n l' .completed (afterMonitor (sendRevoking n .completed s)) := by
  have hgrant : l'.grantSent = l.grantSent := (congrArg Lease.grantSent hlasts.root :)
  rw [sendRevoking_unsent hl (hlasts.offered.mpr hoffered) (hgrant.trans hunsent)]
  exact retired_afterMonitor (retired_resettle s (retired_dismiss h8 _ hl))

/-- A SANITISE lease of a table in order that is not in REVOKING. -/
theorem lasts_of_table (hs : s.tableInOrder) (hn : s.slotOfKind .sanitise = some n) (hl : s.lease? n = some l)
    (hlive : l.state ≠ .revoking) : s.lasts n (s.leaseSlot n).issue l := by
  obtain ⟨h1, h8, l0, hl0, hkind⟩ := slotOfKind_some hn
  obtain rfl := Option.some.inj (hl0.symm.trans hl)
  obtain ⟨-, -, -, -, -, hbudget, -, hsaved, hcontext, hhold, -⟩ := hs.1 n l0 h1 h8 hl
  have hnot {p : Prop} : ¬(p ∧ l0.kind ≠ .sanitise) := fun h => h.2 hkind
  refine ⟨hn, l0, congrArg (LeaseSlot.mk _) hl, rfl, Iff.rfl, hkind, ?_, ?_, hlive, hsaved.mp, fun ctx hctx => ?_⟩
  · by_contra h
    rcases hbudget h with e | e <;> exact nomatch hkind.symm.trans e
  · by_contra h
    exact hnot (hhold.mp h)
  · obtain ⟨hheat, hsavedHold⟩ := hcontext ctx hctx
    exact ⟨hheat, by_contra fun h => hnot (hsavedHold.mp h)⟩

/-- Settles O37: the hold by what the monitor reads, and the lease by what the sweep may have left of it before. -/
theorem aHeldTemperatureSanitises : Obligations.AHeldTemperatureSanitises := by
  intro r s hsweep counts m hot hold satisfied
  refine ⟨_, completeSweep_eq r hsweep, ?_⟩
  obtain ⟨hsanitise, hmap, hclock⟩ := beforeMonitor_reads r s
  have hcounts : (s.beforeMonitor r).holdCounts = true ↔ counts := by
    rw [holdCounts_iff, hsanitise, hclock]
  have hhot : (s.beforeMonitor r).isHot ↔ hot := by
    rw [State.isHot, hsanitise, hmap]
  have hreached : (s.beforeMonitor r).holdReached = true ↔
      counts ∧ (hold ≤ s.sanitise.accumulator ∨ (hot ∧ hold ≤ s.sanitise.accumulator + 10)) := by
    rw [holdReached_iff, hcounts, hhot, hsanitise]
  have hsatisfied (h : (s.beforeMonitor r).holdReached = true) : satisfied (afterMonitor (sanitiseSweep (s.beforeMonitor r))) := by
    obtain ⟨hset, hflag⟩ := monitor_reached h
    refine ⟨hset.trans ?_, hflag⟩
    rw [hsanitise, hclock]
  have hunsatisfied (h : ¬(s.beforeMonitor r).holdReached = true) :
      (afterMonitor (sanitiseSweep (s.beforeMonitor r))).sanitise =
        { s.sanitise with accumulator := (s.beforeMonitor r).accumulated } := by
    rw [monitor_unreached h, hsanitise]
  refine ⟨fun hc hover => hsatisfied (hreached.mpr ⟨hc, .inl hover⟩),
    fun hc _ hh hover => hsatisfied (hreached.mpr ⟨hc, .inr ⟨hh, hover⟩⟩), fun hc hh hunder => ?_, fun hc hunder hno => ?_,
    fun hno => ?_, fun htable hc hover hvalid n l hn hl hlive => ?_⟩
  · rw [hunsatisfied fun h => by rcases (hreached.mp h).2 with h | ⟨-, h⟩ <;> omega,
      accumulated_hot (hcounts.mpr hc) (hhot.mpr hh), hsanitise]
  · rw [hunsatisfied fun h => (hreached.mp h).2.elim (fun h => by omega) fun h => hno h.1,
      accumulated_else fun h => hno (hhot.mp h.2)]
  · rw [hunsatisfied fun h => hno (hreached.mp h).1, accumulated_else fun h => hno (hcounts.mp h.1)]
  · obtain ⟨h1, h8, -⟩ := slotOfKind_some hn
    have hlasts := lasts_satisfied (lasts_beforeMonitor r h1 hvalid (lasts_of_table htable hn hl hlive))
    rw [sanitiseSweep_reached (hreached.mpr ⟨hc, hover⟩), revokeSanitise_of_lasts _ hlasts]
    obtain ⟨-, l', hslot, hlasts⟩ := hlasts
    refine ⟨fun hunsent => ?_, fun hsent => sent_of_lasts h1 hlasts hslot hsent⟩
    have hretired := unsent_of_lasts (by omega) hlasts (congrArg LeaseSlot.lease hslot) hunsent.1 hunsent.2
    have hholder : l'.holder = l.holder := (congrArg Lease.holder hlasts.root :)
    have hdelivered : l'.delivered = l.delivered := (congrArg Lease.delivered hlasts.root :)
    have h7 : l'.holder ≤ 7 := by
      rw [hholder]
      exact (htable.1 n l h1 h8 hl).2.1
    refine ⟨hretired.slot.trans ?_, ?_, hretired.flagged⟩
    · rw [hslot]
    · rw [hretired.entry, ← hholder, entry_recorded _ h7, leaseHandle_eq hslot, hlasts.unended.kind, hdelivered]
      rfl

end Sys2Proof.Machine

/-! ### The rate of a lease that draws no budget (R87, R88, R90)

A free lease takes its entitlement and its demand at once and the arbiter neither takes from it nor gives to it. A slot
whose lease is so rated stays so, whatever work on leases follows. -/

namespace Sys2Proof.Machine
variable {s t b : State} {n m i : Nat} {l l' : Lease}

/-! #### What entitlement and demand read -/

/-- What the entitlement and the demand of a lease are read from, beside the lease. -/
def State.rateInputs (s : State) : Vector Entry 8 × Bool × Solar × Admission :=
  (s.roster.entries, s.roster.autoCap, s.solar, s.admission.desk)

theorem rateInputs_eq_iff :
    t.rateInputs = s.rateInputs ↔ t.roster.entries = s.roster.entries ∧ t.roster.autoCap = s.roster.autoCap ∧
      t.solar = s.solar ∧ t.admission.desk = s.admission.desk := by
  simp only [State.rateInputs, Prod.mk.injEq]

theorem rateInputs_of_calm (h : t.calm = s.calm) : t.rateInputs = s.rateInputs := by
  obtain ⟨-, -, -, hentries, hauto, hsolar, -, -, -, hdesk, -⟩ := calm_eq_iff.mp h
  exact rateInputs_eq_iff.mpr ⟨hentries, hauto, hsolar, hdesk⟩

section inputs

variable (h : t.rateInputs = s.rateInputs)
include h

theorem effectiveCap_of_inputs (i : Nat) : t.effectiveCap i = s.effectiveCap i := by
  obtain ⟨hentries, hauto, -, hdesk⟩ := rateInputs_eq_iff.mp h
  have hrating : t.admission.rating = s.admission.rating := (congrArg Admission.rating hdesk :)
  rw [State.effectiveCap, State.effectiveCap, State.entry, State.entry, hentries, hauto, hrating]

theorem drawsBudget_of_inputs (l : Lease) : t.drawsBudget l = s.drawsBudget l := by
  obtain ⟨hentries, -⟩ := rateInputs_eq_iff.mp h
  rw [State.drawsBudget, State.drawsBudget, State.entry, State.entry, hentries]

theorem entitlementOf_of_inputs (l : Lease) : t.entitlementOf l = s.entitlementOf l := by
  obtain ⟨-, -, -, hdesk⟩ := rateInputs_eq_iff.mp h
  have hrating : t.admission.rating = s.admission.rating := (congrArg Admission.rating hdesk :)
  rw [State.entitlementOf, State.entitlementOf, effectiveCap_of_inputs h, hrating]

end inputs

theorem demand_of_desk (hsolar : t.solar = s.solar) (hdesk : t.admission.desk = s.admission.desk) (l : Lease) :
    t.demand l = s.demand l := by
  have hrating : t.admission.rating = s.admission.rating := (congrArg Admission.rating hdesk :)
  have hguard : t.admission.guard = s.admission.guard := (congrArg Admission.guard hdesk :)
  rw [State.demand, State.demand, State.guarded, State.guarded, State.regulationCap, State.regulationCap, hsolar, hrating,
    hguard]

/-- The rate that is due to a lease drawing no budget: its demand where it has one. -/
def State.due (s : State) (l : Lease) : Nat := if l.state.hasDemand then s.demand l else 0

theorem due_of_inputs (h : t.rateInputs = s.rateInputs) (l : Lease) : t.due l = s.due l := by
  obtain ⟨-, -, hsolar, hdesk⟩ := rateInputs_eq_iff.mp h
  rw [State.due, State.due, demand_of_desk hsolar hdesk]

theorem entitlementOf_root (h : l'.root = l.root) : s.entitlementOf l' = s.entitlementOf l := by
  have hkind : l'.kind = l.kind := (congrArg Lease.kind h :)
  have hoffer : l'.offer = l.offer := (congrArg Lease.offer h :)
  have hholder : l'.holder = l.holder := (congrArg Lease.holder h :)
  rw [State.entitlementOf, State.entitlementOf, hkind, hoffer, hholder]

theorem demanding_of_core (h : l'.core = l.core) :
    l'.state.hasDemand = l.state.hasDemand ∧ (l'.state = .finishing ↔ l.state = .finishing) := by
  have hstates : ∀ a b : LeaseState,
      (if a.isRunning then LeaseState.admitted else a) = (if b.isRunning then .admitted else b) →
      a.hasDemand = b.hasDemand ∧ (a = .finishing ↔ b = .finishing) := by
    intro a b
    cases a <;> cases b <;> decide
  exact hstates _ _ (congrArg Lease.state h)

/-- The rate due is one for a lease in ADMITTED and in THROTTLED. -/
theorem due_of_core (h : l'.core = l.core) (hentitlement : l'.entitlement = l.entitlement) : s.due l' = s.due l := by
  obtain ⟨hdemand, hfinishing⟩ := demanding_of_core h
  have hkind : l'.kind = l.kind := (congrArg Lease.kind h :)
  unfold State.due State.demand State.guarded
  simp only [hdemand, hfinishing, hkind, hentitlement]

/-! #### A slot rated -/

/-- A lease of the free group that draws no budget, with the entitlement and the rate due to it. -/
structure State.Rates (s : State) (l : Lease) : Prop where
  free : l.kind.isBought = false
  drawsNone : s.drawsBudget l = false
  entitlement : l.entitlement = s.entitlementOf l
  granted : l.granted = s.due l

/-- The lease of slot `n`, if there is one, is rated. -/
def State.rated (s : State) (n : Nat) : Prop := ∀ l, s.lease? n = some l → s.Rates l

theorem rates_of_inputs (h : t.rateInputs = s.rateInputs) (hl : s.Rates l) : t.Rates l :=
  ⟨hl.free, (drawsBudget_of_inputs h l).trans hl.drawsNone, hl.entitlement.trans (entitlementOf_of_inputs h l).symm,
    hl.granted.trans (due_of_inputs h l).symm⟩

theorem rated_of_inputs (hl : t.lease? n = s.lease? n) (hinputs : t.rateInputs = s.rateInputs) (h : s.rated n) :
    t.rated n :=
  fun l ht => rates_of_inputs hinputs (h l (hl ▸ ht))

theorem rated_of_lease (hl : t.lease? n = s.lease? n) (hcalm : t.calm = s.calm) (h : s.rated n) : t.rated n :=
  rated_of_inputs hl (rateInputs_of_calm hcalm) h

theorem rated_modLease (m : Nat) (f : Lease → Lease) (hf : ∀ l, s.lease? m = some l → s.Rates l → s.Rates (f l))
    (h : s.rated n) : (s.modLease m f).rated n := by
  by_cases hmn : m - 1 = n - 1
  · intro l hl
    rw [lease_of_place hmn.symm, lease_modLease] at hl
    obtain ⟨l0, hl0, rfl⟩ := Option.map_eq_some_iff.mp hl
    exact rates_of_inputs (rateInputs_of_calm (calm_modLease m f s)) (hf l0 hl0 (h l0 ((lease_of_place hmn.symm s).trans hl0)))
  · exact rated_of_lease (lease_modLease_ne hmn f s) (calm_modLease m f s) h

theorem rated_place (i : Nat) (c : LinkCmd) (h : s.rated n) : (place i c s).rated n :=
  rated_of_lease (lease_of_admission (admission_place i c s) n) (calm_place i c s) h

/-- No lease of another kind than the free group's is a rated slot's. -/
theorem ne_of_rated (h : s.rated n) (hl : s.lease? m = some l) (hbought : l.kind.isBought = true) : m - 1 ≠ n - 1 := by
  intro hmn
  have hfree := (h l ((lease_of_place hmn.symm s).trans hl)).free
  rw [hbought] at hfree
  cases hfree

/-! #### The arbiter -/

theorem rated_followEntitlement (m : Nat) (h : s.rated n) : (followEntitlement s m).rated n :=
  rated_modLease m _ (fun l _ hl => by rw [← hl.entitlement]; exact hl) h

theorem rated_followDemand (b : State) (m : Nat) (h : s.rated n) : (followDemand b s m).rated n := by
  by_cases hmn : m - 1 = n - 1
  · unfold followDemand
    split
    · exact h
    · next l hl =>
      have hrates := h l ((lease_of_place hmn.symm s).trans hl)
      have hself {g : Nat} (hg : g = s.due l) : ∀ l', s.lease? m = some l' → s.Rates l' → s.Rates { l' with granted := g } := by
        intro l' hl' hr
        obtain rfl := Option.some.inj (hl.symm.trans hl')
        rw [hg, ← hr.granted]
        exact hr
      have hdue := hrates.granted
      split
      · next hdemand =>
        have hg : s.due l = s.demand l := if_pos hdemand
        rw [hrates.drawsNone, if_neg Bool.false_ne_true]
        exact rated_modLease m (fun l' => { l' with granted := s.demand l' }) (fun l' hl' hr => by
          obtain rfl := Option.some.inj (hl.symm.trans hl')
          exact hself hg.symm l hl hr) h
      · next hnone => exact rated_modLease m _ (hself (if_neg hnone).symm) h
  · have hne (f : Lease → Lease) : (s.modLease m f).rated n :=
      rated_of_lease (lease_modLease_ne hmn f s) (calm_modLease m f s) h
    unfold followDemand
    repeat' split
    · exact h
    all_goals exact hne _

/-- No allocation of the site budget is a rated slot's. -/
theorem ne_of_holdsAllocation (h : s.rated n) (hm : s.holdsAllocation m = true) : m - 1 ≠ n - 1 := by
  intro hmn
  obtain ⟨l, hl, hdraws⟩ := (Option.any_eq_true _ _).mp hm
  rw [(h l ((lease_of_place hmn.symm s).trans hl)).drawsNone, Bool.and_false] at hdraws
  cases hdraws

theorem holdsAllocation_of_order (hm : m ∈ s.offeredSlots ∨ m ∈ s.admittedSlots) : s.holdsAllocation m = true := by
  rcases hm with hm | hm
  · exact (Bool.and_eq_true_iff.mp (List.mem_filter.mp hm).2).1
  · exact (Bool.and_eq_true_iff.mp (List.mem_filter.mp hm).2).1

theorem rated_foldl {f : State → Nat → State} {slots : List Nat}
    (hf : ∀ u m, m ∈ slots → u.rated n → (f u m).rated n) (h : s.rated n) : (slots.foldl f s).rated n :=
  List.foldlRecOn (motive := fun t => t.rated n) slots f h fun t ht m hm => hf t m hm ht

theorem rated_elsewhere {f : State → Nat → State} {slots : List Nat} (hslots : ∀ m ∈ slots, m - 1 ≠ n - 1)
    (hf : ∀ u m, m - 1 ≠ n - 1 → (f u m).lease? n = u.lease? n) (hcalm : ∀ u m, (f u m).calm = u.calm) (h : s.rated n) :
    (slots.foldl f s).rated n :=
  rated_foldl (fun u m hm hu => rated_of_lease (hf u m (hslots m hm)) (hcalm u m) hu) h

theorem admission_stopTrial (s : State) : (stopTrial s).admission = s.admission := by
  unfold stopTrial
  split
  · rfl
  · dsimp only
    split
    · exact admission_place _ _ _
    · rfl

theorem rated_stopTrial (h : s.rated n) : (stopTrial s).rated n :=
  rated_of_lease (lease_of_admission (admission_stopTrial s) n) (calm_stopTrial s) h

theorem rated_removeExcess (h : s.rated n) : (removeExcess s).rated n := by
  have htaken : (s.removalOrder.foldl takePower s).rated n := by
    refine rated_elsewhere (fun m hm => ne_of_holdsAllocation h (holdsAllocation_of_order ?_))
      (fun u m hm => lease_modLease_ne hm _ u) (fun u m => calm_takePower u m) h
    rcases List.mem_append.mp hm with hm | hm
    · exact .inl (List.mem_reverse.mp hm)
    · exact .inr (List.mem_reverse.mp hm)
  unfold removeExcess
  dsimp only
  split
  · exact rated_stopTrial htaken
  · exact htaken

theorem lease_givePower_ne (hm : m - 1 ≠ n - 1) (s : State) : (givePower s m).lease? n = s.lease? n := by
  unfold givePower
  split
  · rfl
  · dsimp only
    split
    · rfl
    · exact lease_modLease_ne hm _ s

theorem rated_restorePower (h : s.rated n) : (restorePower s).rated n := by
  refine rated_elsewhere (fun m hm => ne_of_holdsAllocation h (holdsAllocation_of_order ?_))
    (fun u m hm => lease_givePower_ne hm u) (fun u m => calm_givePower u m) h
  exact (List.mem_append.mp hm).symm

theorem rates_settledState (valid : Bool) (h : s.Rates l) : s.Rates { l with state := settledState valid l } :=
  ⟨h.free, h.drawsNone, h.entitlement, h.granted.trans (due_of_core (core_settledState valid l) rfl).symm⟩

theorem rated_publishRate (b : State) (m : Nat) (h : s.rated n) : (publishRate b s m).rated n := by
  have hsettled : (s.modLease m fun l => { l with state := settledState s.map.valid l }).rated n :=
    rated_modLease m _ (fun l _ hl => rates_settledState s.map.valid hl) h
  unfold publishRate
  split
  · exact h
  · dsimp only
    split
    · exact rated_place _ _ hsettled
    · exact hsettled

theorem rated_settle (b : State) (h : s.rated n) : (settle b s).rated n := by
  have hdemands : (upTo8.foldl (followDemand b) (upTo8.foldl followEntitlement s)).rated n :=
    rated_foldl (fun u m _ hu => rated_followDemand b m hu)
      (rated_foldl (fun u m _ hu => rated_followEntitlement m hu) h)
  unfold settle
  dsimp only
  refine rated_foldl (fun u m _ hu => rated_publishRate b m hu) (rated_restorePower ?_)
  split
  · exact rated_removeExcess hdemands
  · exact hdemands

theorem rated_freeRates (b : State) (h : s.rated n) : (freeRates b s).rated n := by
  unfold freeRates
  exact rated_foldl (fun u m _ hu => rated_followDemand b m hu)
    (rated_foldl (fun u m _ hu => rated_followEntitlement m hu) h)

/-! #### The overlap test -/

theorem bought_of_toSuspend (hm : m ∈ s.toSuspend) : ∃ l, s.lease? m = some l ∧ l.kind.isBought = true := by
  obtain ⟨l, hl, hp⟩ := (Option.any_eq_true _ _).mp (List.mem_filter.mp hm).2
  simp only [Bool.and_eq_true] at hp
  exact ⟨l, hl, hp.1.1.1⟩

theorem bought_of_toResume (hm : m ∈ s.toResume) : ∃ l, s.lease? m = some l ∧ l.kind.isBought = true := by
  obtain ⟨l, hl, hp⟩ := (Option.any_eq_true _ _).mp (List.mem_filter.mp hm).2
  simp only [Bool.and_eq_true] at hp
  exact ⟨l, hl, hp.1.1⟩

theorem lease_beginRevoking_ne (hm : m - 1 ≠ n - 1) (l : Lease) (r : LeaseOutcome) (s : State) :
    (beginRevoking m l r s).lease? n = s.lease? n :=
  (lease_of_admission (admission_place _ _ _) n).trans (lease_modLease_ne hm _ s)

theorem rated_beginRevoking_ne (hm : m - 1 ≠ n - 1) (l : Lease) (r : LeaseOutcome) (h : s.rated n) :
    (beginRevoking m l r s).rated n :=
  rated_of_lease (lease_beginRevoking_ne hm l r s) (calm_beginRevoking m l r s) h

section elsewhere

variable (hm : m - 1 ≠ n - 1) (h : s.rated n)
include hm h

theorem rated_testFinishing_ne : (testFinishing m s).rated n := by
  have hbegun : (settling (beginFinishing m) s).rated n :=
    rated_settle s (rated_of_lease (lease_modLease_ne hm _ s) (calm_beginFinishing m s) h)
  have hback : (settling (fun t => t.modLease m fun l => { l with state := .admitted, hold := none }) s).rated n :=
    rated_settle s (rated_of_lease (lease_modLease_ne hm _ s) (calm_modLease m _ s) h)
  unfold testFinishing
  split
  · exact h
  · split
    · generalize settling (beginFinishing m) s = u at hbegun
      unfold endZeroHold
      split
      · exact hbegun
      · split
        · exact rated_settle u (rated_beginRevoking_ne hm _ _ hbegun)
        · exact hbegun
    · split
      · unfold recharge
        dsimp only
        split
        · exact hback
        · exact rated_place _ _ hback
      · exact h

theorem rated_beginSuspension_ne : (beginSuspension s m).rated n :=
  rated_of_lease (congrArg LeaseSlot.lease (leaseSlot_beginSuspension_ne hm s)) (calm_beginSuspension s m) h

theorem rated_beginResumption_ne : (beginResumption s m).rated n := by
  refine rated_of_lease ?_ (calm_beginResumption s m) h
  unfold beginResumption
  split
  · rfl
  · split
    · rfl
    · dsimp only
      split
      · exact (lease_beginRevoking_ne hm _ _ _).trans (lease_modLease_ne hm _ s)
      · split
        · exact lease_modLease_ne hm _ s
        · exact (lease_of_admission (admission_place _ _ _) n).trans (lease_modLease_ne hm _ s)

end elsewhere

theorem rated_announceResume (m : Nat) (h : s.rated n) : (announceResume s m).rated n := by
  unfold announceResume
  repeat' split
  · exact h
  · exact rated_place _ _ h
  · exact h

theorem rated_actOnOverlap (b : State) (h : s.rated n) : (actOnOverlap b s).rated n := by
  have hback : ∀ m ∈ s.toResume, m - 1 ≠ n - 1 := fun m hm => by
    obtain ⟨l, hl, hbought⟩ := bought_of_toResume hm
    exact ne_of_rated h hl hbought
  have haway : ∀ m ∈ s.toSuspend, m - 1 ≠ n - 1 := fun m hm => by
    obtain ⟨l, hl, hbought⟩ := bought_of_toSuspend hm
    exact ne_of_rated h hl hbought
  unfold actOnOverlap
  dsimp only
  refine rated_foldl (fun u m hm hu => rated_testFinishing_ne (hback m hm) hu)
    (rated_foldl (fun u m _ hu => rated_announceResume m hu) (rated_settle b ?_))
  exact rated_foldl (fun u m hm hu => rated_beginResumption_ne (hback m hm) hu)
    (rated_foldl (fun u m hm hu => rated_beginSuspension_ne (haway m hm) hu) h)

theorem rated_testOverlap (h : s.rated n) : (testOverlap s).rated n := by
  unfold testOverlap
  split
  · exact h
  · exact rated_actOnOverlap s h

theorem rated_callOffEvicted (h : s.rated n) : (callOffEvicted s).rated n := by
  have hcalled : (callOffTrial s).rated n := by
    rw [callOffTrial, settling]
    exact rated_settle s (rated_stopTrial h)
  unfold callOffEvicted
  repeat' split
  · exact h
  · exact hcalled
  · exact h

theorem rated_closing (h : s.rated n) : (closing s).rated n :=
  rated_of_lease (s := callOffEvicted (testOverlap s)) rfl rfl (rated_callOffEvicted (rated_testOverlap h))

/-! #### A slot comes to be rated -/

/-- What one step of a fold establishes, and the others keep, the fold has established. -/
theorem foldl_reaches {α : Type} {f : State → α → State} {P Q : State → Prop} {a : α} (hP : ∀ u b, P u → P (f u b))
    (ha : ∀ u, P u → Q (f u a)) (hQ : ∀ u b, Q u → Q (f u b)) {slots : List α} (hmem : a ∈ slots) (hs : P s) :
    Q (slots.foldl f s) := by
  induction slots generalizing s with
  | nil => cases hmem
  | cons b slots ih =>
    rw [List.foldl_cons]
    rcases List.mem_cons.mp hmem with rfl | hmem
    · exact List.foldlRecOn (motive := Q) slots f (ha s hs) fun u hu b _ => hQ u b hu
    · exact ih hmem (hP s b hs)

/-- The lease of slot `n` is of the free group and draws no budget. -/
def State.drawsNone (s : State) (n : Nat) : Prop :=
  ∀ l, s.lease? n = some l → l.kind.isBought = false ∧ s.drawsBudget l = false

/-- Such a lease has its entitlement, if not yet its rate. -/
def State.entitled (s : State) (n : Nat) : Prop :=
  ∀ l, s.lease? n = some l → l.kind.isBought = false ∧ s.drawsBudget l = false ∧ l.entitlement = s.entitlementOf l

theorem drawsBudget_modLease (m : Nat) (f : Lease → Lease) (l : Lease) (s : State) :
    (s.modLease m f).drawsBudget l = s.drawsBudget l :=
  drawsBudget_of_inputs (rateInputs_of_calm (calm_modLease m f s)) l

theorem entitlementOf_modLease (m : Nat) (f : Lease → Lease) (l : Lease) (s : State) :
    (s.modLease m f).entitlementOf l = s.entitlementOf l :=
  entitlementOf_of_inputs (rateInputs_of_calm (calm_modLease m f s)) l

/-- A lease of a slot after a change is the changed lease of the slot, or the slot is another. -/
theorem lease_of_modLease {f : Lease → Lease} (hl : (s.modLease m f).lease? n = some l) :
    ∃ l0, s.lease? n = some l0 ∧ (l = f l0 ∨ (l = l0 ∧ m - 1 ≠ n - 1)) := by
  by_cases hmn : m - 1 = n - 1
  · rw [lease_of_place hmn.symm, lease_modLease] at hl
    obtain ⟨l0, hl0, rfl⟩ := Option.map_eq_some_iff.mp hl
    exact ⟨l0, (lease_of_place hmn.symm s).trans hl0, .inl rfl⟩
  · rw [lease_modLease_ne hmn] at hl
    exact ⟨l, hl, .inr ⟨rfl, hmn⟩⟩

theorem drawsNone_followEntitlement (m : Nat) (h : s.drawsNone n) : (followEntitlement s m).drawsNone n := by
  intro l hl
  unfold followEntitlement at hl ⊢
  rw [drawsBudget_modLease]
  obtain ⟨l0, hl0, rfl | ⟨rfl, -⟩⟩ := lease_of_modLease hl
  · exact h l0 hl0
  · exact h l hl0

theorem entitled_followEntitlement (h : s.drawsNone n) : (followEntitlement s n).entitled n := by
  intro l hl
  unfold followEntitlement at hl ⊢
  rw [drawsBudget_modLease, entitlementOf_modLease]
  rw [lease_modLease] at hl
  obtain ⟨l0, hl0, rfl⟩ := Option.map_eq_some_iff.mp hl
  obtain ⟨hfree, hdraws⟩ := h l0 hl0
  exact ⟨hfree, hdraws, rfl⟩

theorem entitled_stays (m : Nat) (h : s.entitled n) : (followEntitlement s m).entitled n := by
  intro l hl
  unfold followEntitlement at hl ⊢
  rw [drawsBudget_modLease, entitlementOf_modLease]
  obtain ⟨l0, hl0, rfl | ⟨rfl, -⟩⟩ := lease_of_modLease hl
  · obtain ⟨hfree, hdraws, -⟩ := h l0 hl0
    exact ⟨hfree, hdraws, rfl⟩
  · exact h l hl0

/-- A change of rates alone. -/
theorem entitled_of_rate (m : Nat) (g : Lease → Nat) (w : Lease → Bool) (h : s.entitled n) :
    (s.modLease m fun l => { l with granted := g l, waiting := w l }).entitled n := by
  intro l hl
  rw [drawsBudget_modLease, entitlementOf_modLease]
  obtain ⟨l0, hl0, rfl | ⟨rfl, -⟩⟩ := lease_of_modLease hl
  · exact h l0 hl0
  · exact h l hl0

theorem entitled_followDemand (b : State) (m : Nat) (h : s.entitled n) : (followDemand b s m).entitled n := by
  unfold followDemand
  repeat' split
  · exact h
  · exact entitled_of_rate m s.demand (fun _ => false) h
  · exact entitled_of_rate m (fun l => min l.granted (s.demand l)) (·.waiting) h
  · exact entitled_of_rate m s.demand (·.waiting) h
  · exact entitled_of_rate m (fun _ => 0) (·.waiting) h

theorem rated_of_entitled (b : State) (h : s.entitled n) : (followDemand b s n).rated n := by
  unfold followDemand
  split
  · next hnone =>
    intro l hl
    rw [hnone] at hl
    cases hl
  · next l0 hl0 =>
    obtain ⟨hfree, hdraws, hentitled⟩ := h l0 hl0
    have hset (g : Nat) (hg : g = s.due l0) : s.Rates { l0 with granted := g } := ⟨hfree, hdraws, hentitled, hg⟩
    have hrated (g : Lease → Nat) (hg : g l0 = s.due l0) :
        (s.modLease n fun l => { l with granted := g l }).rated n := by
      intro l hl
      rw [lease_modLease, hl0] at hl
      cases hl
      exact rates_of_inputs (rateInputs_of_calm (calm_modLease n _ s)) (hset _ hg)
    split
    · next hdemand =>
      rw [hdraws, if_neg Bool.false_ne_true]
      exact hrated s.demand (if_pos hdemand).symm
    · next hnone => exact hrated (fun _ => 0) (if_neg hnone).symm

/-- The free leases' rates brought up to date. -/
theorem rated_of_freeRates (b : State) (h1 : 1 ≤ n) (h8 : n ≤ 8) (h : s.drawsNone n) : (freeRates b s).rated n := by
  have hmem : n ∈ upTo8 := mem_upTo8.mpr ⟨h1, h8⟩
  have hentitled : (upTo8.foldl followEntitlement s).entitled n :=
    foldl_reaches (P := fun u => u.drawsNone n) (Q := fun u => u.entitled n)
      (fun u m hu => drawsNone_followEntitlement m hu) (fun u hu => entitled_followEntitlement hu)
      (fun u m hu => entitled_stays m hu) hmem h
  unfold freeRates
  dsimp only
  generalize upTo8.foldl followEntitlement s = u at hentitled
  cases hl : u.lease? n with
  | none =>
    refine List.foldlRecOn (motive := fun t => t.rated n) _ (followDemand b) (fun l hl' => nomatch hl.symm.trans hl')
      fun t ht m _ => rated_followDemand b m ht
  | some l =>
    have hgroup : u.freeGroup n = true := by
      rw [State.freeGroup, hl, Option.any_some, (hentitled l hl).1]
      rfl
    exact foldl_reaches (P := fun u => u.entitled n) (Q := fun u => u.rated n)
      (fun u m hu => entitled_followDemand b m hu) (fun u hu => rated_of_entitled b hu)
      (fun u m hu => rated_followDemand b m hu) (List.mem_filter.mpr ⟨hmem, hgroup⟩) hentitled

theorem rated_of_resettle (b : State) (h1 : 1 ≤ n) (h8 : n ≤ 8) (h : s.drawsNone n) : (resettle b s).rated n := by
  have hrates := rated_of_freeRates b h1 h8 h
  unfold resettle
  dsimp only
  split
  · exact rated_settle b hrates
  · exact rated_actOnOverlap b hrates

/-- A free lease placed in a slot takes its demand (R64, R90). -/
theorem rated_putLease (h8 : n - 1 < 8) (hfree : l.kind.isBought = false) (hdraws : s.drawsBudget l = false)
    (hdemand : l.state.hasDemand = true) : (putLease n l s).rated n := by
  intro l' hl'
  have hset : (s.setLeaseSlot n { s.leaseSlot n with lease := some l }).lease? n = some l :=
    congrArg LeaseSlot.lease (leaseSlot_setLeaseSlot h8 _ _)
  have hcalm : (s.setLeaseSlot n { s.leaseSlot n with lease := some l }).calm = s.calm := rfl
  refine rates_of_inputs (rateInputs_of_calm (calm_putLease n l s)) ?_
  have hinputs := rateInputs_of_calm hcalm
  unfold putLease followEntitlement at hl'
  dsimp only at hl'
  generalize s.setLeaseSlot n { s.leaseSlot n with lease := some l } = u at *
  rw [lease_modLease, lease_modLease, hset] at hl'
  cases hl'
  have hentitlement := entitlementOf_of_inputs hinputs l
  refine ⟨hfree, hdraws, hentitlement, ?_⟩
  have hmod (f : Lease → Lease) : (u.modLease n f).rateInputs = s.rateInputs :=
    (rateInputs_of_calm (calm_modLease n f u)).trans hinputs
  obtain ⟨-, -, hsolar, hdesk⟩ := rateInputs_eq_iff.mp (hmod fun l => { l with entitlement := u.entitlementOf l })
  have hnone := (drawsBudget_of_inputs (hmod fun l => { l with entitlement := u.entitlementOf l })
    { l with entitlement := u.entitlementOf l }).trans hdraws
  refine (if_neg (by rw [hnone]; exact Bool.false_ne_true)).trans ?_
  rw [demand_of_desk hsolar hdesk]
  exact (if_pos hdemand).symm

end Sys2Proof.Machine

/-! ### A command that waits for its station at the end of a step (R140, R142)

A command placed may make room by removing the QUALIFY of a trial, which the closing then calls off; the QUALIFY of rate
0 that follows takes the place of an older command. -/

namespace Sys2Proof.Machine
variable {q q' p : List Queued} {bears : LinkCmd → Bool} {y z : Queued} {c : LinkCmd} {age : Nat}

/-! #### In the queue -/

/-- A command waits where the next placing leaves it: in a queue with room, or at the tail behind another. -/
def Secure (c : LinkCmd) (q : List Queued) : Prop :=
  (q.length < 4 ∧ ∃ z ∈ q, z.cmd = c) ∨ ∃ x p z, q = x :: p ++ [z] ∧ z.cmd = c

theorem startsTrial_qualify (h : c.isQualify = false) : c.startsTrial = false := by
  cases c with
  | qualify => cases h
  | _ => rfl

/-- Where no command bears a lease a QUALIFY leaves a secure command waiting. -/
theorem waits_placeQualify (rate : Nat) (hbears : ∀ c', bears c' = false) (hc : c.isQualify = false) (h : Secure c q) :
    ∃ z ∈ placeQualify bears rate age q, z.cmd = c := by
  obtain ⟨z, hz, hzc⟩ : ∃ z ∈ q, z.cmd = c := by
    rcases h with ⟨-, hz⟩ | ⟨x, p, z, rfl, hzc⟩
    · exact hz
    · exact ⟨z, by simp, hzc⟩
  unfold placeQualify
  split
  · refine ⟨z, List.mem_filter.mpr ⟨hz, ?_⟩, hzc⟩
    rw [hzc]
    simpa using startsTrial_qualify hc
  · unfold replaceOrEnqueue
    split
    · exact ⟨z, mem_replaceFirst hz (by rw [hzc]; exact hc), hzc⟩
    · have hroom : z ∈ makeRoom bears q ∨ ∃ z ∈ makeRoom bears q, z.cmd = c := by
        rcases h with ⟨hlength, -⟩ | ⟨x, p, z', rfl, hz'⟩
        · rw [makeRoom, if_pos hlength]
          exact .inl hz
        · right
          unfold makeRoom
          split
          · exact ⟨z', by simp, hz'⟩
          · refine ⟨z', ?_, hz'⟩
            rw [if_pos (by simp [anyWaiting, hbears])]
            simp [removeFirst, hbears]
      have hplace : takesSetRatePlace (.qualify rate) q = false := rfl
      unfold enqueue
      rw [hplace, if_neg Bool.false_ne_true]
      rcases hroom with hmem | ⟨z', hmem, hz'⟩
      · exact ⟨z, List.mem_append_left _ hmem, hzc⟩
      · exact ⟨z', List.mem_append_left _ hmem, hz'⟩

/-- What placing a command leaves of a queue: it waits; a QUALIFY that starts a trial is gone only where the command has
come to the tail of a full queue; and the queue is no more than one command longer. -/
structure Lands (c : LinkCmd) (q q' : List Queued) : Prop where
  waits : ∃ z ∈ q', z.cmd = c
  room : (∀ y ∈ q, y.cmd.startsTrial = true → y ∈ q') ∨ Secure c q'
  length : q'.length ≤ q.length + 1

theorem length_makeRoom_ge (q : List Queued) : q.length ≤ (makeRoom bears q).length + 1 := by
  unfold makeRoom
  split
  · omega
  · split
    · have hfirst : ∀ l : List Queued, l.length ≤ (removeFirst (fun c => !bears c) l).length + 1 := by
        intro l
        induction l with
        | nil => exact Nat.zero_le _
        | cons x l ih =>
          unfold removeFirst
          split
          · exact Nat.le_refl _
          · simp only [List.length_cons]
            omega
      exact hfirst q
    · rw [List.length_tail]
      omega

theorem lands_enqueue (hplace : takesSetRatePlace c q = false) : Lands c q (enqueue bears { cmd := c, age := age } q) := by
  have hqueue : enqueue bears { cmd := c, age := age } q = makeRoom bears q ++ [{ cmd := c, age := age }] := by
    rw [enqueue, hplace, if_neg Bool.false_ne_true]
  rw [hqueue]
  refine ⟨⟨{ cmd := c, age := age }, by simp, rfl⟩, ?_, ?_⟩
  · by_cases hfull : q.length < 4
    · left
      intro y hy _
      rw [makeRoom, if_pos hfull]
      exact List.mem_append_left _ hy
    · right
      have hlong := length_makeRoom_ge (bears := bears) q
      cases hroom : makeRoom bears q with
      | nil =>
        rw [hroom] at hlong
        simp only [List.length_nil] at hlong
        omega
      | cons x p => exact .inr ⟨x, p, _, rfl, rfl⟩
  · have hsub := (sublist_makeRoom (bears := bears) q).length_le
    simp only [List.length_append, List.length_singleton]
    omega

/-- Only a QUALIFY starts a trial. -/
theorem qualify_of_startsTrial {c : LinkCmd} (h : c.startsTrial = true) : ∃ rate, c = .qualify rate := by
  cases c with
  | qualify rate => exact ⟨rate, rfl⟩
  | _ => cases h

theorem lands_replaceOrEnqueue {test : LinkCmd → Bool} (hplace : takesSetRatePlace c q = false)
    (htest : ∀ c', c'.startsTrial = true → test c' = false) :
    Lands c q (replaceOrEnqueue bears test { cmd := c, age := age } q) := by
  unfold replaceOrEnqueue
  split
  · next hwaits =>
    exact ⟨waits_replaceFirst hwaits, .inl fun y hy hstarts => mem_replaceFirst hy (htest _ hstarts), by simp⟩
  · exact lands_enqueue hplace

theorem lands_refuse (why : RefuseReason) (v : LeaseView) (q : List Queued) :
    Lands (.refuse why) q (coalesce bears v (.refuse why) age q) :=
  lands_replaceOrEnqueue rfl fun _ hc' => by
    obtain ⟨rate, rfl⟩ := qualify_of_startsTrial hc'
    rfl

theorem lands_revoke (h : Handle) (v : LeaseView) (q : List Queued) :
    Lands (.revoke h) q (coalesce bears v (.revoke h) age q) := by
  have hleft : ∀ y ∈ q, y.cmd.startsTrial = true → y ∈ removeAll (fun c => c.handle? == some h && !c.isRevoke h) q := by
    intro y hy hstarts
    refine List.mem_filter.mpr ⟨hy, ?_⟩
    have hhandle : y.cmd.handle? = none := by
      obtain ⟨rate, hcmd⟩ := qualify_of_startsTrial hstarts
      rw [hcmd]
      rfl
    simp [hhandle]
  have hlength : (removeAll (fun c => c.handle? == some h && !c.isRevoke h) q).length ≤ q.length := List.length_filter_le _ _
  refine ⟨waits_placeRevoke, ?_, ?_⟩
  · unfold coalesce placeRevoke
    dsimp only
    split
    · exact .inl hleft
    · exact (lands_enqueue rfl).room.imp_left fun hkept y hy hstarts => hkept y (hleft y hy hstarts) hstarts
  · unfold coalesce placeRevoke
    dsimp only
    split
    · omega
    · have hlanded := (lands_enqueue (bears := bears) (c := .revoke h) (age := age)
        (q := removeAll (fun c => c.handle? == some h && !c.isRevoke h) q) rfl).length
      omega

theorem length_placeQualify (rate : Nat) (q : List Queued) : (placeQualify bears rate age q).length ≤ q.length + 1 := by
  unfold placeQualify
  split
  · exact (List.length_filter_le _ _).trans (Nat.le_succ _)
  · unfold replaceOrEnqueue
    split
    · simp
    · exact (lands_enqueue (c := .qualify rate) rfl).length

theorem lands_waiting (h : ∃ z ∈ q, z.cmd = c) : Lands c q q := ⟨h, .inl fun _ hy _ => hy, Nat.le_succ _⟩

end Sys2Proof.Machine

/-! #### The queue of a station without a lease -/

namespace Sys2Proof.Machine
variable {s t u w b : State} {i j m n : Nat} {l : Lease} {q : List Queued} {c : LinkCmd} {x : Exchange}

theorem holder_ne_of_unheld (h : s.slotHeldBy i = none) (hl : s.lease? m = some l) : l.holder ≠ i := by
  intro hi
  have hnot := List.find?_eq_none.mp h
  have hmem (k : Nat) (h1 : 1 ≤ k) (h8 : k ≤ 8) (hk : s.lease? k = some l) : False := by
    refine hnot k (mem_upTo8.mpr ⟨h1, h8⟩) ?_
    rw [hk, Option.any_some]
    exact beq_iff_eq.mpr hi
  by_cases h8 : m ≤ 8
  · by_cases h1 : 1 ≤ m
    · exact hmem m h1 h8 hl
    · exact hmem 1 (by decide) (by decide) ((lease_of_place (n := m) (m := 1) (by omega) s).symm.trans hl)
  · rw [State.lease?, State.leaseSlot, tget_of_le _ _ _ (by omega)] at hl
    cases hl

theorem bears_of_unheld (h : s.slotHeldBy i = none) (c : LinkCmd) : s.bears i c = false := by
  unfold State.bears State.handleHeldBy
  rw [h]
  cases c.handle? <;> rfl

/-- No trial runs, station `i` holds no lease, and this is its queue. -/
structure State.Apart (s : State) (i : Nat) (q : List Queued) : Prop where
  queue : (s.station i).queue = q
  trial : s.roster.trial = none
  holders : ∀ m l, s.lease? m = some l → l.holder ≠ i

theorem apart_modLease (m : Nat) (f : Lease → Lease) (hf : ∀ l, (f l).holder = l.holder) (h : s.Apart i q) :
    (s.modLease m f).Apart i q := by
  refine ⟨h.queue, h.trial, fun k l hl => ?_⟩
  by_cases hmk : m - 1 = k - 1
  · rw [lease_of_place hmk.symm, lease_modLease] at hl
    obtain ⟨l0, hl0, rfl⟩ := Option.map_eq_some_iff.mp hl
    rw [hf]
    exact h.holders m l0 hl0
  · rw [lease_modLease_ne hmk] at hl
    exact h.holders k l hl

theorem trial_place (j : Nat) (c : LinkCmd) (s : State) : (place j c s).roster = s.roster := by
  unfold place
  split
  · rfl
  · unfold markOvertaken
    split <;> rfl

theorem apart_place (hj : j ≠ i) (c : LinkCmd) (h : s.Apart i q) : (place j c s).Apart i q := by
  refine ⟨(congrArg Station.queue (station_place_ne hj c s)).trans h.queue, ?_, fun m l hl => ?_⟩
  · rw [trial_place]
    exact h.trial
  · rw [lease?_place] at hl
    exact h.holders m l hl

theorem apart_foldl {f : State → Nat → State} (hf : ∀ u m, u.Apart i q → (f u m).Apart i q) (slots : List Nat)
    (h : s.Apart i q) : (slots.foldl f s).Apart i q :=
  List.foldlRecOn (motive := fun t => t.Apart i q) slots f h fun t ht m _ => hf t m ht

theorem apart_followEntitlement (m : Nat) (h : s.Apart i q) : (followEntitlement s m).Apart i q :=
  apart_modLease m _ (fun _ => rfl) h

theorem apart_followDemand (b : State) (m : Nat) (h : s.Apart i q) : (followDemand b s m).Apart i q := by
  unfold followDemand
  repeat' split
  · exact h
  all_goals exact apart_modLease m _ (fun _ => rfl) h

theorem apart_givePower (m : Nat) (h : s.Apart i q) : (givePower s m).Apart i q := by
  unfold givePower
  split
  · exact h
  · dsimp only
    split
    · exact h
    · exact apart_modLease m _ (fun _ => rfl) h

theorem apart_removeExcess (h : s.Apart i q) : (removeExcess s).Apart i q := by
  have htaken := apart_foldl (f := takePower) (fun u m hu => apart_modLease m _ (fun _ => rfl) hu) s.removalOrder h
  unfold removeExcess
  dsimp only
  split
  · unfold stopTrial
    rw [htaken.trial]
    exact htaken
  · exact htaken

theorem apart_publishRate (b : State) (m : Nat) (h : s.Apart i q) : (publishRate b s m).Apart i q := by
  have hsettled : (s.modLease m fun l => { l with state := settledState s.map.valid l }).Apart i q :=
    apart_modLease m _ (fun _ => rfl) h
  unfold publishRate
  split
  · exact h
  · next l hl =>
    dsimp only
    split
    · exact apart_place (h.holders m l hl) _ hsettled
    · exact hsettled

/-- The arbiter tells the stations that hold leases. -/
theorem apart_settle (b : State) (h : s.Apart i q) : (settle b s).Apart i q := by
  have hdemands : (upTo8.foldl (followDemand b) (upTo8.foldl followEntitlement s)).Apart i q :=
    apart_foldl (fun u m hu => apart_followDemand b m hu) upTo8
      (apart_foldl (fun u m hu => apart_followEntitlement m hu) upTo8 h)
  unfold settle
  dsimp only
  refine apart_foldl (fun u m hu => apart_publishRate b m hu) upTo8
    (apart_foldl (fun u m hu => apart_givePower m hu) _ ?_)
  split
  · exact apart_removeExcess hdemands
  · exact hdemands

/-- A command waits for station `i`. -/
def State.awaits (s : State) (i : Nat) (c : LinkCmd) : Prop := ∃ y ∈ (s.station i).queue, y.cmd = c

theorem awaits_of_queue (h : (t.station i).queue = (s.station i).queue) (hs : s.awaits i c) : t.awaits i c := by
  rw [State.awaits, h]
  exact hs

/-- The trial that is called off at the end of a step leaves a command waiting for a station without a lease. -/
theorem awaits_callOffTrial (hi : 1 ≤ i ∧ i ≤ 7) (hfree : s.slotHeldBy i = none) (hc : c.isQualify = false)
    (hsecure : ∀ y, s.roster.trial = some y → y.entry = i → Secure c (s.station i).queue) (h : s.awaits i c) :
    (callOffTrial s).awaits i c := by
  have hheld : ∀ m l, s.lease? m = some l → l.holder ≠ i := fun m l hl => holder_ne_of_unheld hfree hl
  obtain ⟨q, hq, hstopped⟩ : ∃ q, (∃ z ∈ q, z.cmd = c) ∧ (stopTrial s).Apart i q := by
    unfold stopTrial
    split
    · next hnone => exact ⟨_, h, rfl, hnone, hheld⟩
    · next y hy =>
      dsimp only
      have hgone : (s.modRoster fun r => { r with trial := none }).Apart i (s.station i).queue := ⟨rfl, rfl, hheld⟩
      split
      · by_cases hyi : y.entry = i
        · rw [hyi]
          refine ⟨_, ?_, rfl, ?_, fun m l hl => ?_⟩
          · rw [queue_place hi.1 hi.2]
            exact waits_placeQualify 0 (bears_of_unheld (s := s.modRoster fun r => { r with trial := none }) hfree) hc
              (hsecure y hy hyi)
          · rw [trial_place]
            rfl
          · rw [lease?_place] at hl
            exact hheld m l hl
        · exact ⟨_, h, apart_place hyi _ hgone⟩
      · exact ⟨_, h, hgone⟩
  have hsettled : (callOffTrial s).Apart i q := by
    rw [callOffTrial, settling]
    exact apart_settle s hstopped
  rw [State.awaits, hsettled.queue]
  exact hq

theorem awaits_callOffEvicted (hi : 1 ≤ i ∧ i ≤ 7) (hfree : s.slotHeldBy i = none) (hc : c.isQualify = false)
    (hsecure : ∀ y, s.roster.trial = some y → y.entry = i → s.qualifyOutstanding i = false →
      y.window = none → Secure c (s.station i).queue) (h : s.awaits i c) : (callOffEvicted s).awaits i c := by
  unfold callOffEvicted
  split
  · exact h
  · next y hy =>
    split
    · next hout =>
      obtain ⟨hwindow, hout⟩ := Bool.and_eq_true_iff.mp hout
      refine awaits_callOffTrial hi hfree hc (fun y' hy' hyi => ?_) h
      obtain rfl := Option.some.inj (hy.symm.trans hy')
      refine hsecure y hy hyi ?_ (Option.isNone_iff_eq_none.mp hwindow)
      rw [hyi] at hout
      exact Bool.not_eq_true' _ |>.mp hout
    · exact h

/-! #### A closing with nothing to do but for a trial -/

theorem overlap_congr (hadm : t.admission = s.admission) (hbook : t.book = s.book) (hclock : t.clock = s.clock) :
    t.toSuspend = s.toSuspend ∧ t.toResume = s.toResume := by
  have hlease : t.lease? = s.lease? := funext fun n => lease_of_admission hadm n
  have hover : t.overlapped = s.overlapped := by
    funext l
    rw [State.overlapped, State.overlapped, hlease]
  have hnear : t.nearDue = s.nearDue := by
    funext l
    unfold State.nearDue State.recordOf? State.record? State.bookSlot
    rw [hbook, hclock]
  unfold State.toSuspend State.toResume
  rw [hlease, hover, hnear]
  exact ⟨rfl, rfl⟩

theorem testOverlap_calm (hsuspend : s.toSuspend = []) (hresume : s.toResume = []) : testOverlap s = s :=
  if_pos (by rw [State.overlapCalm, hsuspend, hresume]; rfl)

theorem callOffEvicted_calm
    (h : ∀ y, s.roster.trial = some y → y.window = none → s.qualifyOutstanding y.entry = true) : callOffEvicted s = s := by
  unfold callOffEvicted
  split
  · rfl
  · next y hy =>
    refine if_neg fun hout => ?_
    obtain ⟨hwindow, hout⟩ := Bool.and_eq_true_iff.mp hout
    rw [h y hy (Option.isNone_iff_eq_none.mp hwindow)] at hout
    cases hout

/-! #### A command placed by a STATUS -/

/-- A STATUS has placed a command for its station: no lease, record or trial is changed, no exchange is in flight, and
the command has landed in the station's queue. -/
structure State.Tells (s : State) (i : Nat) (c : LinkCmd) (u : State) : Prop where
  admission : u.admission = s.admission
  book : u.book = s.book
  clock : u.clock = s.clock
  trial : u.roster.trial = s.roster.trial
  states : ∀ j, (u.entry j).state = (s.entry j).state
  idle : u.link.exchange = none
  others : ∀ j, j ≠ i → (u.station j).queue = (s.station j).queue
  lands : Lands c (s.station i).queue (u.station i).queue

theorem slotHeldBy_of_admission (h : t.admission = s.admission) (i : Nat) : t.slotHeldBy i = s.slotHeldBy i := by
  have hlease : t.lease? = s.lease? := funext fun n => lease_of_admission h n
  rw [State.slotHeldBy, State.slotHeldBy, hlease]

/-- With a POLL in flight a QUALIFY that starts a trial is outstanding where it waits. -/
theorem outstanding_of_poll (hx : s.link.exchange = some x) (hcmd : x.cmd = .poll) (i : Nat) :
    s.qualifyOutstanding i = anyWaiting (·.startsTrial) (s.station i).queue := by
  rw [State.qualifyOutstanding, State.inFlightTo, hx, Option.any_some, hcmd]
  simp [LinkCmd.startsTrial]

theorem outstanding_of_idle (hnone : s.link.exchange = none) (i : Nat) :
    s.qualifyOutstanding i = anyWaiting (·.startsTrial) (s.station i).queue := by
  rw [State.qualifyOutstanding, State.inFlightTo, hnone]
  simp

theorem anyWaiting_of_kept {p q : List Queued} (h : ∀ y ∈ p, y.cmd.startsTrial = true → y ∈ q)
    (hp : anyWaiting (·.startsTrial) p = true) : anyWaiting (·.startsTrial) q = true := by
  obtain ⟨y, hy, hstarts⟩ := List.any_eq_true.mp hp
  exact List.any_eq_true.mpr ⟨y, h y hy hstarts, hstarts⟩

/-- The station that holds a lease is READY. -/
theorem ready_of_held (hs : s.tableInOrder) (hi : 1 ≤ i) (hn : s.slotHeldBy i = some n) : (s.entry i).state = .ready := by
  obtain ⟨h1, h8, l, hl, hholder⟩ := held_of_slotHeldBy hn
  obtain ⟨-, -, hready, -⟩ := hs.1 n l h1 h8 hl
  rw [hholder] at hready
  exact hready (by omega)

theorem qualifying_of_trial (hs : s.tableInOrder) {y : Trial} (hy : s.roster.trial = some y) :
    (s.entry y.entry).state = .qualifying := by
  obtain ⟨-, -, -, -, -, -, htrial, -⟩ := hs
  exact (htrial y hy).2.2

section told

variable (hs : s.tableInOrder) (hi : 1 ≤ i ∧ i ≤ 7) (hset : s.isSettled) (hx : s.link.exchange = some x)
  (hcmd : x.cmd = .poll) (hc : c.isQualify = false) (h : s.Tells i c u)
include hs hi hset hx hcmd hc h

/-- The trial's QUALIFY that a command placed has removed was removed for room: the command is secure. -/
theorem awaits_told_evicted : (callOffEvicted u).awaits i c := by
  obtain ⟨-, -, houtstanding⟩ := hset
  have hwaiting {y : Trial} (hy : u.roster.trial = some y) (hwindow : y.window = none) :
      anyWaiting (·.startsTrial) (s.station y.entry).queue = true := by
    rw [← outstanding_of_poll hx hcmd]
    exact houtstanding y (h.trial ▸ hy) hwindow
  cases hheld : s.slotHeldBy i with
  | none =>
    refine awaits_callOffEvicted hi ((slotHeldBy_of_admission h.admission i).trans hheld) hc
      (fun y hy hyi hout hwindow => ?_) h.lands.waits
    rcases h.lands.room with hkept | hsecure
    · rw [outstanding_of_idle h.idle, anyWaiting_of_kept hkept (hyi ▸ hwaiting hy hwindow)] at hout
      cases hout
    · exact hsecure
  | some n =>
    rw [callOffEvicted_calm fun y hy hwindow => ?_]
    · exact h.lands.waits
    · have hne : y.entry ≠ i := fun e => by
        have hqualifying := qualifying_of_trial hs (h.trial ▸ hy)
        rw [e, ready_of_held hs hi.1 hheld] at hqualifying
        cases hqualifying
      rw [outstanding_of_idle h.idle, h.others _ hne]
      exact hwaiting hy hwindow

omit hset hx hcmd in
/-- An entry that leaves IDENTIFYING had no command waiting: the one placed is alone, but for its trial's QUALIFY. -/
theorem awaits_told_identifying (hstate : (s.entry i).state = .identifying) (hqueue : (s.station i).queue = []) :
    ((leaveIdentifying i u).station i).queue.length < 4 ∧ (leaveIdentifying i u).awaits i c := by
  have hlength := h.lands.length
  rw [hqueue, List.length_nil] at hlength
  have hheld : u.slotHeldBy i = none := by
    rw [slotHeldBy_of_admission h.admission]
    cases hheld : s.slotHeldBy i with
    | none => rfl
    | some n =>
      have hready := ready_of_held hs hi.1 hheld
      rw [hstate] at hready
      cases hready
  have hkept (f : Entry → Entry) : ((u.modEntry i f).station i).queue = (u.station i).queue := rfl
  have htried (f : Entry → Entry) : ((tryTrial (u.modEntry i f)).station i).queue.length < 4 ∧
      (tryTrial (u.modEntry i f)).awaits i c := by
    have hstay : ((u.modEntry i f).station i).queue.length < 4 ∧ (u.modEntry i f).awaits i c := by
      refine ⟨?_, h.lands.waits⟩
      rw [hkept]
      omega
    unfold tryTrial
    split
    · exact hstay
    · split
      · exact hstay
      · next j _ =>
        unfold startTrial
        by_cases hji : j = i
        · subst hji
          rw [State.awaits, queue_place hi.1 hi.2]
          refine ⟨(length_placeQualify _ _).trans_lt ?_,
            waits_placeQualify _ (bears_of_unheld hheld) hc (.inl ⟨hstay.1, hstay.2⟩)⟩
          have hsame : ∀ r : Roster → Roster, (((u.modEntry j f).modRoster r).station j).queue = (u.station j).queue :=
            fun _ => rfl
          rw [hsame]
          omega
        · rw [State.awaits, station_place_ne hji]
          exact hstay
  unfold leaveIdentifying
  split
  · split
    · exact htried _
    · exact ⟨by rw [hkept]; omega, h.lands.waits⟩
  · exact ⟨by omega, h.lands.waits⟩

end told

/-! #### The step closed -/

theorem leaving_blocks (i : Nat) (u : State) :
    (leaveIdentifying i u).admission = u.admission ∧ (leaveIdentifying i u).book = u.book ∧
      (leaveIdentifying i u).clock = u.clock := by
  have htried (s : State) : (tryTrial s).admission = s.admission ∧ (tryTrial s).book = s.book ∧
      (tryTrial s).clock = s.clock := by
    obtain ⟨-, hbook, -, -, -, -, -, hclock, -⟩ := calm_eq_iff.mp (calm_tryTrial s)
    refine ⟨?_, hbook, hclock⟩
    unfold tryTrial
    repeat' split
    · rfl
    · rfl
    · exact admission_place _ _ _
  unfold leaveIdentifying
  split
  · split
    · exact htried _
    · exact ⟨rfl, rfl, rfl⟩
  · exact ⟨rfl, rfl, rfl⟩

/-- In a part whose closing has nothing to do the command that a STATUS has placed waits at the end of the step. -/
theorem awaits_told (hs : s.tableInOrder) (hi : 1 ≤ i ∧ i ≤ 7) (hset : s.isSettled)
    (hq : (s.entry i).state = .identifying → (s.station i).queue = []) (hx : s.link.exchange = some x)
    (hcmd : x.cmd = .poll) (hc : c.isQualify = false) (h : s.Tells i c u) :
    ((leaveIdentifying i u).concluded x).awaits i c := by
  obtain ⟨hadm, hbook, hclock⟩ := leaving_blocks i u
  obtain ⟨k, hk, hstations, hexchange, -⟩ := afterEnumerated_eq x (leaveIdentifying i u)
  have hover : testOverlap (afterEnumerated x (leaveIdentifying i u)) = afterEnumerated x (leaveIdentifying i u) := by
    rw [hk]
    obtain ⟨hsuspend, hresume⟩ := overlap_congr (s := s) (t := (leaveIdentifying i u).modLink fun _ => k)
      (hadm.trans h.admission) (hbook.trans h.book) (hclock.trans h.clock)
    exact testOverlap_calm (hsuspend.trans hset.1) (hresume.trans hset.2.1)
  suffices hcalled : (callOffEvicted (afterEnumerated x (leaveIdentifying i u))).awaits i c by
    rw [State.concluded, closing, hover]
    exact hcalled
  have hstation (j : Nat) : ((leaveIdentifying i u).modLink fun _ => k).station j = (leaveIdentifying i u).station j := by
    rw [State.station, State.station, modLink_link, hstations]
  rw [hk]
  by_cases hstate : (s.entry i).state = .identifying
  · obtain ⟨hlength, hwaits⟩ := awaits_told_identifying hs hi hc h hstate (hq hstate)
    refine awaits_callOffEvicted hi ?_ hc (fun y _ _ _ _ => .inl ?_) ?_
    · have hheld := slotHeldBy_of_admission (s := s) (t := (leaveIdentifying i u).modLink fun _ => k)
        (hadm.trans h.admission) i
      rw [hheld]
      cases hn : s.slotHeldBy i with
      | none => rfl
      | some n => exact nomatch hstate.symm.trans (ready_of_held hs hi.1 hn)
    · rw [hstation]
      exact ⟨hlength, hwaits⟩
    · exact awaits_of_queue (congrArg Station.queue (hstation i)) hwaits
  · have hstays : leaveIdentifying i u = u := if_neg (by rw [h.states]; exact hstate)
    rw [hstays] at hstation hexchange ⊢
    have hqueue (j : Nat) : ((u.modLink fun _ => k).station j).queue = (u.station j).queue :=
      congrArg Station.queue (hstation j)
    refine awaits_told_evicted hs hi hset hx hcmd hc
      ⟨h.admission, h.book, h.clock, h.trial, h.states, hexchange.trans h.idle, fun j hj => (hqueue j).trans (h.others j hj), ?_⟩
    rw [hqueue]
    exact h.lands

end Sys2Proof.Machine

/-! ### The handle a STATUS names, and its item (R140, R141) -/

namespace Sys2Proof.Machine
variable {s t u v w : State} {n m i j a e : Nat} {l l' : Lease} {x : Exchange} {flags : Byte} {h : Handle}
  {c : LinkCmd} {believed : Option Handle} {item : Option Item} {out : LeaseOutcome}

/-! #### Work that places no more than a command -/

/-- But for the entry heard and what the link counts and records, this is the part that received the answer. -/
structure State.Unmoved (s u : State) : Prop where
  admission : u.admission = s.admission
  book : u.book = s.book
  clock : u.clock = s.clock
  trial : u.roster.trial = s.roster.trial
  states : ∀ j, (u.entry j).state = (s.entry j).state
  idle : u.link.exchange = none
  queues : ∀ j, (u.station j).queue = (s.station j).queue

theorem unmoved_heard (h7 : i ≤ 7) (s : State) : s.Unmoved (s.heard i) := by
  refine ⟨rfl, rfl, rfl, rfl, fun j => ?_, rfl, fun j => rfl⟩
  by_cases hj : j = i
  · rw [hj, heard_entry h7]
  · rw [heard_entry_ne hj]

theorem unmoved_countStale (hu : s.Unmoved u) : s.Unmoved u.countStale :=
  ⟨hu.admission, hu.book, hu.clock, hu.trial, hu.states, hu.idle, hu.queues⟩

theorem queue_recordFlags (i : Nat) (flags : Byte) (u : State) (j : Nat) :
    ((recordFlags i flags u).station j).queue = (u.station j).queue := by
  have hsame : (recordFlags i flags u).station j = (u.modStation i fun t => { t with
      status := some { flags := flags, day := u.clock.day, minute := u.clock.minute, second := u.clock.second } }).station
        j := rfl
  rw [hsame]
  rcases station_modStation i j (fun t => { t with
    status := some { flags := flags, day := u.clock.day, minute := u.clock.minute, second := u.clock.second } }) u with
    ⟨hq, -⟩ | hq
  · rw [hq]
  · rw [hq]

theorem unmoved_recordFlags (i : Nat) (flags : Byte) (hu : s.Unmoved u) : s.Unmoved (recordFlags i flags u) :=
  ⟨hu.admission, hu.book, hu.clock, hu.trial, hu.states, hu.idle,
    fun j => (queue_recordFlags i flags u j).trans (hu.queues j)⟩

theorem tells_recordFlags (flags : Byte) (hu : s.Tells i c u) : s.Tells i c (recordFlags i flags u) := by
  refine ⟨hu.admission, hu.book, hu.clock, hu.trial, hu.states, hu.idle,
    fun j hj => (queue_recordFlags i flags u j).trans (hu.others j hj), ?_⟩
  rw [queue_recordFlags]
  exact hu.lands

/-- A command placed in a part that is else unmoved. -/
theorem tells_place (hi : 1 ≤ i ∧ i ≤ 7) (hu : s.Unmoved u)
    (hlands : ∀ bears v age q, Lands c q (coalesce bears v c age q)) : s.Tells i c (place i c u) := by
  have hcalm := calm_place i c u
  obtain ⟨-, hbook, -, hentries, -, -, -, hclock, -⟩ := calm_eq_iff.mp hcalm
  refine ⟨(admission_place i c u).trans hu.admission, hbook.trans hu.book, hclock.trans hu.clock, ?_, fun j => ?_,
    exchange_of_calm hcalm hu.idle, fun j hj => ?_, ?_⟩
  · rw [trial_place]
    exact hu.trial
  · rw [entry_of_calm hcalm]
    exact hu.states j
  · rw [station_place_ne (Ne.symm hj)]
    exact hu.queues j
  · rw [queue_place hi.1 hi.2, ← hu.queues i]
    exact hlands _ _ _ _

theorem tells_waiting (hu : s.Unmoved u) (hwaits : ∃ y ∈ (s.station i).queue, y.cmd = c) : s.Tells i c u := by
  refine ⟨hu.admission, hu.book, hu.clock, hu.trial, hu.states, hu.idle, fun j _ => hu.queues j, ?_⟩
  rw [hu.queues]
  exact lands_waiting hwaits

theorem stale_place (i : Nat) (c : LinkCmd) (s : State) : (place i c s).link.staleItems = s.link.staleItems := by
  unfold place
  split
  · rfl
  · unfold markOvertaken
    split <;> rfl

theorem sameRoots_of_admission (hadm : u.admission = s.admission) (h : t.shelf = u.shelf) : s.sameRoots t := by
  have hroots := sameRoots_of_shelf h
  unfold State.sameRoots State.lease? State.leaseSlot at hroots ⊢
  rw [hadm] at hroots
  exact hroots

/-! #### A STATUS, by its handle and its item -/

section taken

variable (hx : s.link.exchange = some x) (haddr : x.addr = a) (h31 : a ≠ 31) (hcmd : x.cmd = .poll)
  (hi : s.indexAt a = some i) (hlost : (s.entry i).state ≠ .lost) (hfault : flags.getLsbD 3 = false)
include hx haddr h31 hcmd hi hlost hfault

/-- A STATUS without an item. -/
theorem status_bare :
    exec (.status a flags believed none) s =
      .next ((leaveIdentifying i (recordFlags i flags (checkHandle i believed (s.heard i)))).concluded x) := by
  obtain ⟨-, h7⟩ := index_of_indexAt hi
  refine congrArg Host.Outcome.next ((takeAnswer_status hx haddr h31 hcmd hi hfault).trans ?_)
  rw [takeStatus, state_heard h7, if_neg hlost]

/-- A STATUS that names its entry's own lease, or none where it holds none, and brings an item. -/
theorem status_item (y : Item) :
    exec (.status a flags (s.handleHeldBy i) (some y)) s =
      .next ((leaveIdentifying i (routeItem i y (s.reported i flags))).concluded x) := by
  obtain ⟨-, h7⟩ := index_of_indexAt hi
  refine congrArg Host.Outcome.next ((takeAnswer_status hx haddr h31 hcmd hi hfault).trans ?_)
  have hown : (s.heard i).handleHeldBy i = s.handleHeldBy i := rfl
  rw [takeStatus, state_heard h7, if_neg hlost]
  dsimp only
  rw [checkHandle_own hown, ← State.reported]

end taken

/-! #### A handle that is not the entry's own -/

theorem checkHandle_other (hown : s.handleHeldBy i ≠ some h) : checkHandle i (some h) s = revokeBelieved i h s := by
  unfold checkHandle
  unfold State.handleHeldBy at hown
  cases hn : s.slotHeldBy i with
  | none => rfl
  | some n =>
    rw [hn] at hown
    exact if_neg fun e => hown (congrArg some e)

theorem anyWaiting_revoke {q : List Queued} :
    anyWaiting (·.isRevoke h) q = true ↔ ∃ y ∈ q, y.cmd = .revoke h := by
  rw [anyWaiting, List.any_eq_true]
  exact exists_congr fun y => and_congr_right fun _ => isRevoke_iff

/-- A STATUS with a foreign handle has its REVOKE waiting, and counts it where it placed it. -/
theorem revokeBelieved_tells (hi : 1 ≤ i ∧ i ≤ 7) (h : Handle) (hu : s.Unmoved u) :
    s.Tells i (.revoke h) (revokeBelieved i h u) ∧
      (revokeBelieved i h u).link.staleItems =
        if anyWaiting (·.isRevoke h) (s.station i).queue then u.link.staleItems else u.countStale.link.staleItems := by
  unfold revokeBelieved
  rw [hu.queues]
  split
  · next hwaits => exact ⟨tells_waiting hu (anyWaiting_revoke.mp hwaits), rfl⟩
  · exact ⟨tells_place hi (unmoved_countStale hu) fun _ v _ q => lands_revoke h v q, stale_place _ _ _⟩

/-! #### The ending of a lease by its station (R82, R83) -/

/-- The outcome of a lease that its station ends. -/
def Lease.endOutcome (l : Lease) : LeaseOutcome :=
  if l.state = .revoking then l.reason.getD .revoked else ownEnding l.kind

/-- The part in which a lease that its station ends is dismissed: its energy credited, and a cooldown where it is no
REVOKE's answer. -/
def State.ended (s : State) (i n e : Nat) (l : Lease) : State :=
  if l.state = .revoking then credit n e s else setCooldown i (credit n e s)

theorem endByStation_eq (hl : s.lease? n = some l) (i e : Nat) :
    endByStation i n e s = retire n l.endOutcome (s.ended i n e l) := by
  unfold endByStation State.ended Lease.endOutcome
  rw [hl]
  dsimp only
  split
  · unfold confirmLease
    rw [hl]
    rfl
  · rfl

theorem leaseSlot_ended (hl : s.lease? n = some l) (i e : Nat) :
    (s.ended i n e l).leaseSlot n = { issue := (s.leaseSlot n).issue, lease := some (l.credited e) } := by
  unfold State.ended
  split
  · exact leaseSlot_credit hl e
  · exact (lease_setCooldown i _ n).trans (leaseSlot_credit hl e)

theorem link_ended (hl : s.lease? n = some l) (i e : Nat) : (s.ended i n e l).link = s.link := by
  unfold State.ended
  split
  · exact link_credit hl e
  · rw [setCooldown_eq]
    exact link_credit hl e

theorem entry_ended (h7 : i ≤ 7) (hl : s.lease? n = some l) (hholder : l.holder = i) (e : Nat) :
    (s.ended i n e l).entry i =
      { s.entry i with
        lifetime := ((s.entry i).lifetime + e) % 4294967296
        cooldown := if l.state ≠ .revoking ∧ (s.entry i).cls.isBought = true then some 600 else (s.entry i).cooldown } := by
  have hcredited : (credit n e s).entry i =
      { s.entry i with lifetime := ((s.entry i).lifetime + e) % 4294967296 } := by
    rw [entry_credit hl, hholder, entry_modEntry h7]
    rfl
  unfold State.ended
  split
  · next hrevoking => rw [hcredited, if_neg fun h => h.1 hrevoking]
  · next hlive =>
    rw [entry_setCooldown h7, hcredited]
    simp [hlive]

/-- What a lease that its station ends leaves at the end of its step. -/
structure State.Freed (s : State) (i n e : Nat) (l : Lease) (t : State) : Prop where
  slot : t.leaseSlot n = { issue := ((s.leaseSlot n).issue + 1) % 16, lease := none }
  order : s.leaseHandle n ∉ t.admission.order
  flagged : t.flagged .leaseRetired = true
  stale : t.link.staleItems = s.link.staleItems
  entry : t.entry i =
    { s.entry i with
      missed := 0, lifetime := ((s.entry i).lifetime + e) % 4294967296
      cooldown := if l.state ≠ .revoking ∧ (s.entry i).cls.isBought = true then some 600 else (s.entry i).cooldown
      last := some
        { handle := s.leaseHandle n, kind := l.kind, outcome := l.endOutcome
          delivered := min (l.delivered + e) 4294967295 } }

/-- The ending of a lease in the part that has heard its station's entry, which is READY. -/
theorem freed_endByStation (hi : 1 ≤ i ∧ i ≤ 7) (hl : s.lease? n = some l) (hholder : l.holder = i)
    (hadm : v.admission = s.admission) (hentry : v.entry i = { s.entry i with missed := 0 })
    (hstale : v.link.staleItems = s.link.staleItems)
    (hw : (v.ended i n e l).Retired n (l.credited e) l.endOutcome w) (x : Exchange) :
    s.Freed i n e l (w.concluded x) := by
  have hlv : v.lease? n = some l := (lease_of_admission hadm n).trans hl
  have hslot := leaseSlot_ended hlv i e
  have hissue : (v.leaseSlot n).issue = (s.leaseSlot n).issue := congrArg LeaseSlot.issue (leaseSlot_of_admission hadm n)
  have hhandle : (v.ended i n e l).leaseHandle n = s.leaseHandle n := (leaseHandle_eq hslot).trans (congrArg _ hissue)
  have hretired := concluded_retired x hw
  have hrecorded := entry_recorded (s := v.ended i n e l) (n := n) (l := l.credited e) l.endOutcome
    (hholder.trans_le hi.2)
  have hholder' : (l.credited e).holder = i := hholder
  rw [hholder', entry_ended hi.2 hlv hholder, hentry, hhandle] at hrecorded
  refine ⟨?_, ?_, hretired.flagged, ?_, ?_⟩
  · rw [hretired.slot, hslot, hissue]
  · rw [← hhandle]
    exact hretired.order
  · rw [hretired.stale, link_ended hlv, hstale]
  · rw [hretired.entry]
    exact hrecorded

theorem retired_recordFlags (i : Nat) (flags : Byte) (h : s.Retired n l out u) :
    s.Retired n l out (recordFlags i flags u) := by
  rw [recordFlags_eq]
  exact ⟨h.slot, h.order, h.flagged, h.entry, h.stale⟩

theorem leaveIdentifying_ready (h : (u.entry i).state ≠ .identifying) : leaveIdentifying i u = u := if_neg h

/-- An entry that is READY stays out of IDENTIFYING as its lease retires. -/
theorem state_of_retired (hi : 1 ≤ i ∧ i ≤ 7) (hw : v.Retired n l out w) (hholder : l.holder = i) :
    (w.entry i).state = (v.entry i).state := by
  have hrecorded := entry_recorded (s := v) (n := n) (l := l) out (hholder.trans_le hi.2)
  rw [hholder] at hrecorded
  rw [hw.entry, hrecorded]

theorem retired_endByStation (h8 : n - 1 < 8) (hl : v.lease? n = some l) (i e : Nat) :
    (v.ended i n e l).Retired n (l.credited e) l.endOutcome (endByStation i n e v) := by
  rw [endByStation_eq hl]
  exact retired_retire h8 _ (congrArg LeaseSlot.lease (leaseSlot_ended hl i e))

/-! #### The four items but REPORT -/

/-- A handle names a lease of its station only where it is the handle of the lease that the station holds. -/
theorem ownSlot_foreign (hs : s.tableInOrder) (hown : s.handleHeldBy i ≠ some h) : s.ownSlot i h = none := by
  refine if_neg fun hany => hown ?_
  obtain ⟨l, hl, hholder⟩ := (Option.any_eq_true _ _).mp hany
  have hholder := beq_iff_eq.mp hholder
  by_cases hlive : s.resolveLease h = .live
  · obtain ⟨h1, h8, -⟩ := slot_of_live hlive
    rw [leaseOf?_live hlive] at hl
    cases hn : s.slotHeldBy i with
    | none => exact absurd hholder (holder_ne_of_unheld hn hl)
    | some n =>
      obtain ⟨hn1, hn8, l', hl', hholder'⟩ := held_of_slotHeldBy hn
      obtain ⟨-, -, -, honly, -⟩ := hs.1 h.slot l h1 h8 hl
      obtain rfl : n = h.slot := honly n l' hn1 hn8 hl' (hholder'.trans hholder.symm)
      rw [State.handleHeldBy, hn, Option.map_some, leaseHandle_of_live hlive]
  · rw [leaseOf?_none hlive] at hl
    cases hl

theorem live_of_held (hn : s.slotHeldBy i = some n) : s.resolveLease (s.leaseHandle n) = .live := by
  obtain ⟨h1, h8, l, hl, -⟩ := held_of_slotHeldBy hn
  unfold State.resolveLease resolveHandle
  have hslot : (s.leaseHandle n).slot = n := rfl
  have hissue : (s.leaseHandle n).issue = (s.leaseSlot n).issue := rfl
  rw [hslot, hissue, hl, if_neg (by omega), if_neg (by simp)]
  rfl

theorem ownSlot_held (hn : s.slotHeldBy i = some n) : s.ownSlot i (s.leaseHandle n) = some n := by
  obtain ⟨-, -, l, hl, hholder⟩ := held_of_slotHeldBy hn
  exact ownSlot_of_live (h := s.leaseHandle n) (live_of_held hn) hl hholder

theorem takeEnding_foreign (hs : s.tableInOrder) (hown : s.handleHeldBy i ≠ some h) (flags : Byte) (e : Nat) :
    takeEnding i h e (s.reported i flags) = (s.reported i flags).countStale := by
  have hsame : (s.reported i flags).ownSlot i h = s.ownSlot i h := rfl
  rw [takeEnding, hsame, ownSlot_foreign hs hown]

theorem takeEnding_held (hn : s.slotHeldBy i = some n) (flags : Byte) (e : Nat) :
    takeEnding i (s.leaseHandle n) e (s.reported i flags) = endByStation i n e (s.reported i flags) := by
  have hsome : (s.reported i flags).ownSlot i (s.leaseHandle n) = some n := ownSlot_held hn
  rw [takeEnding, hsome]

section taken

variable (hx : s.link.exchange = some x) (haddr : x.addr = a) (h31 : a ≠ 31) (hcmd : x.cmd = .poll)
  (hi : s.indexAt a = some i) (hlost : (s.entry i).state ≠ .lost) (hfault : flags.getLsbD 3 = false)
include hx haddr h31 hcmd hi hlost hfault

/-- A STATUS naming a handle that is not its entry's own (R140). -/
theorem status_believed (hs : s.tableInOrder) (hown : s.handleHeldBy i ≠ some h) :
    ∃ t, exec (.status a flags (some h) none) s = .next t ∧ s.sameRoots t ∧
      (((s.entry i).state = .identifying → (s.station i).queue = []) ∧ s.isSettled → t.awaits i (.revoke h)) ∧
      t.link.staleItems =
        if anyWaiting (·.isRevoke h) (s.station i).queue then s.link.staleItems else s.countStale.link.staleItems := by
  have hindex := index_of_indexAt hi
  obtain ⟨htells, hstale⟩ := revokeBelieved_tells hindex h (unmoved_heard hindex.2 s)
  have htold := tells_recordFlags flags htells
  have hown' : (s.heard i).handleHeldBy i ≠ some h := hown
  refine ⟨_, status_bare hx haddr h31 hcmd hi hlost hfault, ?_⟩
  rw [checkHandle_other hown']
  have hends := statusEnds (recordFlags i flags (revokeBelieved i h (s.heard i))) i x
  refine ⟨sameRoots_of_admission htold.admission hends.shelf, fun hcalm =>
    awaits_told hs hindex hcalm.2 hcalm.1 hx hcmd rfl htold, hends.stale.trans hstale⟩

/-- A STATUS that names no lease leaves its entry's OFFERED lease (R140). -/
theorem status_offered (hn : s.slotHeldBy i = some n) (hl : s.lease? n = some l) (hoffered : l.state = .offered) :
    ∃ t, exec (.status a flags none none) s = .next t ∧ s.sameRoots t ∧ t.link.staleItems = s.link.staleItems := by
  have hstays : checkHandle i none (s.heard i) = s.heard i := by
    have hn' : (s.heard i).slotHeldBy i = some n := hn
    have hl' : (s.heard i).lease? n = some l := hl
    unfold checkHandle
    rw [hn']
    dsimp only
    rw [hl', Option.any_some, hoffered]
    rfl
  refine ⟨_, status_bare hx haddr h31 hcmd hi hlost hfault, ?_⟩
  rw [hstays]
  have hends := statusEnds (recordFlags i flags (s.heard i)) i x
  exact ⟨sameRoots_of_admission (u := recordFlags i flags (s.heard i)) rfl hends.shelf, hends.stale⟩

/-- A STATUS that names no lease ends the lease its entry holds past OFFERED (R82, R83, R140). -/
theorem status_unnamed (hs : s.tableInOrder) (hn : s.slotHeldBy i = some n) (hl : s.lease? n = some l)
    (hpast : l.state ≠ .offered) : ∃ t, exec (.status a flags none none) s = .next t ∧ s.Freed i n 0 l t := by
  have hindex := index_of_indexAt hi
  obtain ⟨h1, h8, -⟩ := held_of_slotHeldBy hn
  have hholder := holder_of_slotHeldBy hn hl
  have hl' : (s.heard i).lease? n = some l := hl
  have hended : checkHandle i none (s.heard i) = endByStation i n 0 (s.heard i) := by
    have hn' : (s.heard i).slotHeldBy i = some n := hn
    unfold checkHandle
    rw [hn']
    dsimp only
    rw [hl', Option.any_some, if_neg]
    rw [beq_iff_eq]
    exact hpast
  have hretired := retired_recordFlags i flags (retired_endByStation (by omega) hl' i 0)
  have hready := (state_of_retired hindex hretired hholder).trans
    ((congrArg Entry.state (entry_ended hindex.2 hl' hholder 0)).trans (state_heard hindex.2 s))
  refine ⟨_, status_bare hx haddr h31 hcmd hi hlost hfault, ?_⟩
  rw [hended, leaveIdentifying_ready (by rw [hready, ready_of_held hs hindex.1 hn]; decide)]
  exact freed_endByStation hindex hl hholder (v := s.heard i) rfl (heard_entry hindex.2 s) rfl hretired x

/-- A RETIRE or a CONFIRM of the entry's own lease (R82, R83). -/
theorem status_ending (hs : s.tableInOrder) (hn : s.slotHeldBy i = some n) (hl : s.lease? n = some l) {y : Item}
    (hy : ∀ u, routeItem i y u = takeEnding i (s.leaseHandle n) e u) :
    ∃ t, exec (.status a flags (s.handleHeldBy i) (some y)) s = .next t ∧ s.Freed i n e l t := by
  have hindex := index_of_indexAt hi
  obtain ⟨h1, h8, -⟩ := held_of_slotHeldBy hn
  have hholder := holder_of_slotHeldBy hn hl
  have hl' : (s.reported i flags).lease? n = some l := hl
  have hentry : (s.reported i flags).entry i = { s.entry i with missed := 0 } := heard_entry hindex.2 s
  have hstate : ((s.reported i flags).entry i).state = (s.entry i).state := by rw [hentry]
  have hretired := retired_endByStation (by omega) hl' i e
  have hready := (state_of_retired hindex hretired hholder).trans
    ((congrArg Entry.state (entry_ended hindex.2 hl' hholder e)).trans hstate)
  refine ⟨_, status_item hx haddr h31 hcmd hi hlost hfault y, ?_⟩
  rw [hy, takeEnding_held hn, leaveIdentifying_ready (by rw [hready, ready_of_held hs hindex.1 hn]; decide)]
  exact freed_endByStation hindex hl hholder (v := s.reported i flags) rfl hentry rfl hretired x

/-- An item that is no more than counted (R141). -/
theorem status_stale {y : Item} (hy : routeItem i y (s.reported i flags) = (s.reported i flags).countStale) :
    ∃ t, exec (.status a flags (s.handleHeldBy i) (some y)) s = .next t ∧ s.sameRoots t ∧
      t.link.staleItems = s.countStale.link.staleItems := by
  refine ⟨_, status_item hx haddr h31 hcmd hi hlost hfault y, ?_⟩
  rw [hy]
  have hends := statusEnds (s.reported i flags).countStale i x
  exact ⟨sameRoots_of_admission (u := (s.reported i flags).countStale) rfl hends.shelf, hends.stale⟩

/-- A REQUEST refused has its REFUSE waiting (R68). -/
theorem status_refused (hs : s.tableInOrder) {why : RefuseReason} (rate : Nat)
    (hwhy : (s.reported i flags).requestFault i = some why) :
    ∃ t, exec (.status a flags (s.handleHeldBy i) (some (.request rate))) s = .next t ∧ s.sameRoots t ∧
      (((s.entry i).state = .identifying → (s.station i).queue = []) ∧ s.isSettled → t.awaits i (.refuse why)) := by
  have hindex := index_of_indexAt hi
  have htold := tells_place (c := .refuse why) hindex (unmoved_recordFlags i flags (unmoved_heard hindex.2 s))
    fun _ v _ q => lands_refuse why v q
  refine ⟨_, status_item hx haddr h31 hcmd hi hlost hfault (.request rate), ?_⟩
  have hrefused : routeItem i (.request rate) (s.reported i flags) = place i (.refuse why) (s.reported i flags) := by
    rw [routeItem, takeRequest, hwhy]
  rw [hrefused]
  have hends := statusEnds (place i (.refuse why) (s.reported i flags)) i x
  exact ⟨sameRoots_of_admission htold.admission hends.shelf, fun hcalm =>
    awaits_told hs hindex hcalm.2 hcalm.1 hx hcmd rfl htold⟩

end taken

end Sys2Proof.Machine

/-! ### REQUEST and CHANGE taken (R68, R88) -/

namespace Sys2Proof.Machine
variable {s t u v w : State} {n m i j a e rate : Nat} {l l' l1 : Lease} {x : Exchange} {flags : Byte} {h : Handle}

theorem drawsBudget_of_free (cls : SourceClass) (h : cls.isBought = false) : cls.drawsBudget = false := by
  revert h
  cases cls <;> decide

theorem effectiveCap_heard (h7 : i ≤ 7) (s : State) (j : Nat) : (s.heard i).effectiveCap j = s.effectiveCap j := by
  unfold State.effectiveCap
  split
  · rfl
  · by_cases hj : j = i
    · rw [hj, heard_entry h7]
      rfl
    · rw [heard_entry_ne hj]
      rfl

theorem class_heard (h7 : i ≤ 7) (s : State) (j : Nat) : ((s.heard i).entry j).cls = (s.entry j).cls := by
  by_cases hj : j = i
  · rw [hj, heard_entry h7]
  · rw [heard_entry_ne hj]

/-- The entitlement and the demand that the end of an answered step reads are those of the part it was answered in. -/
theorem rateInputs_concluded (u : State) (x : Exchange) : (u.concluded x).rateInputs = u.rateInputs := by
  obtain ⟨k, hk, -⟩ := afterEnumerated_eq x u
  have hclosed : (closing (afterEnumerated x u)).rateInputs = (afterEnumerated x u).rateInputs :=
    rateInputs_of_calm (calm_closing _)
  have hnumbered : (afterEnumerated x u).rateInputs = u.rateInputs := by
    rw [hk]
    rfl
  exact hclosed.trans hnumbered

theorem rated_concluded (x : Exchange) (h : u.rated n) : (u.concluded x).rated n := by
  obtain ⟨k, hk, -⟩ := afterEnumerated_eq x u
  have hnumbered : (afterEnumerated x u).rated n := by
    rw [hk]
    exact rated_of_inputs (s := u) rfl rfl h
  exact rated_closing hnumbered

/-- What a FREE lease is entitled to at an offer (R88). -/
theorem entitlementOf_free (hkind : l.kind = .free) :
    s.entitlementOf l = min (l.offer / 100 * 100) (min (s.effectiveCap l.holder) 15000) := by
  rw [State.entitlementOf, hkind]
  rfl

/-- The entitlement that the part reads at the end of a STATUS. -/
theorem entitlementOf_reported (h7 : i ≤ 7) (flags : Byte) (hkind : l.kind = .free)
    (hinputs : t.rateInputs = (s.reported i flags).rateInputs) :
    t.entitlementOf l = min (l.offer / 100 * 100) (min (s.effectiveCap l.holder) 15000) := by
  have hcap : (s.reported i flags).effectiveCap l.holder = s.effectiveCap l.holder := effectiveCap_heard h7 s l.holder
  rw [entitlementOf_free hkind, effectiveCap_of_inputs hinputs, hcap]

theorem demand_reported (hinputs : t.rateInputs = (s.reported i flags).rateInputs) (l : Lease) :
    t.demand l = s.demand l := by
  obtain ⟨-, -, hsolar, hdesk⟩ := rateInputs_eq_iff.mp hinputs
  exact demand_of_desk hsolar hdesk l

/-! #### A lease opened by a REQUEST -/

theorem rateInputs_granted (n : Nat) (l l1 : Lease) (s : State) : (s.granted n l l1).rateInputs = s.rateInputs := by
  have hplaced : (s.granted n l l1).rateInputs = (s.opened n l).rateInputs := rateInputs_of_calm (calm_place _ _ _)
  have hopened : (s.opened n l).rateInputs = (putLease n l s).rateInputs := by
    rw [State.opened, noteEligible_eq]
    rfl
  exact hplaced.trans (hopened.trans (rateInputs_of_calm (calm_putLease n l s)))

theorem rated_opened (h : (putLease n l s).rated n) : (s.opened n l).rated n := by
  refine rated_of_inputs (lease_of_admission (admission_noteEligible _ _) n) ?_ h
  rw [State.opened, noteEligible_eq]
  rfl

/-- A station that held no lease holds the one that is opened for it. -/
theorem holds_granted (h1 : 1 ≤ n) (h8 : n ≤ 8) (hi : 1 ≤ i ∧ i ≤ 7) (hready : (s.entry i).state = .ready)
    (hheld : s.slotHeldBy i = none) (hholder : l.holder = i) (l1 : Lease) : (s.granted n l l1).Holds n i := by
  obtain ⟨e, g, hput⟩ := leaseSlot_putLease (n := n) (by omega) l s
  have hslot := (leaseSlot_granted n n l l1 s).trans hput
  refine ⟨⟨h1, h8⟩, hi, ?_, ⟨_, congrArg LeaseSlot.lease hslot, hholder⟩, fun k l' hl' hi' => ?_⟩
  · rw [State.entry, entries_granted]
    exact hready
  · by_contra hk
    rw [State.lease?, leaseSlot_granted, leaseSlot_putLease_ne fun e => hk e.symm] at hl'
    exact holder_ne_of_unheld hheld hl' hi'

/-- The GRANT placed as a lease is opened waits. -/
theorem awaits_granted (hi : 1 ≤ i ∧ i ≤ 7) (hholder : l1.holder = i) (n : Nat) (l : Lease) (s : State) :
    (s.granted n l l1).awaits i ((s.opened n l).grantOf n l1) := by
  rw [State.awaits, State.granted, hholder, queue_place hi.1 hi.2]
  exact waits_enqueue

/-- A step's closing leaves an OFFERED lease's holder's queue. -/
theorem awaits_concluded {c : LinkCmd} (hs : u.Holds n i) (hl : u.lease? n = some l) (hoffered : l.state = .offered)
    (hsaved : l.saved = none) (x : Exchange) (h : u.awaits i c) : (u.concluded x).awaits i c := by
  obtain ⟨k, hk, hstations, -⟩ := afterEnumerated_eq x u
  have hholds : (u.modLink fun _ => k).Holds n i := ⟨hs.slot, hs.index, hs.ready, hs.lease, hs.only⟩
  have hstation : (u.modLink fun _ => k).station i = u.station i := by
    rw [State.station, State.station, modLink_link, hstations]
  have hqueue := (plot_eq_iff.mp (plot_of_turns_offered (s := u.modLink fun _ => k) hl hoffered hsaved
    (turns_closing hholds))).2.2.2
  rw [State.concluded, hk]
  exact awaits_of_queue (hqueue.trans (congrArg Station.queue hstation)) h

theorem leaseSlot_concluded_offered (h1 : 1 ≤ n) {k : Nat} (hslot : u.leaseSlot n = { issue := k, lease := some l })
    (hoffered : l.state = .offered) (x : Exchange) :
    ∃ l', (u.concluded x).leaseSlot n = { issue := k, lease := some l' } ∧ l'.core = l.core := by
  obtain ⟨w, hw, -⟩ := afterEnumerated_eq x u
  have hslot' : (u.modLink fun _ => w).leaseSlot n = { issue := k, lease := some l } := hslot
  have hrest := atRest_of_lease (congrArg LeaseSlot.lease hslot') (by rw [hoffered]; rfl) (by rw [hoffered]; decide)
  rw [State.concluded, hw]
  exact leaseSlot_of_core (core_closing h1 hrest) hslot'

/-- A lease that a REQUEST has opened, at the end of its step. -/
theorem request_opens (h1 : 1 ≤ n) (h8 : n ≤ 8) (hi : 1 ≤ i ∧ i ≤ 7) (hready : (v.entry i).state = .ready)
    (hheld : v.slotHeldBy i = none) (hclass : (v.entry i).cls.isBought = false) (hfree : v.freeLeaseSlot = some n)
    (hfault : v.requestFault i = none) (rate : Nat) (x : Exchange) :
    ∃ l', (leaveIdentifying i (takeRequest i rate v)).concluded x =
        (takeRequest i rate v).concluded x ∧
      ((takeRequest i rate v).concluded x).leaseSlot n = { issue := (v.leaseSlot n).issue, lease := some l' } ∧
      l'.core = (v.freeLease i rate).core ∧ ((takeRequest i rate v).concluded x).rateInputs = v.rateInputs ∧
      ((takeRequest i rate v).concluded x).Rates l' ∧
      ((takeRequest i rate v).concluded x).awaits i (.grant (v.leaseHandle n) .free l'.granted v.map.thetaMax none) := by
  have hdraws : v.drawsBudget (v.freeLease i rate) = false := drawsBudget_of_free _ hclass
  have hput : (putLease n (v.freeLease i rate) v).rated n := rated_putLease (by omega) rfl hdraws rfl
  obtain ⟨e, g, hslot⟩ := leaseSlot_putLease (n := n) (by omega) (v.freeLease i rate) v
  generalize hl1 : ({ v.freeLease i rate with entitlement := e, granted := g } : Lease) = l1 at hslot
  have hcore1 : l1.core = (v.freeLease i rate).core := by
    rw [← hl1]
    rfl
  have hstate1 : l1.state = .offered := (same_of_core hcore1).2.1.mpr rfl
  have hholder1 : l1.holder = i := (congrArg Lease.holder hcore1 :)
  have hopened : (v.opened n (v.freeLease i rate)).lease? n = some l1 :=
    congrArg LeaseSlot.lease ((leaseSlot_opened n n _ v).trans hslot)
  have htaken : takeRequest i rate v = v.granted n (v.freeLease i rate) l1 := by
    unfold takeRequest
    rw [hfault]
    dsimp only
    rw [openOffered_eq hfree hopened, State.granted]
  have hgranted := (leaseSlot_granted n n (v.freeLease i rate) l1 v).trans hslot
  have hstays : leaveIdentifying i (v.granted n (v.freeLease i rate) l1) = v.granted n (v.freeLease i rate) l1 := by
    refine leaveIdentifying_ready ?_
    rw [State.entry, entries_granted]
    exact fun e => nomatch hready.symm.trans e
  obtain ⟨l', hl', hcore'⟩ := leaseSlot_concluded_offered h1 hgranted hstate1 x
  have hinputs := (rateInputs_concluded (v.granted n (v.freeLease i rate) l1) x).trans (rateInputs_granted _ _ _ v)
  have hrated : (v.granted n (v.freeLease i rate) l1).rated n := rated_place _ _ (rated_opened hput)
  have hrates := rated_concluded x hrated l' (congrArg LeaseSlot.lease hl')
  have hrates1 := hrated l1 (congrArg LeaseSlot.lease hgranted)
  have hentitlement : l'.entitlement = l1.entitlement := by
    rw [hrates.entitlement, hrates1.entitlement, entitlementOf_of_inputs (rateInputs_concluded _ x)]
    exact entitlementOf_root (congrArg Lease.root hcore' :)
  have hrate : l1.granted = l'.granted := by
    rw [hrates.granted, hrates1.granted, due_of_inputs (rateInputs_concluded _ x)]
    exact (due_of_core hcore' hentitlement).symm
  have hawaits := awaits_concluded (holds_granted h1 h8 hi hready hheld rfl l1) (congrArg LeaseSlot.lease hgranted) hstate1
    ((congrArg Lease.saved hcore1 :)) x (awaits_granted hi hholder1 n (v.freeLease i rate) v)
  have hgrant : (v.opened n (v.freeLease i rate)).grantOf n l1 =
      .grant (v.leaseHandle n) .free l'.granted v.map.thetaMax none := by
    have hhandle : (v.opened n (v.freeLease i rate)).leaseHandle n = v.leaseHandle n :=
      congrArg (Handle.mk n) (congrArg LeaseSlot.issue ((leaseSlot_opened n n _ v).trans hslot) :)
    have hkind1 : l1.kind = .free := (congrArg Lease.kind hcore1 :)
    have hceiling1 : l1.ceiling = v.map.thetaMax := (congrArg Lease.ceiling hcore1 :)
    have hbudget1 : l1.budget = none := (congrArg Lease.budget hcore1 :)
    rw [State.grantOf, hhandle, hkind1, hceiling1, hbudget1, hrate]
  rw [hgrant] at hawaits
  rw [htaken, hstays]
  exact ⟨l', rfl, hl', hcore'.trans hcore1, hinputs, hrates, hawaits⟩

/-! #### A CHANGE -/

theorem takeChange_free (hn : v.slotHeldBy i = some n) (hl : v.lease? n = some l) (hkind : l.kind = .free) (rate : Nat) :
    takeChange i rate v = resettle v (v.modLease n fun l => { l with offer := rate }) := by
  unfold takeChange
  rw [hn]
  dsimp only
  rw [hl, Option.any_some, hkind]
  exact if_pos rfl

theorem takeChange_other (h : ∀ n l, v.slotHeldBy i = some n → v.lease? n = some l → l.kind ≠ .free) (rate : Nat) :
    takeChange i rate v = v.countStale := by
  unfold takeChange
  split
  · rfl
  · next n hn =>
    obtain ⟨-, -, l, hl, -⟩ := held_of_slotHeldBy hn
    rw [hl, Option.any_some, if_neg]
    rw [beq_iff_eq]
    exact h n l hn hl

/-- A FREE lease with a new offer, at the end of its step. -/
theorem change_taken (h1 : 1 ≤ n) (h8 : n ≤ 8) (hready : (v.entry i).state = .ready) (hn : v.slotHeldBy i = some n)
    (hl : v.lease? n = some l) (hkind : l.kind = .free) (hclass : (v.entry l.holder).cls.isBought = false) (rate : Nat)
    (x : Exchange) :
    ∃ l', (leaveIdentifying i (takeChange i rate v)).concluded x = (takeChange i rate v).concluded x ∧
      ((takeChange i rate v).concluded x).leaseSlot n = { issue := (v.leaseSlot n).issue, lease := some l' } ∧
      l'.root = { l with offer := rate }.root ∧ ((takeChange i rate v).concluded x).rateInputs = v.rateInputs ∧
      ((takeChange i rate v).concluded x).Rates l' ∧
      ((takeChange i rate v).concluded x).link.staleItems = v.link.staleItems := by
  rw [takeChange_free hn hl hkind]
  have hslot : (v.modLease n fun l => { l with offer := rate }).leaseSlot n =
      { issue := (v.leaseSlot n).issue, lease := some { l with offer := rate } } := by
    rw [leaseSlot_modLease, hl]
    rfl
  have hoffered := calm_modLease n (fun l => { l with offer := rate }) v
  have hlink : (v.modLease n fun l => { l with offer := rate }).link = v.link := rfl
  generalize (v.modLease n fun l => { l with offer := rate }) = u at hslot hoffered hlink
  have hworks := works_resettle v u
  have hcalm := calm_of_works hworks
  have hdraws : u.drawsNone n := by
    intro l' hl'
    obtain rfl := Option.some.inj ((congrArg LeaseSlot.lease hslot).symm.trans hl')
    refine ⟨by rw [hkind]; rfl, (drawsBudget_of_inputs (rateInputs_of_calm hoffered) _).trans ?_⟩
    exact drawsBudget_of_free _ hclass
  have hstays : leaveIdentifying i (resettle v u) = resettle v u := by
    refine leaveIdentifying_ready ?_
    rw [entry_of_calm (hcalm.trans hoffered), hready]
    decide
  obtain ⟨l', hl', hroot⟩ := leaseSlot_of_shelf ((concluded_shelf (resettle v u) x).trans (shelf_of_works hworks)) hslot
  refine ⟨l', by rw [hstays], hl', hroot,
    (rateInputs_concluded _ x).trans ((rateInputs_of_calm hcalm).trans (rateInputs_of_calm hoffered)),
    rated_concluded x (rated_of_resettle v h1 h8 hdraws) l' (congrArg LeaseSlot.lease hl'), ?_⟩
  rw [(concluded_link _ x).2, (link_of_works hworks).2, hlink]

/-! #### The statement -/

/-- The reason a REQUEST is refused for, as the statement reads it. -/
theorem requestFault_reported (h7 : i ≤ 7) (flags : Byte) (s : State) :
    (s.reported i flags).requestFault i =
      if s.admission.halted = true then some RefuseReason.halted
      else if s.map.valid = false then some .mapInvalid
      else if (s.entry i).state ≠ .ready then some .notReady
      else if (s.entry i).cls.isBought = true then some .boughtSource
      else if s.handleHeldBy i ≠ none then some .holdsLease else none := by
  have hentry : (s.reported i flags).entry i = { s.entry i with missed := 0 } := heard_entry h7 s
  have hheld : ((s.reported i flags).slotHeldBy i).isSome = true ↔ s.handleHeldBy i ≠ none := by
    have hsame : (s.reported i flags).slotHeldBy i = s.slotHeldBy i := rfl
    rw [hsame, State.handleHeldBy, Option.isSome_iff_ne_none, Ne, Ne, Option.map_eq_none_iff]
  have hdesk : (s.reported i flags).admission.halted = s.admission.halted ∧
      (s.reported i flags).map.valid = s.map.valid := ⟨rfl, rfl⟩
  unfold State.requestFault
  simp only [hentry, hheld, hdesk]

theorem requestFault_none (h : v.requestFault i = none) :
    (v.entry i).state = .ready ∧ (v.entry i).cls.isBought = false ∧ v.slotHeldBy i = none := by
  unfold State.requestFault at h
  split at h
  · cases h
  · split at h
    · cases h
    · split at h
      · cases h
      · next hready =>
        split at h
        · cases h
        · next hclass =>
          split at h
          · cases h
          · next hheld =>
            exact ⟨not_not.mp hready, Bool.eq_false_iff.mpr hclass,
              Option.not_isSome_iff_eq_none.mp hheld⟩

section taken

variable (hx : s.link.exchange = some x) (haddr : x.addr = a) (h31 : a ≠ 31) (hcmd : x.cmd = .poll)
  (hi : s.indexAt a = some i) (hlost : (s.entry i).state ≠ .lost) (hfault : flags.getLsbD 3 = false)
include hx haddr h31 hcmd hi hlost hfault

/-- A REQUEST granted (R68). -/
theorem request_granted (hnone : (s.reported i flags).requestFault i = none) (h1 : 1 ≤ n) (h8 : n ≤ 8)
    (hfree : s.freeLeaseSlot = some n) (rate : Nat) :
    ∃ t l, exec (.status a flags (s.handleHeldBy i) (some (.request rate))) s = .next t ∧
      t.leaseSlot n = { issue := (s.leaseSlot n).issue, lease := some l } ∧ l.kind = .free ∧ l.origin = .station ∧
      l.holder = i ∧ l.state = .offered ∧ l.inlet = (s.entry i).inlet ∧ l.ceiling = s.map.thetaMax ∧
      l.entitlement = min (rate / 100 * 100) (min (s.effectiveCap i) 15000) ∧ l.granted = s.demand l ∧ l.budget = none ∧
      l.timer = none ∧ l.delivered = 0 ∧ l.serve = [] ∧
      ∃ y ∈ (t.station i).queue, y.cmd = .grant (s.leaseHandle n) .free l.granted s.map.thetaMax none := by
  have hindex := index_of_indexAt hi
  obtain ⟨hready, hclass, hheld⟩ := requestFault_none hnone
  obtain ⟨l, hstays, hslot, hcore, hinputs, hrates, hawaits⟩ := request_opens h1 h8 hindex hready hheld hclass
    (v := s.reported i flags) hfree hnone rate x
  have hkind : l.kind = .free := (congrArg Lease.kind hcore :)
  have hholder : l.holder = i := (congrArg Lease.holder hcore :)
  have hoffer : l.offer = rate := (congrArg Lease.offer hcore :)
  have hstate : l.state = .offered := (same_of_core hcore).2.1.mpr rfl
  have hinlet : l.inlet = (s.entry i).inlet := by
    have hentry : (s.reported i flags).entry i = { s.entry i with missed := 0 } := heard_entry hindex.2 s
    have hasked : l.inlet = (s.reported i flags).entryInlet i := (congrArg Lease.inlet hcore :)
    rw [hasked, State.entryInlet, if_neg (by omega), hentry]
  refine ⟨_, l, (status_item hx haddr h31 hcmd hi hlost hfault (.request rate)).trans (congrArg Host.Outcome.next hstays),
    hslot, hkind, (congrArg Lease.origin hcore :), hholder, hstate, hinlet, (congrArg Lease.ceiling hcore :), ?_, ?_,
    (congrArg Lease.budget hcore :), (congrArg Lease.timer hcore :), (congrArg Lease.delivered hcore :),
    (congrArg Lease.serve hcore :), hawaits⟩
  · rw [hrates.entitlement, entitlementOf_reported hindex.2 flags hkind hinputs, hoffer, hholder]
  · rw [hrates.granted, State.due, hstate]
    exact demand_reported hinputs l

/-- A CHANGE taken (R88). -/
theorem change_of_offer (hs : s.tableInOrder) (hn : s.slotHeldBy i = some n) (hl : s.lease? n = some l)
    (hkind : l.kind = .free) (rate : Nat) :
    ∃ t l', exec (.status a flags (s.handleHeldBy i) (some (.change rate))) s = .next t ∧
      t.leaseSlot n = { issue := (s.leaseSlot n).issue, lease := some l' } ∧ l'.root = { l with offer := rate }.root ∧
      l'.entitlement = min (rate / 100 * 100) (min (s.effectiveCap i) 15000) ∧
      t.link.staleItems = s.link.staleItems := by
  have hindex := index_of_indexAt hi
  obtain ⟨h1, h8, -⟩ := held_of_slotHeldBy hn
  have hholder := holder_of_slotHeldBy hn hl
  obtain ⟨-, -, -, -, hclass, -⟩ := hs.1 n l h1 h8 hl
  have hready : ((s.reported i flags).entry i).state = .ready :=
    (state_heard hindex.2 s).trans (ready_of_held hs hindex.1 hn)
  have hclass' : ((s.reported i flags).entry l.holder).cls.isBought = false := by
    have hsame : ((s.reported i flags).entry l.holder).cls = (s.entry l.holder).cls := class_heard hindex.2 s l.holder
    rw [hsame, hclass, hkind]
    rfl
  obtain ⟨l', hstays, hslot, hroot, hinputs, hrates, hstale⟩ := change_taken h1 h8 hready (v := s.reported i flags) hn hl
    hkind hclass' rate x
  refine ⟨_, l', (status_item hx haddr h31 hcmd hi hlost hfault (.change rate)).trans (congrArg Host.Outcome.next hstays),
    hslot, hroot, ?_, hstale⟩
  have hkind' : l'.kind = .free := (congrArg Lease.kind hroot :).trans hkind
  have hholder' : l'.holder = i := (congrArg Lease.holder hroot :).trans hholder
  have hoffer' : l'.offer = rate := (congrArg Lease.offer hroot :)
  rw [hrates.entitlement, entitlementOf_reported hindex.2 flags hkind' hinputs, hoffer', hholder']

end taken

/-- Settles O49: the handle that a STATUS names, the endings, and the items in turn. -/
theorem aStatusIsCheckedAndItsItemTaken : Obligations.AStatusIsCheckedAndItsItemTaken := by
  intro s a i flags x hs hx haddr h31 hcmd hi hlost hfault own send stale offers calm freed
  have hindex := index_of_indexAt hi
  have hfreed {t : State} {n energy : Nat} {l : Lease} (h : s.Freed i n energy l t) : freed t n l energy :=
    ⟨h.slot, h.order, h.flagged, h.stale, h.entry⟩
  refine ⟨fun h hown => ?_, fun n l hn hl => ⟨fun hoffered => ?_, fun hpast _ => ?_, fun energy _ => ⟨?_, ?_⟩⟩,
    fun h energy hown => ?_, fun rate => ?_, fun rate => ⟨fun n l hn hl hkind => ?_, fun hother => ?_⟩⟩
  · obtain ⟨t, ht, hroots, hwaits, hstale⟩ := status_believed hx haddr h31 hcmd hi hlost hfault hs hown
    refine ⟨t, ht, hroots, hwaits, hstale.trans (if_congr anyWaiting_revoke rfl rfl)⟩
  · exact status_offered hx haddr h31 hcmd hi hlost hfault hn hl hoffered
  · obtain ⟨t, ht, hended⟩ := status_unnamed hx haddr h31 hcmd hi hlost hfault hs hn hl hpast
    exact ⟨t, ht, hfreed hended⟩
  · obtain ⟨t, ht, hended⟩ := status_ending hx haddr h31 hcmd hi hlost hfault hs hn hl
      (y := .retire (s.leaseHandle n) energy) fun _ => rfl
    exact ⟨t, ht, hfreed hended⟩
  · obtain ⟨t, ht, hended⟩ := status_ending hx haddr h31 hcmd hi hlost hfault hs hn hl
      (y := .confirm (s.leaseHandle n) energy) fun _ => rfl
    exact ⟨t, ht, hfreed hended⟩
  · obtain ⟨t, ht, hroots, hstale⟩ := status_stale hx haddr h31 hcmd hi hlost hfault (y := .retire h energy)
      (takeEnding_foreign hs hown flags energy)
    obtain ⟨t', ht', hroots', hstale'⟩ := status_stale hx haddr h31 hcmd hi hlost hfault (y := .confirm h energy)
      (takeEnding_foreign hs hown flags energy)
    exact ⟨t, ht, hroots, hstale, t', ht', hroots', hstale'⟩
  · intro reason
    have hreason := requestFault_reported hindex.2 flags s
    refine ⟨fun why hwhy => status_refused hx haddr h31 hcmd hi hlost hfault hs rate (hreason.trans hwhy),
      fun n hnone h1 h8 hfree hfirst => ?_⟩
    exact request_granted hx haddr h31 hcmd hi hlost hfault (hreason.trans hnone) h1 h8
      (freeLeaseSlot_eq h1 h8 hfree hfirst) rate
  · exact change_of_offer hx haddr h31 hcmd hi hlost hfault hs hn hl hkind rate
  · exact status_stale hx haddr h31 hcmd hi hlost hfault (y := .change rate) (takeChange_other (v := s.reported i flags) hother rate)

end Sys2Proof.Machine

/-! ### Entries marked LOST (R126, R128, R144)

The marking touches the roster and the link alone. It leaves the stations that may be given a lease as the statement
reads them: those of the state in which the entry's partner is LOST, the entry itself holding a lease. -/

namespace Sys2Proof.Machine
variable {s t u v : State} {i j n a : Nat} {x : Exchange} {l : Lease} {lost : List Nat}

theorem sameOutside_modStation {touched : List Block} (h : .link ∈ touched) (i : Nat) (f : Station → Station)
    (s : State) : s.sameOutside (s.modStation i f) touched := sameOutside_modLink h _ s

theorem sameOutside_place {touched : List Block} (h : .link ∈ touched) (i : Nat) (c : LinkCmd) (s : State) :
    s.sameOutside (place i c s) touched := by
  unfold place
  split
  · exact sameOutside_refl _ _
  · refine sameOutside_trans (sameOutside_modStation h i (fun t => { t with
      queue := coalesce (s.bears i) (s.leaseView i c) c s.moment t.queue }) s) ?_
    unfold markOvertaken
    split
    · exact sameOutside_modLink h _ _
    · exact sameOutside_refl _ _

theorem sameOutside_stopTrial {touched : List Block} (hroster : .roster ∈ touched) (hlink : .link ∈ touched)
    (s : State) : s.sameOutside (stopTrial s) touched := by
  unfold stopTrial
  split
  · exact sameOutside_refl _ _
  · have hended := sameOutside_modRoster hroster (fun r => { r with trial := none }) s
    dsimp only
    split
    · exact sameOutside_trans hended (sameOutside_place hlink _ _ _)
    · exact hended

theorem sameOutside_markLost (i : Nat) (s : State) : s.sameOutside (markLost s i) [.roster, .link] := by
  have hmarked := sameOutside_trans
    (sameOutside_modEntry (by simp) i (fun e => { e with state := .lost, retry := none }) s)
    (sameOutside_modStation (touched := [.roster, .link]) (by simp) i (fun t => { t with queue := [] }) _)
  unfold markLost stopTrialOf emptyQueue
  split
  · exact sameOutside_trans hmarked (sameOutside_stopTrial (by simp) (by simp) _)
  · exact hmarked

theorem sameOutside_foldl {α : Type} {touched : List Block} {f : State → α → State}
    (hf : ∀ (s : State) a, s.sameOutside (f s a) touched) (l : List α) (s : State) : s.sameOutside (l.foldl f s) touched := by
  induction l generalizing s with
  | nil => exact sameOutside_refl _ _
  | cons a l ih => exact sameOutside_trans (hf s a) (ih _)

theorem entry_markLost (i : Nat) (s : State) :
    (markLost s i).entry = (s.modEntry i fun e => { e with state := .lost, retry := none }).entry := by
  unfold markLost
  rw [entry_of_calm (calm_stopTrialOf i _)]
  rfl

/-- Every entry marked, and no other. -/
theorem entry_marked (hj : j ≤ 7) (lost : List Nat) (s : State) :
    (lost.foldl markLost s).entry j =
      if j ∈ lost then { s.entry j with state := .lost, retry := none } else s.entry j := by
  induction lost generalizing s with
  | nil => rfl
  | cons k lost ih =>
    rw [List.foldl_cons, ih, entry_markLost]
    by_cases hjk : j = k
    · subst hjk
      rw [entry_modEntry hj]
      simp
    · rw [entry_modEntry_ne hjk]
      simp [hjk]

/-! ### What the loss starts from -/

/-- The part once the missed exchange is counted: the command returned, and the entry at three missed exchanges. -/
def State.silenced (s : State) (i : Nat) (x : Exchange) : State :=
  (returnCommand i x (s.modLink fun k => { k with exchange := none })).modEntry i fun e => { e with missed := 3 }

/-- The part in which the leases of the lost entries are dealt with. -/
def State.bereft (s : State) (i : Nat) (x : Exchange) : State :=
  (s.lostWith i).foldl markLost (s.silenced i x)

theorem returnCommand_eq (i : Nat) (x : Exchange) (s : State) :
    ∃ k, returnCommand i x s = s.modLink fun _ => k := by
  unfold returnCommand
  split
  · split
    · exact ⟨s.link, rfl⟩
    · exact ⟨_, rfl⟩
  all_goals exact ⟨s.link, rfl⟩

theorem sameOutside_silenced (s : State) (i : Nat) (x : Exchange) :
    s.sameOutside (s.silenced i x) [.roster, .link] := by
  obtain ⟨k, hk⟩ := returnCommand_eq i x (s.modLink fun k => { k with exchange := none })
  unfold State.silenced
  rw [hk]
  exact sameOutside_trans (sameOutside_modLink (by simp) _ s)
    (sameOutside_trans (sameOutside_modLink (by simp) _ _) (sameOutside_modEntry (by simp) i _ _))

theorem entry_silenced (h7 : i ≤ 7) : (s.silenced i x).entry i = { s.entry i with missed := 3 } := by
  obtain ⟨k, hk⟩ := returnCommand_eq i x (s.modLink fun k => { k with exchange := none })
  unfold State.silenced
  rw [hk, entry_modEntry h7]
  rfl

theorem entry_silenced_ne (hj : j ≠ i) : (s.silenced i x).entry j = s.entry j := by
  obtain ⟨k, hk⟩ := returnCommand_eq i x (s.modLink fun k => { k with exchange := none })
  unfold State.silenced
  rw [hk, entry_modEntry_ne hj]
  rfl

theorem lostWith_silenced (h7 : i ≤ 7) : (s.silenced i x).lostWith i = s.lostWith i := by
  refine congrArg (stationIndexes.filter ·) (funext fun j => ?_)
  rw [entry_silenced h7]
  by_cases hj : j = i
  · subst hj
    rw [entry_silenced h7]
  · rw [entry_silenced_ne hj]

theorem sameOutside_bereft (s : State) (i : Nat) (x : Exchange) : s.sameOutside (s.bereft i x) [.roster, .link] :=
  sameOutside_trans (sameOutside_silenced s i x) (sameOutside_foldl (fun u j => sameOutside_markLost j u) _ _)

theorem mem_lostWith :
    j ∈ s.lostWith i ↔
      (1 ≤ j ∧ j ≤ 7) ∧ (j = i ∨ (s.entry i).partner = some j) ∧ (s.entry j).state.isHeard = true := by
  rw [State.lostWith, List.mem_filter, mem_stationIndexes, Bool.and_eq_true, Bool.or_eq_true, beq_iff_eq, beq_iff_eq]

theorem entry_bereft (h1 : 1 ≤ i) (h7 : i ≤ 7) (hheard : (s.entry i).state.isHeard = true) :
    (s.bereft i x).entry i = { s.entry i with state := .lost, missed := 3, retry := none } := by
  rw [State.bereft, entry_marked h7, if_pos (mem_lostWith.mpr ⟨⟨h1, h7⟩, .inl rfl, hheard⟩), entry_silenced h7]

theorem entry_bereft_ne (hj : j ≠ i) (h7 : j ≤ 7) :
    (s.bereft i x).entry j = if j ∈ s.lostWith i then { s.entry j with state := .lost, retry := none } else s.entry j := by
  rw [State.bereft, entry_marked h7, entry_silenced_ne hj]

/-! ### The stations that may be given the lease -/

/-- The part with the partner of entry `i`, if it has one, LOST. -/
def State.partnerLost (s : State) (i : Nat) : State :=
  match (s.entry i).partner with
  | none => s
  | some j => s.modEntry j fun e => { e with state := .lost }

theorem partnerLost_eq (s : State) (i : Nat) : s.partnerLost i = s.modRoster fun _ => (s.partnerLost i).roster := by
  unfold State.partnerLost
  split <;> rfl

theorem entry_partnerLost (h7 : j ≤ 7) :
    (s.partnerLost i).entry j =
      if (s.entry i).partner = some j then { s.entry j with state := .lost } else s.entry j := by
  unfold State.partnerLost
  cases hpartner : (s.entry i).partner with
  | none => rfl
  | some k =>
    by_cases hjk : j = k
    · subst hjk
      rw [if_pos rfl]
      exact entry_modEntry h7 _ s
    · rw [if_neg fun e => hjk (Option.some.inj e).symm]
      exact entry_modEntry_ne hjk _ s

theorem eligible_iff :
    s.eligible j = true ↔
      (s.entry j).state = .ready ∧ (s.entry j).cls.isBought = true ∧ s.map.reserveLine ≤ s.entryInlet j ∧
        s.slotHeldBy j = none ∧ (s.entry j).cooldown = none ∧ s.admission.halted = false := by
  simp [State.eligible, and_assoc]

theorem entryInlet_congr (hsolar : t.solar = s.solar) (hinlet : (t.entry j).inlet = (s.entry j).inlet) :
    t.entryInlet j = s.entryInlet j := by
  rw [State.entryInlet, State.entryInlet, hsolar, hinlet]

/-- Two states that read an entry alike find it eligible alike. -/
theorem eligible_congr (hmap : t.map = s.map) (hsolar : t.solar = s.solar) (hadmission : t.admission = s.admission)
    (hstate : (t.entry j).state = .ready ↔ (s.entry j).state = .ready) (hcls : (t.entry j).cls = (s.entry j).cls)
    (hinlet : (t.entry j).inlet = (s.entry j).inlet) (hcool : (t.entry j).cooldown = (s.entry j).cooldown) :
    t.eligible j = s.eligible j := by
  rw [Bool.eq_iff_iff, eligible_iff, eligible_iff, hstate, hcls, hmap, entryInlet_congr hsolar hinlet,
    slotHeldBy_of_admission hadmission, hcool, hadmission]

theorem selectStation_congr (hset : t.eligibleSet = s.eligibleSet) (hrank : t.rankOf = s.rankOf)
    (hinlet : t.entryInlet = s.entryInlet) : t.selectStation = s.selectStation := by
  funext preferred depth
  rw [State.selectStation, State.selectStation, hset, hrank, hinlet]

/-- What two states that differ in the roster's entries alone agree in, for a holder to be selected alike. -/
structure State.ChoosesLike (s t : State) : Prop where
  eligible : t.eligibleSet = s.eligibleSet
  rank : t.rankOf = s.rankOf
  inlet : t.entryInlet = s.entryInlet

theorem entry_absent (h : 8 ≤ j) (s : State) : s.entry j = .absent := tget_of_le _ _ _ h

theorem choosesLike_of_entries (hmap : t.map = s.map) (hsolar : t.solar = s.solar)
    (hadmission : t.admission = s.admission)
    (hsame : ∀ j, (t.entry j).rank = (s.entry j).rank ∧ (t.entry j).cls = (s.entry j).cls ∧
      (t.entry j).inlet = (s.entry j).inlet ∧ (t.entry j).cooldown = (s.entry j).cooldown)
    (hready : ∀ j, 1 ≤ j → j ≤ 7 → s.slotHeldBy j = none →
      ((t.entry j).state = .ready ↔ (s.entry j).state = .ready)) : s.ChoosesLike t where
  eligible := by
    refine List.filter_congr fun j hj => ?_
    obtain ⟨h1, h7⟩ := mem_stationIndexes.mp hj
    obtain ⟨-, hcls, hinlet, hcool⟩ := hsame j
    by_cases hheld : s.slotHeldBy j = none
    · exact eligible_congr hmap hsolar hadmission (hready j h1 h7 hheld) hcls hinlet hcool
    · have hnot (u : State) (hu : u.admission = s.admission) : u.eligible j = false := by
        refine Bool.eq_false_iff.mpr fun h => hheld ?_
        obtain ⟨-, -, -, hfree, -⟩ := eligible_iff.mp h
        rwa [slotHeldBy_of_admission hu] at hfree
      rw [hnot t hadmission, hnot s rfl]
  rank := funext fun j => congrArg (·.getD 0) (hsame j).1
  inlet := funext fun j => entryInlet_congr hsolar (hsame j).2.2.1

/-- The stations that the model chooses from are those that the statement reads. -/
theorem choosesLike_bereft (h1 : 1 ≤ i) (h7 : i ≤ 7) (hheard : (s.entry i).state.isHeard = true)
    (hheld : s.slotHeldBy i = some n) (x : Exchange) : (s.partnerLost i).ChoosesLike (s.bereft i x) := by
  have hout := (sameOutside_bereft s i x).1
  have hbase := partnerLost_eq s i
  have hmap : (s.bereft i x).map = s.map := hout .map (by simp)
  have hsolar : (s.bereft i x).solar = s.solar := hout .solar (by simp)
  have hadmission : (s.bereft i x).admission = s.admission := hout .admission (by simp)
  have hentry (j : Nat) (hj7 : j ≤ 7) (hj : j ≠ i) := And.intro (entry_bereft_ne (s := s) (x := x) hj hj7)
    (entry_partnerLost (s := s) (i := i) hj7)
  refine choosesLike_of_entries (hmap.trans ?_) (hsolar.trans ?_) (hadmission.trans ?_) (fun j => ?_)
    fun j hj1 hj7 hfree => ?_
  · rw [hbase]
    rfl
  · rw [hbase]
    rfl
  · rw [hbase]
    rfl
  · by_cases hj7 : j ≤ 7
    · by_cases hj : j = i
      · subst hj
        rw [entry_bereft h1 h7 hheard, entry_partnerLost h7]
        split <;> exact ⟨rfl, rfl, rfl, rfl⟩
      · obtain ⟨hb, hp⟩ := hentry j hj7 hj
        rw [hb, hp]
        split <;> split <;> exact ⟨rfl, rfl, rfl, rfl⟩
    · rw [entry_absent (by omega), entry_absent (by omega)]
      exact ⟨rfl, rfl, rfl, rfl⟩
  · have hj : j ≠ i := by
      rintro rfl
      have hheld' : (s.partnerLost j).slotHeldBy j = some n := by
        rw [← hheld]
        exact slotHeldBy_of_admission (by rw [hbase]; rfl) j
      rw [hheld'] at hfree
      cases hfree
    obtain ⟨hb, hp⟩ := hentry j hj7 hj
    rw [hb, hp]
    by_cases hlost : j ∈ s.lostWith i
    · have hpartner : (s.entry i).partner = some j := (mem_lostWith.mp hlost).2.1.resolve_left hj
      rw [if_pos hlost, if_pos hpartner]
    · rw [if_neg hlost]
      split
      · next hpartner =>
        have hmute : ¬(s.entry j).state.isHeard = true := fun h => hlost (mem_lostWith.mpr ⟨⟨hj1, hj7⟩, .inr hpartner, h⟩)
        refine iff_of_false (fun h => hmute ?_) nofun
        rw [h]
        rfl
      · exact Iff.rfl

end Sys2Proof.Machine

/-! ### The lease of a lost entry dealt with (R112, R113)

Such a lease leaves the table or moves to a station that was eligible. The slots, the entries and the handles beside it
stand. -/

namespace Sys2Proof.Machine
variable {s t u v : State} {i j n m k : Nat} {l l' : Lease} {budget : Option Nat} {out : LeaseOutcome} {h : Handle}

/-! ### A lease moved -/

/-- A lease moved, before the eligible stations are noted. -/
def State.moved (s : State) (n : Nat) (l : Lease) (holder : Nat) (budget : Option Nat) : State :=
  ((dropCommands l.holder (s.leaseHandle n) s).modAdmission fun a =>
    { a with order := a.order.filter (· != s.leaseHandle n) }).modLease n fun _ => s.handedOver l holder budget

theorem moveLease_eq (n : Nat) (l : Lease) (j : Nat) (budget : Option Nat) (s : State) :
    moveLease n l j budget s = noteEligible s (s.moved n l j budget) := rfl

theorem leaseSlot_moveLease (hl : s.lease? n = some l) (l0 : Lease) (j : Nat) (budget : Option Nat) :
    (moveLease n l0 j budget s).leaseSlot n =
      { issue := (s.leaseSlot n).issue, lease := some (s.handedOver l0 j budget) } := by
  rw [moveLease_eq, leaseSlot_of_admission (admission_noteEligible _ _)]
  refine (leaseSlot_modLease n _ _).trans ?_
  have hmap : ((s.lease? n).map fun _ => s.handedOver l0 j budget) = some (s.handedOver l0 j budget) := by rw [hl]; rfl
  exact congrArg (LeaseSlot.mk _) hmap

theorem leaseSlot_moveLease_ne (hne : m - 1 ≠ n - 1) (l : Lease) (j : Nat) (budget : Option Nat) (s : State) :
    (moveLease m l j budget s).leaseSlot n = s.leaseSlot n := by
  rw [moveLease_eq, leaseSlot_of_admission (admission_noteEligible _ _)]
  exact leaseSlot_modLease_ne hne _ _

theorem order_moveLease (n : Nat) (l : Lease) (j : Nat) (budget : Option Nat) (s : State) :
    (moveLease n l j budget s).admission.order = s.admission.order.filter (· != s.leaseHandle n) := by
  rw [moveLease_eq, admission_noteEligible]
  rfl

theorem entry_moveLease (n : Nat) (l : Lease) (j : Nat) (budget : Option Nat) (s : State) :
    (moveLease n l j budget s).entry = s.entry := by
  rw [moveLease_eq, entry_noteEligible]
  rfl

/-! ### The two ways -/

theorem eligible_of_newHolder (hj : s.newHolder l = some j) : j ∈ s.eligibleSet := by
  unfold State.newHolder at hj
  split at hj
  · split at hj
    · exact eligible_of_selectStation hj
    · exact eligible_of_selectStation hj
  · exact eligible_of_selectStation hj
  all_goals cases hj

/-- The lease of a lost entry is dismissed, or moved to an eligible station. -/
theorem endLost_cases (n : Nat) (l : Lease) (s : State) :
    (∃ out, endLost n l s = dismiss n out s) ∨
      ∃ j budget, j ∈ s.eligibleSet ∧ endLost n l s = moveLease n l j budget s := by
  have hover : (∃ out, handOverOrEnd n l s = dismiss n out s) ∨
      ∃ j budget, j ∈ s.eligibleSet ∧ handOverOrEnd n l s = moveLease n l j budget s := by
    unfold handOverOrEnd
    split
    · exact .inl ⟨_, rfl⟩
    · next j hj =>
      have heligible := eligible_of_newHolder hj
      split
      · exact .inl ⟨_, rfl⟩
      · split
        · exact .inr ⟨j, _, heligible, rfl⟩
        · split
          · exact .inl ⟨_, rfl⟩
          · exact .inr ⟨j, _, heligible, rfl⟩
  unfold endLost
  split
  · exact .inl ⟨_, rfl⟩
  · split
    · exact .inl ⟨_, rfl⟩
    · exact .inl ⟨_, rfl⟩
    · exact .inl ⟨_, rfl⟩
    · exact hover
    · exact hover

/-! ### What stands beside it -/

/-- What the dealing with another entry's lease leaves of slot `n` and of entry `i`; a lease that has another holder
after it has one that was eligible. -/
structure Beside (n i : Nat) (s t : State) : Prop where
  slot : t.leaseSlot n = s.leaseSlot n
  order : t.admission.order ⊆ s.admission.order
  entry : t.entry i = s.entry i
  holder : ∀ k l', t.lease? k = some l' → (∃ l, s.lease? k = some l ∧ l'.holder = l.holder) ∨ l'.holder ∈ s.eligibleSet

theorem beside_dismiss (hmn : m - 1 ≠ n - 1) (h8 : m - 1 < 8) (out : LeaseOutcome) (hl : s.lease? m = some l)
    (hi : l.holder ≠ i) : Beside n i s (dismiss m out s) where
  slot := leaseSlot_dismiss_ne hmn out hl
  order := by
    rw [order_dismiss out hl]
    exact List.filter_subset_self _
  entry := by
    rw [entry_dismiss out hl, entry_recorded_ne out hi.symm]
  holder k l' hl' := by
    by_cases hmk : m - 1 = k - 1
    · rw [lease_of_place hmk.symm, lease_dismiss h8] at hl'
      cases hl'
    · rw [lease_dismiss_ne hmk] at hl'
      exact .inl ⟨l', hl', rfl⟩

theorem beside_moveLease (hmn : m - 1 ≠ n - 1) (hl : s.lease? m = some l) (hj : j ∈ s.eligibleSet)
    (budget : Option Nat) : Beside n i s (moveLease m l j budget s) where
  slot := leaseSlot_moveLease_ne hmn l j budget s
  order := by
    rw [order_moveLease]
    exact List.filter_subset_self _
  entry := by rw [entry_moveLease]
  holder k l' hl' := by
    by_cases hmk : m - 1 = k - 1
    · rw [lease_of_place hmk.symm, State.lease?, leaseSlot_moveLease hl] at hl'
      obtain rfl := Option.some.inj hl'
      exact .inr hj
    · rw [State.lease?, leaseSlot_moveLease_ne hmk] at hl'
      exact .inl ⟨l', hl', rfl⟩

theorem beside_refl (n i : Nat) (s : State) : Beside n i s s :=
  ⟨rfl, List.Subset.refl _, rfl, fun _ l' hl' => .inl ⟨l', hl', rfl⟩⟩

/-- The lease of another lost entry, in another slot, is dealt with beside these. -/
theorem beside_dealWithLost (hji : j ≠ i) (hn : ∀ l, s.lease? n = some l → l.holder ≠ j) :
    Beside n i s (dealWithLost s j) := by
  unfold dealWithLost
  split
  · exact beside_refl n i s
  · next m hm =>
    split
    · exact beside_refl n i s
    · next l hl =>
      have hholder := holder_of_slotHeldBy hm hl
      obtain ⟨h1m, h8m, -⟩ := held_of_slotHeldBy hm
      have hmn : m - 1 ≠ n - 1 := fun e => by
        rw [lease_of_place e] at hl
        exact hn l hl hholder
      rcases endLost_cases m l s with ⟨out, he⟩ | ⟨k, budget, hk, he⟩
      · rw [he]
        exact beside_dismiss hmn (by omega) out hl (hholder.trans_ne hji)
      · rw [he]
        exact beside_moveLease hmn hl hk budget

/-! ### No lease is left to a lost entry -/

theorem not_eligible (hstate : (s.entry i).state ≠ .ready) : i ∉ s.eligibleSet := fun h =>
  hstate (mem_eligibleSet_iff.mp h).2.2.1

/-- How slot `n` and entry `i` stand once the lease that entry `i` held in slot `n` has been dealt with. -/
structure State.Dealt (s : State) (n i : Nat) (slot : LeaseSlot) (h : Handle) (e : Entry) : Prop where
  slot : s.leaseSlot n = slot
  order : h ∉ s.admission.order
  entry : s.entry i = e
  unheld : s.slotHeldBy i = none

variable {slot : LeaseSlot} {e : Entry}

theorem unheld_of_beside (hbeside : Beside n i s t) (hstate : (s.entry i).state ≠ .ready)
    (hs : s.slotHeldBy i = none) : t.slotHeldBy i = none := by
  refine slotHeldBy_eq_none.mpr fun k l' h1 h8 hl' => ?_
  rcases hbeside.holder k l' hl' with ⟨l, hl, he⟩ | hmem
  · rw [he]
    exact slotHeldBy_eq_none.mp hs k l h1 h8 hl
  · rintro rfl
    exact not_eligible hstate hmem

theorem dealt_of_beside (hbeside : Beside n i s t) (hstate : e.state ≠ .ready) (hs : s.Dealt n i slot h e) :
    t.Dealt n i slot h e where
  slot := hbeside.slot.trans hs.slot
  order hmem := hs.order (hbeside.order hmem)
  entry := hbeside.entry.trans hs.entry
  unheld := unheld_of_beside hbeside (by rwa [hs.entry]) hs.unheld

section only

variable (hl : s.lease? n = some l) (honly : ∀ k l', s.lease? k = some l' → l'.holder = i → k - 1 = n - 1)
include hl honly

theorem dealt_dismiss (h8 : n - 1 < 8) (out : LeaseOutcome) :
    (dismiss n out s).Dealt n i { issue := ((s.leaseSlot n).issue + 1) % 16, lease := none } (s.leaseHandle n)
      ((s.recorded n l out).entry i) where
  slot := leaseSlot_dismiss h8 out hl
  order := by
    rw [order_dismiss out hl]
    simp
  entry := by rw [entry_dismiss out hl]
  unheld := by
    refine slotHeldBy_eq_none.mpr fun k l' _ _ hl' hi => ?_
    by_cases hnk : n - 1 = k - 1
    · rw [lease_of_place hnk.symm, lease_dismiss h8] at hl'
      cases hl'
    · rw [lease_dismiss_ne hnk] at hl'
      exact hnk (honly k l' hl' hi).symm

theorem dealt_moveLease (hj : j ∈ s.eligibleSet) (hstate : (s.entry i).state ≠ .ready) (budget : Option Nat) :
    (moveLease n l j budget s).Dealt n i
      { issue := (s.leaseSlot n).issue, lease := some (s.handedOver l j budget) } (s.leaseHandle n) (s.entry i) where
  slot := leaseSlot_moveLease hl l j budget
  order := by
    rw [order_moveLease]
    simp
  entry := by rw [entry_moveLease]
  unheld := by
    refine slotHeldBy_eq_none.mpr fun k l' _ _ hl' hi => ?_
    by_cases hnk : n - 1 = k - 1
    · rw [lease_of_place hnk.symm, State.lease?, leaseSlot_moveLease hl] at hl'
      obtain rfl := Option.some.inj hl'
      have hji : j = i := hi
      exact not_eligible hstate (hji ▸ hj)
    · rw [State.lease?, leaseSlot_moveLease_ne hnk] at hl'
      exact hnk (honly k l' hl' hi).symm

end only

/-- The other lost entries' leases are dealt with beside it. -/
theorem dealt_others {others : List Nat} (hothers : ∀ j ∈ others, j ≠ i) (hstate : e.state ≠ .ready)
    (hholder : ∀ l, slot.lease = some l → l.holder ∉ others) (hs : s.Dealt n i slot h e) :
    (others.foldl dealWithLost s).Dealt n i slot h e := by
  refine List.foldlRecOn (motive := fun u => State.Dealt u n i slot h e) others dealWithLost hs fun u hu j hj => ?_
  refine dealt_of_beside (beside_dealWithLost (hothers j hj) fun l hl he => ?_) hstate hu
  rw [State.lease?, hu.slot] at hl
  exact hholder l hl (he ▸ hj)

/-- The holder of the lease in slot `n` keeps it as the only one. -/
theorem holds_of_beside (hbeside : Beside n i s t) (hstate : (t.entry j).state = (s.entry j).state)
    (hs : s.Holds n j) : t.Holds n j where
  slot := hs.slot
  index := hs.index
  ready := hstate.trans hs.ready
  lease := by
    obtain ⟨l, hl, hi⟩ := hs.lease
    rw [State.lease?, hbeside.slot]
    exact ⟨l, hl, hi⟩
  only k l' hl' hi := by
    obtain ⟨l, hl, hj⟩ := hs.lease
    rcases hbeside.holder k l' hl' with ⟨l0, hl0, he⟩ | hmem
    · exact hs.only k l0 hl0 (he ▸ hi)
    · obtain ⟨-, -, -, -, -, hfree, -⟩ := mem_eligibleSet_iff.mp hmem
      exact absurd (hj.trans hi.symm) (hfree n l hs.slot.1 hs.slot.2 hl)

/-! ### The entries' states -/

theorem state_recorded (s : State) (n : Nat) (l : Lease) (out : LeaseOutcome) (k : Nat) :
    ((s.recorded n l out).entry k).state = (s.entry k).state := by
  by_cases hk : k = l.holder
  · subst hk
    by_cases h7 : l.holder ≤ 7
    · rw [entry_recorded out h7]
    · rw [entry_absent (by omega), entry_absent (by omega)]
  · rw [entry_recorded_ne out hk]

theorem state_dealWithLost (s : State) (j k : Nat) : ((dealWithLost s j).entry k).state = (s.entry k).state := by
  unfold dealWithLost
  split
  · rfl
  · next m _ =>
    split
    · rfl
    · next l hl =>
      rcases endLost_cases m l s with ⟨out, he⟩ | ⟨k', budget, -, he⟩
      · rw [he, entry_dismiss out hl]
        exact state_recorded s m l out k
      · rw [he, entry_moveLease]

theorem state_dealtWith (lost : List Nat) (s : State) (k : Nat) :
    ((lost.foldl dealWithLost s).entry k).state = (s.entry k).state :=
  foldl_keeps (fun u : State => (u.entry k).state) dealWithLost (fun u j => state_dealWithLost u j k) lost s

theorem holds_others {others : List Nat} (hs : s.Holds n j) (hj : j ∉ others) :
    (others.foldl dealWithLost s).Holds n j := by
  refine List.foldlRecOn (motive := fun u => State.Holds u n j) others dealWithLost hs fun u hu k hk => ?_
  refine holds_of_beside (i := j) (beside_dealWithLost (fun e => hj (e ▸ hk)) fun l hl he => hj ?_)
    (state_dealWithLost u k j) hu
  rw [← holder_eq hu hl, he]
  exact hk

theorem holds_moveLease (h1 : 1 ≤ n) (h8 : n ≤ 8) (hl : s.lease? n = some l) (hj : j ∈ s.eligibleSet)
    (budget : Option Nat) : (moveLease n l j budget s).Holds n j where
  slot := ⟨h1, h8⟩
  index := by
    obtain ⟨hj1, hj7, -⟩ := mem_eligibleSet_iff.mp hj
    exact ⟨hj1, hj7⟩
  ready := by
    rw [entry_moveLease]
    exact (mem_eligibleSet_iff.mp hj).2.2.1
  lease := ⟨_, congrArg LeaseSlot.lease (leaseSlot_moveLease hl l j budget), rfl⟩
  only k l' hl' hi := by
    by_contra hkn
    rw [State.lease?, leaseSlot_moveLease_ne (Ne.symm hkn)] at hl'
    obtain ⟨-, -, -, -, -, hfree, -⟩ := mem_eligibleSet_iff.mp hj
    exact holder_ne_of_unheld (slotHeldBy_eq_none.mpr hfree) hl' hi

end Sys2Proof.Machine

/-! ### The loss of an entry, from its third missed exchange to the end of the step (R128, R144) -/

namespace Sys2Proof.Machine
variable {s t u v w : State} {i j n m k : Nat} {l l' : Lease} {x : Exchange} {h : Handle} {e : Option EventFlag}

/-- The rates brought up to date once the leases of lost entries have been dealt with, and the new holders granted theirs:
`b` is the part before, `w` the part after the dealing. -/
def announced (b w : State) : State := upTo8.foldl (announceHandover b) (resettle w w)

/-- What else the loss of entry `i` brings: its event, the pass starts, and the end of an enumeration. -/
def State.mourned (s : State) (i : Nat) (x : Exchange) (u : State) : State :=
  afterEnumerated x ((s.lostWith i).foldl (startForLost (s.silenced i x)) (u.raise .stationLost))

/-- What follows once the leases of the entries lost have been dealt with, but for what closes the step. -/
def State.afterLoss (s : State) (i : Nat) (x : Exchange) (w : State) : State :=
  s.mourned i x (announced (s.bereft i x) w)

theorem countMiss_third (h7 : i ≤ 7) (hmissed : 2 ≤ (s.entry i).missed)
    (hheard : (s.entry i).state.isHeard = true) :
    countMiss i (returnCommand i x (s.modLink fun k => { k with exchange := none })) =
      loseEntries (s.lostWith i) (s.silenced i x) := by
  obtain ⟨k, hk⟩ := returnCommand_eq i x (s.modLink fun k => { k with exchange := none })
  have hentry : (returnCommand i x (s.modLink fun k => { k with exchange := none })).entry i = s.entry i := by
    rw [hk]
    rfl
  have hthree : min 3 ((s.entry i).missed + 1) = 3 := by omega
  unfold countMiss
  dsimp only
  rw [hentry, hthree, if_pos ⟨rfl, hheard⟩, ← State.silenced, lostWith_silenced h7]

/-- A window that expires on the third missed exchange of an entry heard. -/
theorem expireWindow_third (hx : s.link.exchange = some x) (h31 : x.addr ≠ 31) (hi : s.indexAt x.addr = some i)
    (hmissed : 2 ≤ (s.entry i).missed) (hheard : (s.entry i).state.isHeard = true) :
    expireWindow s = closing (s.afterLoss i x ((s.lostWith i).foldl dealWithLost (s.bereft i x))) := by
  obtain ⟨h1, h7⟩ := index_of_indexAt hi
  have hlost : ((s.lostWith i).isEmpty) = false :=
    List.isEmpty_eq_false_iff_exists_mem.mpr ⟨i, mem_lostWith.mpr ⟨⟨h1, h7⟩, .inl rfl, hheard⟩⟩
  have hindex : (s.modLink fun k => { k with exchange := none }).indexAt x.addr = some i := hi
  unfold expireWindow
  rw [stationExchange?_eq hx rfl h31]
  dsimp only
  unfold failExchange
  dsimp only
  rw [hindex]
  dsimp only
  rw [countMiss_third h7 hmissed hheard, loseEntries, hlost]
  rfl

/-! ### What that leaves -/

theorem shelf_announceHandover (b s : State) (n : Nat) : (announceHandover b s n).shelf = s.shelf := by
  unfold announceHandover
  split
  · rfl
  · split
    · exact shelf_place _ _ _
    · rfl

theorem core_announceHandover (b s : State) (k : Nat) : (announceHandover b s k).core n = s.core n := by
  unfold announceHandover
  split
  · rfl
  · split
    · exact core_place _ _ _ _
    · rfl

theorem startForLost_eq (b s : State) (i : Nat) :
    startForLost b s i = s.modCoverage fun _ => (startForLost b s i).coverage := by
  unfold startForLost
  split
  · exact passStart_eq s
  · rfl

theorem startAll_eq (b : State) (lost : List Nat) (s : State) :
    ∃ c, lost.foldl (startForLost b) s = s.modCoverage fun _ => c := by
  induction lost generalizing s with
  | nil => exact ⟨s.coverage, rfl⟩
  | cons i lost ih =>
    obtain ⟨c, hc⟩ := ih (startForLost b s i)
    refine ⟨c, ?_⟩
    rw [List.foldl_cons, hc, startForLost_eq]
    rfl

/-- What neither leases nor queues feel. -/
theorem mourned_eq (s : State) (i : Nat) (x : Exchange) (u : State) :
    ∃ k p c, s.mourned i x u = ((u.modPort fun _ => p).modCoverage fun _ => c).modLink (fun _ => k) ∧
      k.stations = u.link.stations := by
  obtain ⟨c, hc⟩ := startAll_eq (s.silenced i x) (s.lostWith i) (u.raise .stationLost)
  obtain ⟨k, hk, hstations, -⟩ := afterEnumerated_eq x
    ((s.lostWith i).foldl (startForLost (s.silenced i x)) (u.raise .stationLost))
  refine ⟨k, (u.raise .stationLost).port, c, ?_, ?_⟩
  · rw [State.mourned, hk, hc]
    rfl
  · rw [hstations, hc]
    rfl

theorem shelf_mourned (s : State) (i : Nat) (x : Exchange) (u : State) : (s.mourned i x u).shelf = u.shelf := by
  obtain ⟨k, p, c, heq, hstations⟩ := mourned_eq s i x u
  rw [heq, State.shelf, State.shelf, modLink_link, hstations]
  rfl

theorem entry_mourned (s : State) (i : Nat) (x : Exchange) (u : State) : (s.mourned i x u).entry = u.entry := by
  obtain ⟨k, p, c, heq, -⟩ := mourned_eq s i x u
  rw [heq]
  rfl

theorem entries_mourned (s : State) (i : Nat) (x : Exchange) (u : State) :
    (s.mourned i x u).roster.entries = u.roster.entries := by
  obtain ⟨k, p, c, heq, -⟩ := mourned_eq s i x u
  rw [heq]
  rfl

theorem core_mourned (s : State) (i : Nat) (x : Exchange) (u : State) : (s.mourned i x u).core n = u.core n := by
  obtain ⟨k, p, c, heq, -⟩ := mourned_eq s i x u
  rw [heq]
  rfl

theorem station_mourned (s : State) (i : Nat) (x : Exchange) (u : State) (j : Nat) :
    (s.mourned i x u).station j = u.station j := by
  obtain ⟨k, p, c, heq, hstations⟩ := mourned_eq s i x u
  rw [heq, State.station, State.station, modLink_link, hstations]

theorem marked_mourned (hu : u.marked e) (s : State) (i : Nat) (x : Exchange) : (s.mourned i x u).marked e := by
  have hstarted := foldl_marked _ (fun _ j hu => marked_startForLost (s.silenced i x) j hu) (s.lostWith i) _
    (marked_raise .stationLost hu)
  obtain ⟨k, hk, -⟩ := afterEnumerated_eq x
    ((s.lostWith i).foldl (startForLost (s.silenced i x)) (u.raise .stationLost))
  rw [State.mourned, hk]
  exact marked_of_eq rfl rfl hstarted

theorem calm_announced (b w : State) : (announced b w).calm = w.calm :=
  (foldl_calm _ (calm_announceHandover b) _ _).trans (calm_resettle w w)

theorem shelf_announced (b w : State) : (announced b w).shelf = w.shelf :=
  (foldl_shelf _ (shelf_announceHandover b) _ _).trans (shelf_resettle w w)

theorem core_announced (h1 : 1 ≤ n) (hrest : w.atRest n) (b : State) : (announced b w).core n = w.core n :=
  (foldl_keeps (State.core · n) _ (core_announceHandover b) _ _).trans (core_resettle h1 w hrest)

/-! ### The GRANT of a lease handed over (R113) -/

theorem station_announceHandover (hu : u.Holds n j) (hk : k ≠ n) (h1 : 1 ≤ k) (b : State) :
    (announceHandover b u k).station j = u.station j := by
  unfold announceHandover
  split
  · rfl
  · next l hl =>
    split
    · refine station_place_ne (fun hj => ?_) _ u
      have hn1 := hu.slot.1
      have := hu.only k l hl hj
      omega
    · rfl

theorem holds_announceHandover (hu : u.Holds n j) (b : State) (k : Nat) : (announceHandover b u k).Holds n j :=
  holds_of_shelf (calm_eq_iff.mp (calm_announceHandover b u k)).2.2.2.1 (shelf_announceHandover b u k) hu

theorem station_announceOthers {others : List Nat} (hothers : ∀ k ∈ others, k ≠ n ∧ 1 ≤ k) (b : State)
    (hu : u.Holds n j) : (others.foldl (announceHandover b) u).station j = u.station j := by
  induction others generalizing u with
  | nil => rfl
  | cons k others ih =>
    obtain ⟨hk, h1⟩ := hothers k List.mem_cons_self
    rw [List.foldl_cons, ih (fun k' hk' => hothers k' (List.mem_cons_of_mem k hk')) (holds_announceHandover hu b k),
      station_announceHandover hu hk h1]

/-- The lease in slot `n` is announced to its new holder, and its GRANT waits. -/
theorem grant_announceHandover {b : State} (hu : u.Holds n j) (hl : u.lease? n = some l')
    (hhandle : b.leaseHandle n = u.leaseHandle n) (hb : b.lease? n = some l) (hj : l.holder ≠ j) :
    ∃ y ∈ ((announceHandover b u n).station j).queue, y.cmd = u.grantOf n l' := by
  have hholder : l'.holder = j := holder_eq hu hl
  have hmoved : ((b.sameLease? u n).any fun l0 => l0.holder != l'.holder) = true := by
    rw [State.sameLease?, if_pos hhandle, hb, Option.any_some, bne_iff_ne, hholder]
    exact hj
  unfold announceHandover
  rw [hl]
  dsimp only
  rw [if_pos hmoved, hholder, queue_place hu.index.1 hu.index.2]
  exact waits_enqueue

theorem grant_announced {b : State} (hw : w.Holds n j) (hl : w.lease? n = some l') (hoffered : l'.state = .offered)
    (hhandle : b.leaseHandle n = w.leaseHandle n) (hb : b.lease? n = some l) (hj : l.holder ≠ j) :
    ∃ y ∈ ((announced b w).station j).queue,
      ∃ rate, y.cmd = .grant (w.leaseHandle n) l'.kind rate l'.ceiling l'.budget := by
  obtain ⟨h1, h8⟩ := hw.slot
  obtain ⟨before, after, hsplit⟩ := List.append_of_mem (mem_upTo8.mpr ⟨h1, h8⟩)
  have hothers : ∀ k ∈ before ++ after, k ≠ n ∧ 1 ≤ k := by
    have hnodup : (before ++ n :: after).Nodup := hsplit ▸ (by decide : upTo8.Nodup)
    obtain ⟨hfresh, -⟩ := List.nodup_cons.mp (List.nodup_middle.mp hnodup)
    intro k hk
    refine ⟨fun e => hfresh (e ▸ hk), ?_⟩
    refine (mem_upTo8 (n := k).mp ?_).1
    rw [hsplit]
    simp only [List.mem_append, List.mem_cons] at hk ⊢
    tauto
  have hrest := atRest_of_lease hl (by rw [hoffered]; rfl) (by rw [hoffered]; decide)
  obtain ⟨l1, hl1, hcore⟩ := lease_of_core (core_resettle h1 w hrest) hl
  have hholds := holds_of_shelf (calm_eq_iff.mp (calm_resettle w w)).2.2.2.1 (shelf_resettle w w) hw
  have hhandle1 := leaseHandle_of_shelf (shelf_resettle w w) n
  unfold announced
  generalize resettle w w = r at hl1 hholds hhandle1
  have hbefore : (before.foldl (announceHandover b) r).core n = r.core n :=
    foldl_keeps (State.core · n) _ (core_announceHandover b) _ _
  have hshelf : (before.foldl (announceHandover b) r).shelf = r.shelf := foldl_shelf _ (shelf_announceHandover b) _ _
  have hcalm : (before.foldl (announceHandover b) r).calm = r.calm := foldl_calm _ (calm_announceHandover b) _ _
  rw [hsplit, List.foldl_append, List.foldl_cons]
  generalize before.foldl (announceHandover b) r = q at hbefore hshelf hcalm
  obtain ⟨l2, hl2, hcore2⟩ := lease_of_core hbefore hl1
  have hq := holds_of_shelf (calm_eq_iff.mp hcalm).2.2.2.1 hshelf hholds
  have hhandle2 := (leaseHandle_of_shelf hshelf n).trans hhandle1
  obtain ⟨y, hy, hcmd⟩ := grant_announceHandover hq hl2 (hhandle.trans hhandle2.symm) hb hj
  refine ⟨y, ?_, l2.granted, ?_⟩
  · rw [station_announceOthers (fun k hk => hothers k (List.mem_append_right _ hk)) b (holds_announceHandover hq b n)]
    exact hy
  · have hall := hcore2.trans hcore
    have hkind : l2.kind = l'.kind := (congrArg Lease.kind hall :)
    have hceiling : l2.ceiling = l'.ceiling := (congrArg Lease.ceiling hall :)
    have hbudget : l2.budget = l'.budget := (congrArg Lease.budget hall :)
    rw [hcmd, State.grantOf, hhandle2, hkind, hceiling, hbudget]

end Sys2Proof.Machine

/-! ### The lease that a lost entry leaves (R82, R112 to R114) -/

namespace Sys2Proof.Machine
variable {s t u v w : State} {i j n m k : Nat} {l l' : Lease} {x : Exchange} {h : Handle} {out : LeaseOutcome}
  {slot : LeaseSlot} {e : Entry} {budget : Option Nat}

theorem slotHeldBy_of_holds (hs : s.Holds n i) : s.slotHeldBy i = some n := by
  obtain ⟨h1, h8⟩ := hs.slot
  obtain ⟨l, hl, hi⟩ := hs.lease
  cases hheld : s.slotHeldBy i with
  | none => exact absurd hi (slotHeldBy_eq_none.mp hheld n l h1 h8 hl)
  | some m =>
    obtain ⟨hm1, -, l', hl', hi'⟩ := held_of_slotHeldBy hheld
    have := hs.only m l' hl' hi'
    rw [show m = n by omega]

/-- The part once the loss of entry `i` has run its course. -/
def State.lossClosed (s : State) (i : Nat) (x : Exchange) : State :=
  closing (s.afterLoss i x ((s.lostWith i).foldl dealWithLost (s.bereft i x)))

/-- Entry `i` is heard and holds the lease in slot `n`; a partner of a lower index holds none. -/
structure State.Bereaves (s : State) (i n : Nat) (l : Lease) : Prop where
  holds : s.Holds n i
  lease : s.lease? n = some l
  heard : (s.entry i).state.isHeard = true
  pair : ∀ j, (s.entry i).partner = some j → j < i → s.slotHeldBy j = none

theorem admission_bereft (s : State) (i : Nat) (x : Exchange) : (s.bereft i x).admission = s.admission :=
  (sameOutside_bereft s i x).1 .admission (by simp)

theorem leaseHandle_of_admission (ha : t.admission = s.admission) (n : Nat) : t.leaseHandle n = s.leaseHandle n := by
  rw [State.leaseHandle, State.leaseHandle, leaseSlot_of_admission ha]

/-- No lease is dealt with before that of entry `i`, and those dealt with after it are others'. -/
theorem dealing_split (hs : s.Bereaves i n l) (x : Exchange) :
    ∃ others : List Nat, (∀ j ∈ others, j ∈ s.lostWith i ∧ j ≠ i) ∧
      (s.lostWith i).foldl dealWithLost (s.bereft i x) = others.foldl dealWithLost (endLost n l (s.bereft i x)) := by
  obtain ⟨before, after, hsplit⟩ := List.append_of_mem
    (mem_lostWith.mpr ⟨⟨hs.holds.index.1, hs.holds.index.2⟩, .inl rfl, hs.heard⟩)
  have hsorted : (before ++ i :: after).Pairwise (· < ·) := by
    rw [← hsplit]
    exact (by decide : stationIndexes.Pairwise (· < ·)).filter _
  obtain ⟨-, hrest, hlower⟩ := List.pairwise_append.mp hsorted
  obtain ⟨hupper, -⟩ := List.pairwise_cons.mp hrest
  have hslot (j : Nat) : (s.bereft i x).slotHeldBy j = s.slotHeldBy j := slotHeldBy_of_admission (admission_bereft s i x) j
  have hbefore : before.foldl dealWithLost (s.bereft i x) = s.bereft i x := by
    refine List.foldlRecOn (motive := fun u => u = s.bereft i x) before dealWithLost rfl fun u hu j hj => ?_
    have hlt : j < i := hlower j hj i List.mem_cons_self
    have hmem : j ∈ s.lostWith i := hsplit ▸ List.mem_append_left _ hj
    have hpartner := (mem_lostWith.mp hmem).2.1.resolve_left (by omega)
    rw [hu, dealWithLost, hslot, hs.pair j hpartner hlt]
  have hown : dealWithLost (s.bereft i x) i = endLost n l (s.bereft i x) := by
    have hl : (s.bereft i x).lease? n = some l := (lease_of_admission (admission_bereft s i x) n).trans hs.lease
    rw [dealWithLost, hslot, slotHeldBy_of_holds hs.holds]
    dsimp only
    rw [hl]
  refine ⟨after, fun j hj => ⟨?_, ?_⟩, ?_⟩
  · rw [hsplit]
    exact List.mem_append_right _ (List.mem_cons_of_mem _ hj)
  · have := hupper j hj
    omega
  · rw [hsplit, List.foldl_append, List.foldl_cons, hbefore, hown]

/-! ### To the end of the step -/

theorem shelf_lossClosed (s : State) (i : Nat) (x : Exchange) (w : State) :
    (closing (s.afterLoss i x w)).shelf = w.shelf :=
  (shelf_closing _).trans ((shelf_mourned s i x _).trans (shelf_announced _ w))

theorem entry_lossClosed (s : State) (i : Nat) (x : Exchange) (w : State) :
    (closing (s.afterLoss i x w)).entry = w.entry :=
  (entry_closing _).trans ((entry_mourned s i x _).trans (entry_of_calm (calm_announced _ w)))

theorem marked_lossClosed {f : Option EventFlag} (hw : w.marked f) (s : State) (i : Nat) (x : Exchange) :
    (closing (s.afterLoss i x w)).marked f :=
  marked_closing (marked_mourned (marked_of_calm (calm_announced _ w) hw) s i x)

/-- A slot freed, an order, an entry and an entry's leases are at the end of the step as the dealing left them. -/
theorem dealt_lossClosed {g : Nat} (hw : w.Dealt n i { issue := g, lease := none } h e) (s : State) (k : Nat)
    (x : Exchange) : (closing (s.afterLoss k x w)).Dealt n i { issue := g, lease := none } h e where
  slot := freed_of_shelf (shelf_lossClosed s k x w) hw.slot
  order := by
    have horder : (closing (s.afterLoss k x w)).admission.order = w.admission.order :=
      congrArg Shelf.order (shelf_lossClosed s k x w)
    rw [horder]
    exact hw.order
  entry := by rw [entry_lossClosed, hw.entry]
  unheld := by rw [slotHeldBy_of_shelf (shelf_lossClosed s k x w), hw.unheld]

section bereaved

variable (hs : s.Bereaves i n l) (x : Exchange)
include hs

theorem lease_bereft : (s.bereft i x).lease? n = some l :=
  (lease_of_admission (admission_bereft s i x) n).trans hs.lease

theorem only_bereft (k : Nat) (l' : Lease) (hl' : (s.bereft i x).lease? k = some l') (hi : l'.holder = i) :
    k - 1 = n - 1 :=
  hs.holds.only k l' ((lease_of_admission (admission_bereft s i x) k).symm.trans hl') hi

theorem entry_bereaved : (s.bereft i x).entry i = { s.entry i with state := .lost, missed := 3, retry := none } :=
  entry_bereft hs.holds.index.1 hs.holds.index.2 hs.heard

/-- A lease that the loss ends leaves the table. -/
theorem loss_frees (hend : endLost n l (s.bereft i x) = dismiss n out (s.bereft i x)) :
    (s.lossClosed i x).Dealt n i { issue := ((s.leaseSlot n).issue + 1) % 16, lease := none } (s.leaseHandle n)
        { s.entry i with
          state := .lost, missed := 3, retry := none
          last := some { handle := s.leaseHandle n, kind := l.kind, outcome := out, delivered := l.delivered } } ∧
      (s.lossClosed i x).flagged .leaseRetired = true := by
  have hl := lease_bereft hs x
  have hi : l.holder = i := holder_eq hs.holds hs.lease
  have h8 := hs.holds.slot.2
  have hadmission := admission_bereft s i x
  have hdealt := dealt_dismiss hl (only_bereft hs x) (by omega) out
  have hentry : ((s.bereft i x).recorded n l out).entry i =
      { s.entry i with
        state := .lost, missed := 3, retry := none
        last := some { handle := s.leaseHandle n, kind := l.kind, outcome := out, delivered := l.delivered } } := by
    have h7 : l.holder ≤ 7 := hi ▸ hs.holds.index.2
    have hrec := entry_recorded (s := s.bereft i x) (n := n) out h7
    rw [hi, entry_bereaved hs x, leaseHandle_of_admission hadmission] at hrec
    exact hrec
  rw [hentry, leaseSlot_of_admission hadmission, leaseHandle_of_admission hadmission] at hdealt
  have hflag : (dismiss n out (s.bereft i x)).marked (some .leaseRetired) := dismiss_raises n out (by rw [hl]; nofun)
  obtain ⟨others, hothers, hfold⟩ := dealing_split hs x
  rw [State.lossClosed, hfold, hend]
  exact ⟨dealt_lossClosed (dealt_others (fun j hj => (hothers j hj).2) (show EntryState.lost ≠ .ready by decide) (fun _ => nofun) hdealt) s i x,
    marked_lossClosed (foldl_marked _ (fun _ j hu => marked_dealWithLost j hu) _ _ hflag) s i x⟩

end bereaved

/-- How a lease handed over to station `j` stands at the end of the step: OFFERED, and its GRANT placed. -/
structure State.HandedOver (s : State) (i n j : Nat) (l l1 : Lease) (t : State) : Prop where
  slot : ∃ l', t.leaseSlot n = { issue := (s.leaseSlot n).issue, lease := some l' } ∧ l'.core = l1.core
  order : s.leaseHandle n ∉ t.admission.order
  entry : t.entry i = { s.entry i with state := .lost, missed := 3, retry := none }
  unheld : t.slotHeldBy i = none
  held : t.slotHeldBy j = some n
  pass : s.map.valid = true → t.coverage.pass.isSome = true
  grant : ∃ y ∈ (t.station j).queue, ∃ rate, y.cmd = .grant (s.leaseHandle n) l.kind rate l.ceiling l1.budget

theorem pass_moveLease (hj : j ∈ v.eligibleSet) (hl : v.lease? n = some l) (h1 : 1 ≤ n) (h8 : n ≤ 8)
    (hvalid : v.map.valid = true) (budget : Option Nat) :
    (moveLease n l j budget v).coverage.pass.isSome = true := by
  have hset : (v.moved n l j budget).eligibleSet ≠ v.eligibleSet := fun e => by
    obtain ⟨-, -, -, -, -, hfree, -⟩ := mem_eligibleSet_iff.mp (e ▸ hj)
    refine hfree n (v.handedOver l j budget) h1 h8 ?_ rfl
    have hslot := leaseSlot_moveLease hl l j budget
    rw [moveLease_eq, leaseSlot_of_admission (admission_noteEligible _ _)] at hslot
    exact congrArg LeaseSlot.lease hslot
  rw [moveLease_eq, noteEligible, if_neg hset]
  exact passStart_inFlight hvalid

section bereaved

variable (hs : s.Bereaves i n l) (x : Exchange)
include hs

/-- A lease that the loss moves is offered by its new holder. -/
theorem loss_moves (hj : j ∈ (s.bereft i x).eligibleSet)
    (hend : endLost n l (s.bereft i x) = moveLease n l j budget (s.bereft i x)) :
    s.HandedOver i n j l ((s.bereft i x).handedOver l j budget) (s.lossClosed i x) := by
  obtain ⟨h1, h8⟩ := hs.holds.slot
  have hl := lease_bereft hs x
  have hi : l.holder = i := holder_eq hs.holds hs.lease
  have hadmission := admission_bereft s i x
  have hentry := entry_bereaved hs x
  have hstate : ((s.bereft i x).entry i).state ≠ .ready := by
    rw [hentry]
    nofun
  have hji : j ≠ i := fun e => not_eligible hstate (e ▸ hj)
  have hdealt := dealt_moveLease hl (only_bereft hs x) hj hstate budget
  have hholds := holds_moveLease h1 h8 hl hj budget
  have hpass (hvalid : s.map.valid = true) : (moveLease n l j budget (s.bereft i x)).marked none :=
    pass_moveLease hj hl h1 h8 (((congrArg StratumMap.valid ((sameOutside_bereft s i x).1 .map (by simp))).trans hvalid :)) budget
  rw [hentry, leaseSlot_of_admission hadmission, leaseHandle_of_admission hadmission] at hdealt
  obtain ⟨others, hothers, hfold⟩ := dealing_split hs x
  have hjothers : j ∉ others := fun hmem => by
    obtain ⟨hlost, hne⟩ := hothers j hmem
    have hready := (mem_eligibleSet_iff.mp hj).2.2.1
    rw [entry_bereft_ne hne (mem_lostWith.mp hlost).1.2, if_pos hlost] at hready
    cases hready
  have hw := dealt_others (fun k hk => (hothers k hk).2) (show EntryState.lost ≠ .ready by decide)
    (fun l0 hl0 => by
      obtain rfl := Option.some.inj hl0
      exact hjothers) hdealt
  have hwholds := holds_others hholds hjothers
  have hwpass (hvalid : s.map.valid = true) :=
    foldl_marked _ (fun _ k hu => marked_dealWithLost k hu) others _ (hpass hvalid)
  rw [State.lossClosed, hfold, hend]
  generalize others.foldl dealWithLost (moveLease n l j budget (s.bereft i x)) = w at hw hwholds hwpass
  have hwl : w.lease? n = some ((s.bereft i x).handedOver l j budget) := congrArg LeaseSlot.lease hw.slot
  have hrest : w.atRest n := atRest_of_lease hwl rfl nofun
  have hcore : (s.afterLoss i x w).core n = w.core n :=
    (core_mourned s i x _).trans (core_announced h1 hrest (s.bereft i x))
  obtain ⟨l2, hl2, hcore2⟩ := lease_of_core hcore hwl
  have hoffered2 : l2.state = .offered := (same_of_core hcore2).2.1.mpr rfl
  have hrest2 : (s.afterLoss i x w).atRest n := atRest_of_lease hl2 (by rw [hoffered2]; rfl) (by rw [hoffered2]; decide)
  have hshelf := shelf_lossClosed s i x w
  have hholds2 : (s.afterLoss i x w).Holds n j :=
    holds_of_shelf ((entries_mourned s i x _).trans (calm_eq_iff.mp (calm_announced (s.bereft i x) w)).2.2.2.1)
      ((shelf_mourned s i x _).trans (shelf_announced (s.bereft i x) w)) hwholds
  refine ⟨leaseSlot_of_core ((core_closing h1 hrest2).trans hcore) hw.slot, ?_, ?_, ?_, ?_, fun hvalid => ?_, ?_⟩
  · have horder : (closing (s.afterLoss i x w)).admission.order = w.admission.order := congrArg Shelf.order hshelf
    rw [horder]
    exact hw.order
  · rw [entry_lossClosed, hw.entry]
  · rw [slotHeldBy_of_shelf hshelf, hw.unheld]
  · rw [slotHeldBy_of_shelf hshelf, slotHeldBy_of_holds hwholds]
  · exact marked_lossClosed (f := none) (hwpass hvalid) s i x
  · have hsame := plot_of_turns_offered hl2 hoffered2 (same_of_core hcore2).2.2.2.2.1 (turns_closing hholds2)
    rw [(plot_eq_iff.mp hsame).2.2.2, State.afterLoss, station_mourned]
    have hhandle : (s.bereft i x).leaseHandle n = s.leaseHandle n := leaseHandle_of_admission hadmission n
    have hwhandle : w.leaseHandle n = s.leaseHandle n := by
      rw [State.leaseHandle, hw.slot]
      rfl
    obtain ⟨y, hy, rate, hcmd⟩ := grant_announced hwholds hwl rfl (hhandle.trans hwhandle.symm) hl (hi.trans_ne hji.symm)
    rw [hwhandle] at hcmd
    exact ⟨y, hy, rate, hcmd⟩

/-- A lost entry is left without a lease, and its partner is LOST with it. -/
theorem loss_common :
    (s.lossClosed i x).slotHeldBy i = none ∧
      ∀ j, 1 ≤ j → j ≤ 7 → (s.entry i).partner = some j → (s.entry j).state.isHeard = true →
        ((s.lossClosed i x).entry j).state = .lost := by
  constructor
  · rcases endLost_cases n l (s.bereft i x) with ⟨out, hend⟩ | ⟨j, budget, hj, hend⟩
    · exact (loss_frees hs x hend).1.unheld
    · exact (loss_moves hs x hj hend).unheld
  · intro j h1 h7 hpartner hheard
    rw [State.lossClosed, entry_lossClosed, state_dealtWith]
    by_cases hj : j = i
    · subst hj
      rw [entry_bereaved hs x]
    · rw [entry_bereft_ne hj h7, if_pos (mem_lostWith.mpr ⟨⟨h1, h7⟩, .inr hpartner, hheard⟩)]

end bereaved

end Sys2Proof.Machine

/-! ### What becomes of the lease of a lost station (R82, R112 to R114) -/

namespace Sys2Proof.Machine
variable {s t u : State} {i j n : Nat} {l : Lease} {x : Exchange} {r : LeaseOutcome}

/-- The budget with which a lease leaves its lost holder: adjusted where it is SUSPENDED (R114). -/
def State.leftBudget (s : State) (l : Lease) : Option Nat :=
  match l.saved with
  | none => l.budget
  | some ctx => l.budget.map (· - (s.admission.freeHeat + 4294967296 - ctx.freeMark) % 4294967296)

/-- A lease that may be handed over (R112). -/
def Lease.Movable (l : Lease) : Prop := l.state ≠ .revoking ∧ (l.kind = .topUp ∨ l.kind = .sanitise)

/-- A SUSPENDED lease whose adjusted budget is delivered (R114). -/
def State.deliveredByFree (s : State) (l : Lease) : Prop :=
  l.saved ≠ none ∧ ∃ b, s.leftBudget l = some b ∧ b ≤ l.delivered

theorem leftBudget_of_admission (h : t.admission = s.admission) (l : Lease) : t.leftBudget l = s.leftBudget l := by
  rw [State.leftBudget, State.leftBudget, h]

/-! ### The lease of a lost entry, by its kind and state -/

theorem endLost_revoking (hstate : l.state = .revoking) (hreason : l.reason = some r) (n : Nat) (u : State) :
    endLost n l u = dismiss n r u := by
  rw [endLost, if_pos hstate, hreason]
  rfl

theorem endLost_free (hstate : l.state ≠ .revoking) (hkind : l.kind = .free) (n : Nat) (u : State) :
    endLost n l u = dismiss n .ceased u := by
  rw [endLost, if_neg hstate, hkind]

theorem endLost_boost (hstate : l.state ≠ .revoking) (hkind : l.kind = .boost) (n : Nat) (u : State) :
    endLost n l u = dismiss n .sourceLost u := by
  rw [endLost, if_neg hstate, hkind]

section movable

variable (hmove : l.Movable)
include hmove

theorem endLost_movable (n : Nat) (u : State) : endLost n l u = handOverOrEnd n l u := by
  obtain ⟨hstate, hkind | hkind⟩ := hmove
  · rw [endLost, if_neg hstate, hkind]
  · rw [endLost, if_neg hstate, hkind]

theorem newHolder_eq_none : u.newHolder l = none ↔ u.eligibleSet = [] := by
  obtain ⟨-, hkind | hkind⟩ := hmove
  · rw [State.newHolder, hkind]
    dsimp only
    split
    · exact selectStation_eq_none
    · exact selectStation_eq_none
  · rw [State.newHolder, hkind]
    exact selectStation_eq_none

theorem endLost_stuck (hstuck : u.eligibleSet = [] ∨ 2 ≤ l.handovers.getD 0) (n : Nat) :
    endLost n l u = dismiss n .sourceLost u := by
  rw [endLost_movable hmove, handOverOrEnd]
  cases hholder : u.newHolder l with
  | none => rfl
  | some j =>
    rcases hstuck with hnone | htwice
    · rw [(newHolder_eq_none hmove).mpr hnone] at hholder
      cases hholder
    · exact if_pos htwice

theorem endLost_satisfied (hstuck : ¬(u.eligibleSet = [] ∨ 2 ≤ l.handovers.getD 0)) (hsat : u.deliveredByFree l) (n : Nat) :
    endLost n l u = dismiss n .satisfiedByFree u := by
  obtain ⟨hempty, htwice⟩ := not_or.mp hstuck
  obtain ⟨j, hj⟩ := Option.ne_none_iff_exists'.mp (mt (newHolder_eq_none hmove).mp hempty)
  obtain ⟨hsaved, b, hb, hle⟩ := hsat
  obtain ⟨ctx, hctx⟩ := Option.ne_none_iff_exists'.mp hsaved
  have hdone : u.satisfiedByFree l ctx = true := by
    rw [State.leftBudget, hctx] at hb
    exact (Option.any_eq_true _ _).mpr ⟨b, hb, decide_eq_true hle⟩
  rw [endLost_movable hmove, handOverOrEnd, hj]
  dsimp only
  rw [if_neg htwice, hctx]
  exact if_pos hdone

theorem endLost_moves (hstuck : ¬(u.eligibleSet = [] ∨ 2 ≤ l.handovers.getD 0)) (hsat : ¬u.deliveredByFree l) (n : Nat) :
    ∃ j, u.newHolder l = some j ∧ endLost n l u = moveLease n l j (u.leftBudget l) u := by
  obtain ⟨hempty, htwice⟩ := not_or.mp hstuck
  obtain ⟨j, hj⟩ := Option.ne_none_iff_exists'.mp (mt (newHolder_eq_none hmove).mp hempty)
  refine ⟨j, hj, ?_⟩
  rw [endLost_movable hmove, handOverOrEnd, hj]
  dsimp only
  rw [if_neg htwice, State.leftBudget]
  cases hctx : l.saved with
  | none => rfl
  | some ctx =>
    refine if_neg fun hdone => hsat ⟨by rw [hctx]; nofun, ?_⟩
    rw [State.leftBudget, hctx]
    obtain ⟨b, hb, hle⟩ := (Option.any_eq_true _ _).mp hdone
    exact ⟨b, hb, of_decide_eq_true hle⟩

end movable

/-! ### The new holder -/

theorem newHolder_sanitise (hkind : l.kind = .sanitise) : u.newHolder l = u.selectStation none u.sanitise.floor := by
  rw [State.newHolder, hkind]

theorem newHolder_topUp {y : Reservation} (hkind : l.kind = .topUp) (hy : u.earliestServed l = some y) :
    u.newHolder l = u.selectStation y.terms.preferred (y.figures.depth.getD u.map.reserveLine) := by
  rw [State.newHolder, hkind]
  dsimp only
  rw [hy]

theorem earliestServed_of_book (h : t.book = s.book) (l : Lease) : t.earliestServed l = s.earliestServed l := by
  have hslot (n : Nat) : t.bookSlot n = s.bookSlot n := bookSlot_of_book h n
  have hrecord : t.record? = s.record? := funext fun n => congrArg BookSlot.record (hslot n)
  have hhandle : t.bookHandle = s.bookHandle := funext fun n => by rw [State.bookHandle, State.bookHandle, hslot]
  rw [State.earliestServed, State.earliestServed, State.openByDue, State.openByDue, State.records, State.records,
    hrecord, hhandle]

theorem entryInlet_bereft (hs : s.Bereaves i n l) (x : Exchange) (j : Nat) :
    (s.bereft i x).entryInlet j = s.entryInlet j := by
  refine entryInlet_congr ((sameOutside_bereft s i x).1 .solar (by simp)) ?_
  by_cases hj7 : j ≤ 7
  · by_cases hj : j = i
    · subst hj
      rw [entry_bereaved hs x]
    · rw [entry_bereft_ne hj hj7]
      split <;> rfl
  · rw [entry_absent (by omega), entry_absent (by omega)]

/-- The station to which the model hands the lease over is the one the statement selects. -/
theorem newHolder_bereft (hs : s.Bereaves i n l) (hj : (s.bereft i x).newHolder l = some j) :
    (l.kind = .sanitise → (s.partnerLost i).selectStation none s.sanitise.floor = some j) ∧
      (l.kind = .topUp → ∀ y, s.earliestServed l = some y →
        (s.partnerLost i).selectStation y.terms.preferred (y.figures.depth.getD s.map.reserveLine) = some j) := by
  have hlike := choosesLike_bereft hs.holds.index.1 hs.holds.index.2 hs.heard (slotHeldBy_of_holds hs.holds) x
  have hselect := selectStation_congr hlike.eligible hlike.rank hlike.inlet
  have hout := (sameOutside_bereft s i x).1
  have hsanitise : (s.bereft i x).sanitise = s.sanitise := hout .sanitise (by simp)
  have hmap : (s.bereft i x).map = s.map := hout .map (by simp)
  have hbook : (s.bereft i x).book = s.book := hout .book (by simp)
  refine ⟨fun hkind => ?_, fun hkind y hy => ?_⟩
  · rw [← hj, newHolder_sanitise hkind, hselect, hsanitise]
  · rw [← hj, newHolder_topUp hkind ((earliestServed_of_book hbook l).trans hy), hselect, hmap]

/-! ### O35 -/

theorem stuck_iff (hs : s.Bereaves i n l) (x : Exchange) :
    ((s.bereft i x).eligibleSet = [] ∨ 2 ≤ l.handovers.getD 0) ↔
      ((s.partnerLost i).eligibleSet = [] ∨ 2 ≤ l.handovers.getD 0) := by
  rw [(choosesLike_bereft hs.holds.index.1 hs.holds.index.2 hs.heard (slotHeldBy_of_holds hs.holds) x).eligible]

theorem satisfied_bereft (s : State) (i : Nat) (x : Exchange) (l : Lease) :
    (s.bereft i x).deliveredByFree l ↔ s.deliveredByFree l := by
  rw [State.deliveredByFree, State.deliveredByFree, leftBudget_of_admission (admission_bereft s i x)]

/-- A lease neither stuck nor satisfied is handed over to the station selected. -/
theorem loss_handsOver (hs : s.Bereaves i n l) (x : Exchange) (hmove : l.Movable)
    (hstuck : ¬((s.partnerLost i).eligibleSet = [] ∨ 2 ≤ l.handovers.getD 0)) (hsat : ¬s.deliveredByFree l) :
    ∃ j, (s.bereft i x).newHolder l = some j ∧
      s.HandedOver i n j l ((s.bereft i x).handedOver l j (s.leftBudget l)) (s.lossClosed i x) := by
  obtain ⟨j, hj, hend⟩ := endLost_moves hmove (mt (stuck_iff hs x).mp hstuck) (mt (satisfied_bereft s i x l).mp hsat) n
  rw [leftBudget_of_admission (admission_bereft s i x)] at hend
  exact ⟨j, hj, loss_moves hs x (eligible_of_newHolder hj) hend⟩

theorem handedOver_timer (s : State) (l : Lease) (j : Nat) (b : Option Nat) :
    (s.handedOver l j b).timer = l.saved.elim l.timer (·.timer) := by
  cases hctx : l.saved with
  | none => simp [State.handedOver, hctx]
  | some ctx => simp [State.handedOver, hctx]

/-- Settles O35: the lease of a lost entry retires, or is handed over to the station selected. -/
theorem aLostHoldersLeaseIsHandedOver : Obligations.ALostHoldersLeaseIsHandedOver := by
  intro s x i n l htable hx h31 hi hmissed hheard hpair h1 h8 hl hholder
  obtain ⟨hi1, hi7⟩ := index_of_indexAt hi
  have hs : s.Bereaves i n l :=
    ⟨hholder ▸ holds_of_tableInOrder htable h1 h8 hl (by omega), hl, hheard, hpair⟩
  obtain ⟨hunheld, hpartner⟩ := loss_common hs x
  refine ⟨s.lossClosed i x, congrArg Host.Outcome.next (expireWindow_third hx h31 hi hmissed hheard), hunheld, hpartner,
    fun reason hstate hreason => ?_, fun hstate hkind => ?_, fun hstate hkind => ?_, fun hmove hstuck => ?_,
    fun hmove hstuck hsat => ?_, fun hmove hstuck hsat => ?_⟩
  · obtain ⟨hdealt, hflag⟩ := loss_frees hs x (endLost_revoking hstate hreason n _)
    exact ⟨hdealt.slot, hdealt.entry, hdealt.order, hflag⟩
  · obtain ⟨hdealt, hflag⟩ := loss_frees hs x (endLost_free hstate hkind n _)
    exact ⟨hdealt.slot, hdealt.entry, hdealt.order, hflag⟩
  · obtain ⟨hdealt, hflag⟩ := loss_frees hs x (endLost_boost hstate hkind n _)
    exact ⟨hdealt.slot, hdealt.entry, hdealt.order, hflag⟩
  · obtain ⟨hdealt, hflag⟩ := loss_frees hs x (endLost_stuck hmove ((stuck_iff hs x).mpr hstuck) n)
    exact ⟨hdealt.slot, hdealt.entry, hdealt.order, hflag⟩
  · obtain ⟨hdealt, hflag⟩ := loss_frees hs x (endLost_satisfied hmove (mt (stuck_iff hs x).mp hstuck)
      ((satisfied_bereft s i x l).mpr hsat) n)
    exact ⟨hdealt.slot, hdealt.entry, hdealt.order, hflag⟩
  · obtain ⟨j, hj, hover⟩ := loss_handsOver hs x hmove hstuck hsat
    obtain ⟨l', hslot, hcore⟩ := hover.slot
    obtain ⟨hsanitise, htopUp⟩ := newHolder_bereft hs hj
    have hroot : l'.root = ((s.bereft i x).handedOver l j (s.leftBudget l)).root := (congrArg Lease.root hcore :)
    have htimer : l'.timer = ((s.bereft i x).handedOver l j (s.leftBudget l)).timer := (congrArg Lease.timer hcore :)
    refine ⟨j, l', hsanitise, htopUp, hslot, (same_of_core hcore).2.1.mpr rfl, hroot.trans ?_,
      (congrArg Lease.budget hcore :), htimer.trans (handedOver_timer _ l j _), (congrArg Lease.hold hcore :),
      (congrArg Lease.saved hcore :), (congrArg Lease.limitMark hcore :), (congrArg Lease.stepTimer hcore :),
      hover.order, hover.entry, hover.pass, hover.held, hover.grant⟩
    rw [← entryInlet_bereft hs x j]
    rfl

end Sys2Proof.Machine

/-! ### The flows that an event leaves (R105)

The free leases of a part whose rates have been brought up to date are those that stood before, each with the rate due to
it; so what overlaps a bought lease can be read off the part before. -/

namespace Sys2Proof.Machine
variable {s t u w b : State} {n m k : Nat} {l l' f f' : Lease} {x : Exchange}

/-- A lease of the free group that would flow, its entitlement brought up to date. -/
def State.flow (s : State) (f : Lease) : Nat := s.demand { f with entitlement := s.entitlementOf f }

theorem overlapped_iff :
    s.overlapped l = true ↔ ∃ k f, 1 ≤ k ∧ k ≤ 8 ∧ s.lease? k = some f ∧ f.kind.isBought = false ∧
      f.state.isRunning = true ∧ 0 < f.granted ∧ l.inlet ≤ f.inlet := by
  rw [State.overlapped, List.any_eq_true]
  refine exists_congr fun k => ?_
  rw [mem_upTo8, Option.any_eq_true]
  constructor
  · rintro ⟨⟨h1, h8⟩, f, hf, hflows⟩
    simp only [Lease.isFlowing, Bool.and_eq_true, Bool.not_eq_true', decide_eq_true_eq] at hflows
    obtain ⟨⟨⟨hfree, hrun⟩, hgranted⟩, hinlet⟩ := hflows
    exact ⟨f, h1, h8, hf, hfree, hrun, hgranted, hinlet⟩
  · rintro ⟨f, h1, h8, hf, hfree, hrun, hgranted, hinlet⟩
    refine ⟨⟨h1, h8⟩, f, hf, ?_⟩
    simp only [Lease.isFlowing, Bool.and_eq_true, Bool.not_eq_true', decide_eq_true_eq]
    exact ⟨⟨⟨hfree, hrun⟩, hgranted⟩, hinlet⟩

/-- The rate due to a running lease of the free group is its flow. -/
theorem due_running (hrun : f.state.isRunning = true) (hcore : f'.core = f.core)
    (hentitlement : f'.entitlement = s.entitlementOf f) : s.due f' = s.flow f := by
  have hsame : s.due f' = s.due { f with entitlement := s.entitlementOf f } := due_of_core hcore hentitlement
  have hdemand : f.state.hasDemand = true := by
    revert hrun
    cases f.state <;> decide
  rw [hsame, State.due]
  exact if_pos hdemand

/-- The free leases of `t` are those of `u`, each with the entitlement and the rate due to it. -/
structure State.Follows (u t : State) : Prop where
  shelf : t.shelf = u.shelf
  inputs : t.rateInputs = u.rateInputs
  core : ∀ k f, u.lease? k = some f → f.kind.isBought = false → 1 ≤ k → t.core k = u.core k
  rated : ∀ k f, u.lease? k = some f → f.kind.isBought = false → 1 ≤ k → k ≤ 8 → t.rated k

theorem free_of_core {t u : State} (h : t.core k = u.core k) (hf : u.lease? k = some f) :
    ∃ f', t.lease? k = some f' ∧ f'.core = f.core ∧ f'.kind = f.kind := by
  obtain ⟨f', hf', hcore⟩ := lease_of_core h hf
  exact ⟨f', hf', hcore, (congrArg Lease.kind hcore :)⟩

/-- Work that leaves the free leases' cores and rates. -/
theorem follows_step (h : u.Follows t) (hshelf : w.shelf = t.shelf) (hinputs : w.rateInputs = t.rateInputs)
    (hcore : ∀ k f, t.lease? k = some f → f.kind.isBought = false → 1 ≤ k → w.core k = t.core k)
    (hrated : ∀ k, t.rated k → w.rated k) : u.Follows w := by
  refine ⟨hshelf.trans h.shelf, hinputs.trans h.inputs, fun k f hf hfree h1 => ?_, fun k f hf hfree h1 h8 =>
    hrated k (h.rated k f hf hfree h1 h8)⟩
  have hkept := h.core k f hf hfree h1
  obtain ⟨f', hf', -, hkind⟩ := free_of_core hkept hf
  exact (hcore k f' hf' (by rw [hkind]; exact hfree) h1).trans hkept

theorem follows_calm (h : u.Follows t) (hshelf : w.shelf = t.shelf) (hcalm : w.calm = t.calm)
    (hcore : ∀ k f, t.lease? k = some f → f.kind.isBought = false → 1 ≤ k → w.core k = t.core k)
    (hrated : ∀ k, t.rated k → w.rated k) : u.Follows w :=
  follows_step h hshelf (rateInputs_of_calm hcalm) hcore hrated

theorem not_toSuspend_free (hf : s.lease? k = some f) (hfree : f.kind.isBought = false) : k ∉ s.toSuspend := by
  intro hk
  obtain ⟨f', hf', hbought⟩ := bought_of_toSuspend hk
  obtain rfl := Option.some.inj (hf.symm.trans hf')
  rw [hfree] at hbought
  cases hbought

theorem not_toResume_free (hf : s.lease? k = some f) (hfree : f.kind.isBought = false) : k ∉ s.toResume := by
  intro hk
  obtain ⟨f', hf', hbought⟩ := bought_of_toResume hk
  obtain rfl := Option.some.inj (hf.symm.trans hf')
  rw [hfree] at hbought
  cases hbought

theorem core_actOnOverlap_free (b : State) (hf : s.lease? k = some f) (hfree : f.kind.isBought = false) (h1 : 1 ≤ k) :
    (actOnOverlap b s).core k = s.core k := by
  rw [core_actOnOverlap_unresumed h1 b (not_toResume_free hf hfree), if_neg (not_toSuspend_free hf hfree)]

theorem core_closing_free (hf : s.lease? k = some f) (hfree : f.kind.isBought = false) (h1 : 1 ≤ k) :
    (closing s).core k = s.core k := by
  rw [core_closing_unresumed h1 (not_toResume_free hf hfree), if_neg (not_toSuspend_free hf hfree)]

theorem follows_place (i : Nat) (c : LinkCmd) (h : u.Follows t) : u.Follows (place i c t) :=
  follows_calm h (shelf_place i c t) (calm_place i c t) (fun k _ _ _ _ => core_place k i c t)
    fun _ hk => rated_place i c hk

theorem follows_actOnOverlap (b : State) (h : u.Follows t) : u.Follows (actOnOverlap b t) :=
  follows_calm h (shelf_actOnOverlap b t) (calm_actOnOverlap b t)
    (fun _ _ hf hfree h1 => core_actOnOverlap_free b hf hfree h1) fun _ hk => rated_actOnOverlap b hk

theorem follows_enumerated (x : Exchange) (h : u.Follows t) : u.Follows (afterEnumerated x t) := by
  have hshelf := enumerated_shelf x t
  obtain ⟨w, hw, -⟩ := afterEnumerated_eq x t
  rw [hw] at hshelf ⊢
  exact follows_step h hshelf rfl (fun k _ _ _ _ => core_modLink k _ t) fun k hk => rated_of_inputs (s := t) rfl rfl hk

/-- The rates brought up to date start from leases that draw no budget. -/
theorem follows_freeRates (b : State)
    (h : ∀ k f, 1 ≤ k → k ≤ 8 → u.lease? k = some f → f.kind.isBought = false → u.drawsBudget f = false) :
    u.Follows (freeRates b u) := by
  refine ⟨shelf_freeRates b u, rateInputs_of_calm (calm_freeRates b u), fun k _ _ _ _ => core_freeRates k b u,
    fun k f hf hfree h1 h8 => rated_of_freeRates b h1 h8 fun f' hf' => ?_⟩
  obtain rfl := Option.some.inj (hf.symm.trans hf')
  exact ⟨hfree, h k f h1 h8 hf hfree⟩

theorem flow_of_inputs (h : t.rateInputs = s.rateInputs) (f : Lease) : t.flow f = s.flow f := by
  obtain ⟨-, -, hsolar, hdesk⟩ := rateInputs_eq_iff.mp h
  rw [State.flow, State.flow, entitlementOf_of_inputs h, demand_of_desk hsolar hdesk]

/-- A free lease that runs has its flow for its rate. -/
theorem granted_of_follows (h : u.Follows t) (hf : u.lease? k = some f) (hfree : f.kind.isBought = false) (h1 : 1 ≤ k)
    (h8 : k ≤ 8) (hrun : f.state.isRunning = true) :
    ∃ f', t.lease? k = some f' ∧ f'.core = f.core ∧ f'.granted = u.flow f := by
  obtain ⟨f', hf', hcore⟩ := lease_of_core (h.core k f hf hfree h1) hf
  have hrates := h.rated k f hf hfree h1 h8 f' hf'
  refine ⟨f', hf', hcore, hrates.granted.trans ?_⟩
  rw [due_of_inputs h.inputs]
  refine due_running hrun hcore ?_
  rw [hrates.entitlement, entitlementOf_of_inputs h.inputs]
  exact entitlementOf_root (congrArg Lease.root hcore :)

/-- What overlaps a lease, read off the part before the rates were brought up to date. -/
theorem overlapped_of_follows (h : u.Follows t) (l : Lease) :
    t.overlapped l = true ↔ ∃ k f, 1 ≤ k ∧ k ≤ 8 ∧ u.lease? k = some f ∧ f.kind.isBought = false ∧
      f.state.isRunning = true ∧ 0 < u.flow f ∧ l.inlet ≤ f.inlet := by
  rw [overlapped_iff]
  refine exists_congr fun k => ?_
  constructor
  · rintro ⟨f', h1, h8, hf', hfree', hrun', hgranted', hinlet'⟩
    obtain ⟨f, hf, hroot⟩ := exists_of_shelf h.shelf hf'
    have hkind : f.kind = f'.kind := (congrArg Lease.kind hroot :)
    have hfree : f.kind.isBought = false := by rw [hkind]; exact hfree'
    obtain ⟨f1, hf1, hcore⟩ := lease_of_core (h.core k f hf hfree h1) hf
    obtain rfl := Option.some.inj (hf'.symm.trans hf1)
    have hrun := (running_of_core hcore).symm.trans hrun'
    obtain ⟨f2, hf2, -, hgranted⟩ := granted_of_follows h hf hfree h1 h8 hrun
    obtain rfl := Option.some.inj (hf'.symm.trans hf2)
    have hinlet : f'.inlet = f.inlet := (congrArg Lease.inlet hcore :)
    exact ⟨f, h1, h8, hf, hfree, hrun, hgranted ▸ hgranted', hinlet ▸ hinlet'⟩
  · rintro ⟨f, h1, h8, hf, hfree, hrun, hflow, hinlet⟩
    obtain ⟨f', hf', hcore, hgranted⟩ := granted_of_follows h hf hfree h1 h8 hrun
    have hkind : f'.kind = f.kind := (congrArg Lease.kind hcore :)
    have hinlet' : f'.inlet = f.inlet := (congrArg Lease.inlet hcore :)
    exact ⟨f', h1, h8, hf', by rw [hkind]; exact hfree, (running_of_core hcore).trans hrun, by rw [hgranted]; exact hflow,
      by rw [hinlet']; exact hinlet⟩

/-! ### A bought lease while the free leases' rates are brought up to date -/

/-- The part reads the same inputs, and the slot holds the lease with this entitlement. -/
def State.entitledTo (s u : State) (n : Nat) (l : Lease) (e : Nat) : Prop :=
  u.rateInputs = s.rateInputs ∧ u.lease? n = some { l with entitlement := e }

theorem entitledTo_self (hl : s.lease? n = some l) : s.entitledTo s n l l.entitlement := ⟨rfl, hl⟩

theorem entitledTo_follow (hmn : m - 1 = n - 1) {e : Nat} (h : s.entitledTo u n l e) :
    s.entitledTo (followEntitlement u m) n l (s.entitlementOf l) := by
  obtain ⟨hinputs, hu⟩ := h
  refine ⟨(rateInputs_of_calm (calm_followEntitlement u m)).trans hinputs, ?_⟩
  have hentitlement : u.entitlementOf { l with entitlement := e } = s.entitlementOf l :=
    (entitlementOf_of_inputs hinputs _).trans (entitlementOf_root rfl)
  unfold followEntitlement
  rw [lease_of_place hmn.symm, lease_modLease, ← lease_of_place hmn.symm, hu, Option.map_some, hentitlement]

theorem entitledTo_other (hmn : m - 1 ≠ n - 1) {e : Nat} (h : s.entitledTo u n l e) :
    s.entitledTo (followEntitlement u m) n l e := by
  obtain ⟨hinputs, hu⟩ := h
  exact ⟨(rateInputs_of_calm (calm_followEntitlement u m)).trans hinputs, (lease_modLease_ne hmn _ u).trans hu⟩

theorem lease_followEntitlements (h1 : 1 ≤ n) (h8 : n ≤ 8) (hl : s.lease? n = some l) :
    (upTo8.foldl followEntitlement s).lease? n = some { l with entitlement := s.entitlementOf l } := by
  refine (foldl_reaches (f := followEntitlement) (a := n) (P := fun u => ∃ e, s.entitledTo u n l e)
    (Q := fun u => s.entitledTo u n l (s.entitlementOf l)) (fun u m hu => ?_) (fun u hu => ?_) (fun u m hu => ?_)
    (mem_upTo8.mpr ⟨h1, h8⟩) ⟨_, entitledTo_self hl⟩).2
  · obtain ⟨e, hu⟩ := hu
    by_cases hmn : m - 1 = n - 1
    · exact ⟨_, entitledTo_follow hmn hu⟩
    · exact ⟨e, entitledTo_other hmn hu⟩
  · obtain ⟨e, hu⟩ := hu
    exact entitledTo_follow rfl hu
  · by_cases hmn : m - 1 = n - 1
    · exact entitledTo_follow hmn hu
    · exact entitledTo_other hmn hu

theorem issue_of_shelf (h : t.shelf = s.shelf) (n : Nat) : (t.leaseSlot n).issue = (s.leaseSlot n).issue :=
  (congrArg LeaseSlot.issue (root_of_shelf h n) :)

theorem leaseSlot_of_parts (hissue : (s.leaseSlot n).issue = k) (hlease : s.lease? n = some l) :
    s.leaseSlot n = { issue := k, lease := some l } := by
  rw [← hissue, ← hlease]
  rfl

theorem lease_followDemand_ne (hmn : m - 1 ≠ n - 1) (b s : State) : (followDemand b s m).lease? n = s.lease? n := by
  unfold followDemand
  repeat' split
  · rfl
  all_goals exact lease_modLease_ne hmn _ s

/-- While the free leases take their rates a bought lease takes no more than its entitlement. -/
theorem leaseSlot_freeRates_bought (b : State) (h1 : 1 ≤ n) (h8 : n ≤ 8) (hl : s.lease? n = some l)
    (hbought : l.kind.isBought = true) :
    (freeRates b s).leaseSlot n =
      { issue := (s.leaseSlot n).issue, lease := some { l with entitlement := s.entitlementOf l } } := by
  have hissue := issue_of_shelf (shelf_freeRates b s) n
  have hfollowed := lease_followEntitlements h1 h8 hl
  have hlease : (freeRates b s).lease? n = some { l with entitlement := s.entitlementOf l } := by
    unfold freeRates
    dsimp only
    generalize upTo8.foldl followEntitlement s = u at hfollowed
    refine List.foldlRecOn (motive := fun t => t.lease? n = some { l with entitlement := s.entitlementOf l }) _
      (followDemand b) hfollowed fun t ht m hm => (lease_followDemand_ne (fun hmn => ?_) b t).trans ht
    obtain ⟨f, hf, hfree⟩ := (Option.any_eq_true _ _).mp (List.mem_filter.mp hm).2
    rw [lease_of_place hmn, hfollowed] at hf
    cases hf
    rw [Bool.not_eq_true'] at hfree
    exact Bool.false_ne_true (hfree.symm.trans hbought)
  exact leaseSlot_of_parts hissue hlease

end Sys2Proof.Machine

/-! ### A lease that the overlap suspends (R105 to R107) -/

namespace Sys2Proof.Machine
variable {s t u w b e : State} {n m k i g rate : Nat} {l l' f : Lease} {x : Exchange}

/-! #### Near due, and overlapped -/

/-- The lease serves a reservation due no later than 15 min after a minute (R106). -/
def State.dueBy (s : State) (l : Lease) (at' : Nat) : Prop :=
  l.kind = .topUp ∧ ∃ r ∈ l.serve, ∃ y, s.recordOf? r = some y ∧ dueOf y.terms ≤ at' + 15

theorem nearDue_iff : s.nearDue l = true ↔ s.dueBy l s.clock.now := by
  have hspan : Config.nearDueSpan = 15 := rfl
  simp only [State.nearDue, State.dueBy, Bool.and_eq_true, beq_iff_eq, List.any_eq_true, Option.any_eq_true,
    decide_eq_true_eq, hspan]

theorem recordOf?_of_book (h : t.book = s.book) (r : Handle) : t.recordOf? r = s.recordOf? r := by
  rw [State.recordOf?, State.recordOf?, bookSlot_of_book h, record?_of_book h]

theorem nearDue_congr (hbook : t.book = s.book) (hclock : t.clock = s.clock) (hroot : l'.root = l.root) :
    t.nearDue l' = s.nearDue l := by
  have hkind : l'.kind = l.kind := (congrArg Lease.kind hroot :)
  have hserve : l'.serve = l.serve := (congrArg Lease.serve hroot :)
  have hrecord (h : Handle) : t.recordOf? h = s.recordOf? h := recordOf?_of_book hbook h
  simp only [State.nearDue, hkind, hserve, hrecord, hclock]

theorem overlapped_congr (hinlet : l'.inlet = l.inlet) : s.overlapped l' = s.overlapped l := by
  rw [State.overlapped, State.overlapped, hinlet]

theorem mem_toSuspend_iff (hl : s.lease? n = some l) :
    n ∈ s.toSuspend ↔ (1 ≤ n ∧ n ≤ 8) ∧ l.kind.isBought = true ∧ l.state.isHeating = true ∧ s.overlapped l = true ∧
      s.nearDue l = false := by
  rw [State.toSuspend, List.mem_filter, mem_upTo8, hl, Option.any_some]
  simp only [Bool.and_eq_true, Bool.not_eq_true', and_assoc]

theorem mem_toResume_iff (hl : s.lease? n = some l) :
    n ∈ s.toResume ↔ (1 ≤ n ∧ n ≤ 8) ∧ l.kind.isBought = true ∧ l.state = .suspended ∧
      (s.overlapped l = false ∨ s.nearDue l = true) := by
  rw [State.toResume, List.mem_filter, mem_upTo8, hl, Option.any_some]
  simp only [Bool.and_eq_true, Bool.or_eq_true, Bool.not_eq_true', beq_iff_eq, and_assoc]

/-- The lease of slot `n` is overlapped and not near due. -/
def State.covers (s : State) (n : Nat) : Prop :=
  ∀ l, s.lease? n = some l → s.overlapped l = true ∧ s.nearDue l = false

theorem not_toResume_of_covers (h : s.covers n) : n ∉ s.toResume := fun hn => by
  obtain ⟨l, hl, -⟩ := bought_of_toResume hn
  obtain ⟨hover, hdue⟩ := h l hl
  obtain ⟨-, -, -, hfree⟩ := (mem_toResume_iff hl).mp hn
  rw [hover, hdue] at hfree
  exact hfree.elim nofun nofun

/-- Some free lease that flows once the rates are brought up to date overlaps an inlet. -/
def State.flowsOver (e : State) (inlet : Nat) : Prop :=
  ∃ k f, 1 ≤ k ∧ k ≤ 8 ∧ e.lease? k = some f ∧ f.kind.isBought = false ∧ f.state.isRunning = true ∧ 0 < e.flow f ∧
    inlet ≤ f.inlet

theorem covers_of_follows (h : e.Follows w) (hroot : ∀ l', w.lease? n = some l' → l'.root = l.root)
    (hflow : e.flowsOver l.inlet) (hdue : w.nearDue l = false) : w.covers n := by
  intro l' hl'
  have hsame := hroot l' hl'
  refine ⟨(overlapped_congr (congrArg Lease.inlet hsame :)).trans ((overlapped_of_follows h l).mpr hflow), ?_⟩
  rw [nearDue_congr rfl rfl hsame, hdue]

/-! #### Suspended, and left so -/

theorem unpowered_of_heating (h : l.state.isHeating = true) : l.unpowered := by
  intro hnone
  have hdemand : ∀ st : LeaseState, st.isHeating = true → st.hasDemand = true := by
    intro st
    cases st <;> decide
  rw [hdemand l.state h] at hnone
  cases hnone

theorem rests_actOnOverlap (b : State) (h1 : 1 ≤ n) (hslot : s.leaseSlot n = { issue := k, lease := some l })
    (hn : n ∈ s.toSuspend) : (actOnOverlap b s).rests n k (l.suspended s.admission.freeHeat) := by
  have hl : s.lease? n = some l := congrArg LeaseSlot.lease hslot
  have hheat := ((mem_toSuspend_iff hl).mp hn).2.2.1
  have hcore := core_actOnOverlap_unresumed h1 b (not_toResume hl fun e => by rw [e] at hheat; cases hheat)
  rw [if_pos hn] at hcore
  have hbegun : (beginSuspension s n).leaseSlot n = { issue := k, lease := some (l.suspended s.admission.freeHeat) } := by
    rw [leaseSlot_beginSuspension, hslot, hl]
    rfl
  obtain ⟨l', hl', hcore'⟩ := leaseSlot_of_core hcore hbegun
  obtain ⟨l0, hl0, hmoves⟩ := lease_of_works (works_actOnOverlap b s) (congrArg LeaseSlot.lease hl')
  obtain rfl := Option.some.inj (hl.symm.trans hl0)
  exact ⟨l', hl', hcore', hmoves.unpowered (unpowered_of_heating hheat)⟩

theorem suspended_of_rests (hs : s.rests n k (l.suspended g)) (hl' : s.lease? n = some l') :
    l'.state = .suspended ∧ l'.core = (l.suspended g).core := by
  obtain ⟨l0, hslot, hcore, -⟩ := hs
  obtain rfl := Option.some.inj ((congrArg LeaseSlot.lease hslot).symm.trans hl')
  exact ⟨(same_of_core hcore).2.2.2.1.mpr rfl, hcore⟩

theorem rests_closing_suspended (h1 : 1 ≤ n) (hs : w.rests n k (l.suspended g)) (hcovers : w.covers n) :
    (closing w).rests n k (l.suspended g) := by
  refine rests_of_works ?_ (works_closing w) hs
  rw [core_closing_unresumed h1 (not_toResume_of_covers hcovers), if_neg]
  intro hn
  obtain ⟨l', hl', hheat⟩ := heating_of_toSuspend hn
  rw [(suspended_of_rests hs hl').1] at hheat
  cases hheat

theorem rests_place (i : Nat) (c : LinkCmd) (hs : s.rests n k l) : (place i c s).rests n k l :=
  rests_of_leaseSlot (leaseSlot_of_admission (admission_place i c s) n) hs

theorem rests_enumerated (x : Exchange) (hs : u.rests n k l) : (afterEnumerated x u).rests n k l := by
  obtain ⟨w, hw, -⟩ := afterEnumerated_eq x u
  rw [hw]
  exact hs

/-- What a suspended lease tells at rest. -/
theorem suspended_told (hs : s.rests n k (l.suspended g)) :
    ∃ l', s.leaseSlot n = { issue := k, lease := some l' } ∧ l'.state = .suspended ∧ l'.granted = 0 ∧ l'.root = l.root ∧
      l'.saved = some
        { state := l.state, rate := l.granted, timer := l.timer, hold := l.hold, freeMark := g
          deliveredMark := l.delivered } := by
  obtain ⟨l', hslot, hcore, hpower⟩ := hs
  have hstate : l'.state = .suspended := (same_of_core hcore).2.2.2.1.mpr rfl
  exact ⟨l', hslot, hstate, hpower (by rw [hstate]; rfl), (congrArg Lease.root hcore :), (congrArg Lease.saved hcore :)⟩

/-! #### The ACCEPT in its parts -/

/-- A GRANT that carried another rate is put right (R70). -/
def State.corrected (s : State) (i n rate : Nat) (h : Handle) : State :=
  match s.lease? n with
  | none => s
  | some l => if l.state.isHeating = false ∨ l.granted = rate then s else place i (.setRate h l.granted) s

theorem admitLease_eq (i n rate : Nat) (s : State) :
    admitLease i n rate s =
      endZeroHold n ((resettle s (enterRate s (s.accepted i n rate) n)).corrected i n rate (s.leaseHandle n)) := by
  unfold admitLease
  dsimp only
  rw [← State.accepted]
  generalize resettle s (enterRate s (s.accepted i n rate) n) = u
  rfl

theorem corrected_cases (i n rate : Nat) (h : Handle) (s : State) :
    s.corrected i n rate h = s ∨ ∃ c, s.corrected i n rate h = place i c s := by
  unfold State.corrected
  split
  · exact .inl rfl
  · split
    · exact .inl rfl
    · exact .inr ⟨_, rfl⟩

theorem endZeroHold_other (h : ∀ l, s.lease? n = some l → l.state ≠ .finishing) : endZeroHold n s = s := by
  unfold endZeroHold
  split
  · rfl
  · next l hl => exact if_neg fun hfin => h l hl hfin.1

theorem lease_corrected (i m rate : Nat) (h : Handle) (s : State) (n : Nat) :
    (s.corrected i m rate h).lease? n = s.lease? n := by
  rcases corrected_cases i m rate h s with e | ⟨c, e⟩
  · rw [e]
  · rw [e, lease?_place]

theorem rests_corrected (i m rate : Nat) (h : Handle) (hs : s.rests n k l) : (s.corrected i m rate h).rests n k l := by
  rcases corrected_cases i m rate h s with e | ⟨c, e⟩
  · rw [e]
    exact hs
  · rw [e]
    exact rests_place i c hs

theorem follows_corrected (i m rate : Nat) (h : Handle) (hs : e.Follows s) : e.Follows (s.corrected i m rate h) := by
  rcases corrected_cases i m rate h s with eq | ⟨c, eq⟩
  · rw [eq]
    exact hs
  · rw [eq]
    exact follows_place i c hs

theorem calm_corrected (i m rate : Nat) (h : Handle) (s : State) : (s.corrected i m rate h).calm = s.calm := by
  rcases corrected_cases i m rate h s with e | ⟨c, e⟩
  · rw [e]
  · rw [e, calm_place]

theorem resettle_suspending (b : State) (hn : n ∈ (freeRates b s).toSuspend) :
    resettle b s = actOnOverlap b (freeRates b s) := by
  unfold resettle
  refine if_neg fun hcalm => ?_
  rw [State.overlapCalm, Bool.and_eq_true, List.isEmpty_iff] at hcalm
  rw [hcalm.1] at hn
  cases hn

end Sys2Proof.Machine

/-! ### The ACCEPT and the overlap (R70, R92, R105, R107) -/

namespace Sys2Proof.Machine
variable {s t u v w b e : State} {n m k i g rate : Nat} {l l' f : Lease} {x : Exchange}

/-! #### What demand and flow read -/

theorem demand_congr (hkind : l'.kind = l.kind) (hstate : l'.state = .finishing ↔ l.state = .finishing)
    (hentitlement : l'.entitlement = l.entitlement) : s.demand l' = s.demand l := by
  unfold State.demand State.guarded
  simp only [hkind, hstate, hentitlement]

/-- FINISHING asks for no more than another state does. -/
theorem demand_le (hkind : l'.kind = l.kind) (hbought : l.kind ≠ .solar) (hstate : l.state ≠ .finishing)
    (hentitlement : l'.entitlement = l.entitlement) : s.demand l' ≤ s.demand l := by
  unfold State.demand State.guarded
  simp only [hkind, hentitlement, hbought, hstate, false_and, if_false]
  split
  · exact Nat.min_le_left _ _
  · exact Nat.le_refl _

theorem entitlementOf_heard (h7 : i ≤ 7) (s : State) (l : Lease) : (s.heard i).entitlementOf l = s.entitlementOf l := by
  have hrating : (s.heard i).admission.rating = s.admission.rating := rfl
  rw [State.entitlementOf, State.entitlementOf, effectiveCap_heard h7, hrating]

theorem flow_heard (h7 : i ≤ 7) (s : State) (l : Lease) : (s.heard i).flow l = s.flow l := by
  rw [State.flow, State.flow, entitlementOf_heard h7]
  exact demand_of_desk rfl rfl _

/-! #### Leases of one kind and holder -/

/-- The leases of `t` have the kinds and the holders that they have in `s`, and these the classes. -/
structure State.Kin (s t : State) : Prop where
  cls : ∀ j, (t.entry j).cls = (s.entry j).cls
  lease : ∀ k l', t.lease? k = some l' → ∃ l, s.lease? k = some l ∧ l'.kind = l.kind ∧ l'.holder = l.holder

theorem drawsNone_of_kin (hs : s.tableInOrder) (hkin : s.Kin e) (k : Nat) (f : Lease) (h1 : 1 ≤ k) (h8 : k ≤ 8)
    (hf : e.lease? k = some f) (hfree : f.kind.isBought = false) : e.drawsBudget f = false := by
  obtain ⟨l, hl, hkind, hholder⟩ := hkin.lease k f hf
  obtain ⟨-, -, -, -, hclass, -⟩ := hs.1 k l h1 h8 hl
  refine drawsBudget_of_free _ ?_
  rw [hkin.cls, hholder, hclass, ← hkind, hfree]

/-! #### The part in which an accepted lease takes its rate -/

/-- The part once the accepted lease has taken its own rate. -/
def State.entered (v : State) (i m rate : Nat) : State := enterRate v (v.accepted i m rate) m

theorem leaseSlot_accepted_ne (hmn : m - 1 ≠ n - 1) (i rate : Nat) (v : State) :
    (v.accepted i m rate).leaseSlot n = v.leaseSlot n := by
  have hordered : (v.accepted i m rate).leaseSlot n =
      (noteRunning m rate ((dropOffer i (v.leaseHandle m) v).modLease m v.acceptedAs)).leaseSlot n := rfl
  have hdropped : (dropOffer i (v.leaseHandle m) v).leaseSlot n = v.leaseSlot n := rfl
  rw [hordered, noteRunning, leaseSlot_modLease_ne hmn, leaseSlot_modLease_ne hmn, hdropped]

theorem leaseSlot_entered_ne (hmn : m - 1 ≠ n - 1) (i rate : Nat) (v : State) :
    (v.entered i m rate).leaseSlot n = v.leaseSlot n := by
  rw [← leaseSlot_accepted_ne hmn i rate v, State.entered, enterRate, leaseSlot_modLease_ne hmn]
  generalize v.accepted i m rate = a
  have hfollowed : (followEntitlement a m).leaseSlot n = a.leaseSlot n := leaseSlot_modLease_ne hmn _ a
  rw [← hfollowed]
  generalize followEntitlement a m = c
  unfold followDemand
  repeat' split
  · rfl
  all_goals exact leaseSlot_modLease_ne hmn _ c

theorem rateInputs_accepted (i m rate : Nat) (v : State) : (v.accepted i m rate).rateInputs = v.rateInputs := rfl

theorem rateInputs_entered (i m rate : Nat) (v : State) : (v.entered i m rate).rateInputs = v.rateInputs :=
  (rateInputs_of_calm (calm_enterRate v (v.accepted i m rate) m)).trans (rateInputs_accepted i m rate v)

theorem core_enterRate (b : State) (m : Nat) (s : State) : (enterRate b s m).core n = s.core n := by
  rw [enterRate, core_modLease n m _ (core_settledState s.map.valid)]
  have hdemand := (plot_eq_iff.mp (plot_followDemand (n := n) (i := 0) b m (followEntitlement s m))).2.2.1
  exact hdemand.trans (plot_eq_iff.mp (plot_followEntitlement (n := n) (i := 0) m s)).2.2.1

theorem kin_entered (hl : v.lease? m = some l) (i rate : Nat) : v.Kin (v.entered i m rate) where
  cls j := by
    obtain ⟨hentries, -⟩ := rateInputs_eq_iff.mp (rateInputs_entered i m rate v)
    rw [State.entry, State.entry, hentries]
  lease k l' hl' := by
    by_cases hmk : m - 1 = k - 1
    · obtain ⟨l0, hl0, hmoves⟩ := lease_of_works (works_enterRate v m (v.accepted i m rate)) hl'
      rw [← lease_of_place hmk, State.lease?, leaseSlot_accepted, hl] at hl0
      obtain rfl := Option.some.inj hl0
      have hroot := acceptedAs_root v l
      have hkind : l'.kind = (v.acceptedAs l).kind := (congrArg Lease.kind hmoves.root :)
      have hholder : l'.holder = (v.acceptedAs l).holder := (congrArg Lease.holder hmoves.root :)
      exact ⟨l, (lease_of_place hmk v) ▸ hl, hkind.trans (congrArg Lease.kind hroot :),
        hholder.trans (congrArg Lease.holder hroot :)⟩
    · rw [State.lease?, leaseSlot_entered_ne hmk] at hl'
      exact ⟨l', hl', rfl, rfl⟩

/-! #### What is suspended as a lease is admitted -/

theorem nearDue_enumerated (x : Exchange) (u : State) (l : Lease) : (afterEnumerated x u).nearDue l = u.nearDue l := by
  obtain ⟨w, hw, -⟩ := afterEnumerated_eq x u
  rw [hw]
  rfl

section suspends

variable (h1 : 1 ≤ n) (h8 : n ≤ 8)
  (hdraws : ∀ k f, 1 ≤ k → k ≤ 8 → (v.entered i m rate).lease? k = some f → f.kind.isBought = false →
    (v.entered i m rate).drawsBudget f = false)
  (hslot : (freeRates v (v.entered i m rate)).leaseSlot n = { issue := k, lease := some l })
  (hbought : l.kind.isBought = true) (hheat : l.state.isHeating = true)
  (hflow : (v.entered i m rate).flowsOver l.inlet) (hdue : v.nearDue l = false)

theorem calm_entered_rated (i m rate : Nat) (v : State) :
    (freeRates v (v.entered i m rate)).calm = (v.accepted i m rate).calm :=
  (calm_freeRates _ _).trans (calm_enterRate v _ m)

theorem nearDue_accepted (ht : t.calm = (v.accepted i m rate).calm) (l : Lease) : t.nearDue l = v.nearDue l :=
  nearDue_congr (s := v) (book_of_calm ht) (calm_eq_iff.mp ht).2.2.2.2.2.2.2.1 rfl

include h1 h8 hdraws hslot hbought hheat hflow hdue

theorem toSuspend_entered : n ∈ (freeRates v (v.entered i m rate)).toSuspend := by
  refine (mem_toSuspend_iff (congrArg LeaseSlot.lease hslot)).mpr ⟨⟨h1, h8⟩, hbought, hheat, ?_, ?_⟩
  · exact (overlapped_of_follows (follows_freeRates v hdraws) l).mpr hflow
  · rw [nearDue_accepted (calm_entered_rated i m rate v), hdue]

variable (hend : ∀ l', ((actOnOverlap v (freeRates v (v.entered i m rate))).corrected i m rate
  (v.leaseHandle m)).lease? m = some l' → l'.state = .finishing → m = n)
include hend

/-- The hold of the lease admitted is looked at in vain. -/
theorem admitLease_suspending :
    admitLease i m rate v =
      (actOnOverlap v (freeRates v (v.entered i m rate))).corrected i m rate (v.leaseHandle m) := by
  have hn := toSuspend_entered h1 h8 hdraws hslot hbought hheat hflow hdue
  rw [admitLease_eq, ← State.entered, resettle_suspending v hn]
  refine endZeroHold_other fun l' hl' hfin => ?_
  obtain rfl := hend l' hl' hfin
  rw [(suspended_of_rests (rests_corrected i m rate (v.leaseHandle m) (rests_actOnOverlap v h1 hslot hn)) hl').1] at hfin
  cases hfin

/-- The ACCEPT leaves a lease that flows overlap suspended, and covered as the step closes. -/
theorem admission_covers (x : Exchange) :
    (afterEnumerated x (admitLease i m rate v)).rests n k (l.suspended v.admission.freeHeat) ∧
      (afterEnumerated x (admitLease i m rate v)).covers n := by
  have hn := toSuspend_entered h1 h8 hdraws hslot hbought hheat hflow hdue
  have hcalm := calm_entered_rated i m rate v
  have hfree : (freeRates v (v.entered i m rate)).admission.freeHeat = v.admission.freeHeat := freeHeat_of_calm hcalm
  have hrests := rests_enumerated x
    (rests_corrected i m rate (v.leaseHandle m) (rests_actOnOverlap v h1 hslot hn))
  have hfollows := follows_enumerated x
    (follows_corrected i m rate (v.leaseHandle m) (follows_actOnOverlap v (follows_freeRates v hdraws)))
  rw [hfree] at hrests
  rw [admitLease_suspending h1 h8 hdraws hslot hbought hheat hflow hdue hend]
  refine ⟨hrests, covers_of_follows (l := l) hfollows (fun l' hl' => ?_) hflow ?_⟩
  · exact (congrArg Lease.root (suspended_of_rests hrests hl').2 :)
  · rw [nearDue_enumerated, nearDue_accepted ((calm_corrected i m rate (v.leaseHandle m) _).trans
      ((calm_actOnOverlap v _).trans hcalm)), hdue]

/-- The ACCEPT suspends a heating lease that flows overlap, and the end of the step leaves it so. -/
theorem admission_suspends (x : Exchange) :
    ((admitLease i m rate v).concluded x).rests n k (l.suspended v.admission.freeHeat) := by
  obtain ⟨hrests, hcovers⟩ := admission_covers h1 h8 hdraws hslot hbought hheat hflow hdue hend x
  exact rests_closing_suspended h1 hrests hcovers

end suspends

end Sys2Proof.Machine

/-! ### The ACCEPT of a bought lease under a flow (R70, R92, R107) -/

namespace Sys2Proof.Machine
variable {s t u v w b e : State} {n m k i g rate : Nat} {l l' f : Lease} {x : Exchange}

/-- An accepted lease in the state it enters (R70). -/
def State.enters (s : State) (f : Lease) : Lease :=
  { f with state := if s.finishingMet f then .finishing else .admitted }

/-- The rate with which an accepted bought lease enters its state. -/
def State.ownRate (s : State) (i : Nat) (f : Lease) : Nat :=
  if (s.entry i).cls.drawsBudget then min f.granted (s.demand (s.enters f)) else s.demand (s.enters f)

/-- The saved context of a bought lease suspended as it enters its state (R107). -/
def State.entryContext (s : State) (i : Nat) (f : Lease) : SavedContext :=
  { state := if s.finishingMet f then .finishing
      else if s.map.valid = true ∧ s.ownRate i f = f.entitlement then .admitted else .throttled
    rate := s.ownRate i f, timer := f.timer
    hold := if s.finishingMet f ∧ f.kind ≠ .sanitise then some (60 * s.admission.finishHold) else none
    freeMark := s.admission.freeHeat, deliveredMark := f.delivered }

/-- A lease that draws budget and whose demand has not risen keeps its rate, or takes its lower demand; another takes its
demand (R90, R98). -/
theorem leaseSlot_followDemand (hl : s.lease? n = some l) (hdemand : l.state.hasDemand = true)
    (hrose : b.demandRose s n l = false) :
    (followDemand b s n).leaseSlot n =
      { issue := (s.leaseSlot n).issue
        lease := some { l with granted := if s.drawsBudget l then min l.granted (s.demand l) else s.demand l } } := by
  unfold followDemand
  rw [hl]
  dsimp only
  rw [if_pos hdemand, hrose, if_neg Bool.false_ne_true]
  split
  · rw [leaseSlot_modLease, hl]
    rfl
  · rw [leaseSlot_modLease, hl]
    rfl

theorem leaseSlot_enterRate (hl : s.lease? n = some l) (hdemand : l.state.hasDemand = true)
    (hentitled : l.entitlement = s.entitlementOf l) (hrose : ∀ t, t.rateInputs = s.rateInputs →
      (t.leaseSlot n).issue = (s.leaseSlot n).issue → b.demandRose t n l = false) :
    (enterRate b s n).leaseSlot n =
      { issue := (s.leaseSlot n).issue
        lease := some
          { l with
            granted := if s.drawsBudget l then min l.granted (s.demand l) else s.demand l
            state := settledState s.map.valid
              { l with granted := if s.drawsBudget l then min l.granted (s.demand l) else s.demand l } } } := by
  have hfollowed : (followEntitlement s n).leaseSlot n = { issue := (s.leaseSlot n).issue, lease := some l } := by
    rw [followEntitlement, leaseSlot_modLease, hl, Option.map_some, ← hentitled]
  have hinputs := rateInputs_of_calm (calm_followEntitlement s n)
  obtain ⟨-, -, hsolar, hdesk⟩ := rateInputs_eq_iff.mp hinputs
  have hdemanded := leaseSlot_followDemand (b := b) (congrArg LeaseSlot.lease hfollowed) hdemand
    (hrose _ hinputs (congrArg LeaseSlot.issue hfollowed :))
  rw [drawsBudget_of_inputs hinputs, demand_of_desk hsolar hdesk] at hdemanded
  have hissue : ((followEntitlement s n).leaseSlot n).issue = (s.leaseSlot n).issue :=
    (congrArg LeaseSlot.issue hfollowed :)
  rw [hissue] at hdemanded
  rw [enterRate, leaseSlot_modLease, State.lease?, hdemanded]
  rfl

theorem acceptedAs_eq (v : State) (f : Lease) :
    v.acceptedAs f =
      { v.enters f with hold := if v.finishingMet f then v.startHold f else f.hold } := by
  unfold State.acceptedAs State.enters
  split <;> rfl

theorem enters_hasDemand (v : State) (f : Lease) : (v.enters f).state.hasDemand = true := by
  unfold State.enters
  split <;> rfl

/-- The demand of an offered lease has not risen as it is accepted. -/
theorem not_demandRose (hf : v.lease? m = some f) (hoffered : f.state = .offered) (hbought : f.kind ≠ .solar)
    (hinputs : t.rateInputs = v.rateInputs) (hkind : l.kind = f.kind) (hentitlement : l.entitlement = f.entitlement) :
    v.demandRose t m l = false := by
  obtain ⟨-, -, hsolar, hdesk⟩ := rateInputs_eq_iff.mp hinputs
  rw [State.demandRose, State.sameLease?]
  split
  · rw [hf, Option.any_some, demand_of_desk hsolar hdesk, Bool.and_eq_false_iff]
    refine .inr (decide_eq_false (Nat.not_lt.mpr (demand_le hkind hbought ?_ hentitlement)))
    rw [hoffered]
    decide
  · rfl

/-- The lease accepted, its rate still to be settled. -/
def State.runningAs (v : State) (rate : Nat) (f : Lease) : Lease :=
  { v.acceptedAs f with ackRate := some rate, runView := some .running }

theorem runningAs_eq (v : State) (rate : Nat) (f : Lease) :
    v.runningAs rate f =
      { v.enters f with
        hold := if v.finishingMet f then v.startHold f else f.hold, ackRate := some rate
        runView := some .running } := by
  rw [State.runningAs, acceptedAs_eq]

/-- The bought lease accepted, with its own rate. -/
def State.enteredAs (v : State) (i rate : Nat) (f : Lease) : Lease :=
  { v.runningAs rate f with
    granted := v.ownRate i f
    state := settledState v.map.valid { v.enters f with granted := v.ownRate i f } }

theorem leaseSlot_entered (hslot : v.leaseSlot m = { issue := k, lease := some f }) (hoffered : f.state = .offered)
    (hbought : f.kind.isBought = true) (hholder : f.holder = i) (hentitled : f.entitlement = v.entitlementOf f)
    (rate : Nat) :
    (v.entered i m rate).leaseSlot m = { issue := k, lease := some (v.enteredAs i rate f) } := by
  have hf : v.lease? m = some f := congrArg LeaseSlot.lease hslot
  have haccepted : (v.accepted i m rate).leaseSlot m = { issue := k, lease := some (v.runningAs rate f) } := by
    rw [leaseSlot_accepted, hslot, hf]
    rfl
  have heq := runningAs_eq v rate f
  have hroot : v.entitlementOf (v.runningAs rate f) = v.entitlementOf f := by
    rw [heq]
    rfl
  have hkept : (v.runningAs rate f).entitlement = f.entitlement ∧ (v.runningAs rate f).kind = f.kind ∧
      (v.runningAs rate f).state = (v.enters f).state := by
    rw [heq]
    exact ⟨rfl, rfl, rfl⟩
  obtain ⟨hentitlement, hkind, hstate⟩ := hkept
  have hsolar : f.kind ≠ .solar := fun e => by rw [e] at hbought; cases hbought
  have hinputs := rateInputs_accepted i m rate v
  have hentered := leaseSlot_enterRate (b := v) (congrArg LeaseSlot.lease haccepted)
    (by rw [hstate]; exact enters_hasDemand v f)
    (by rw [entitlementOf_of_inputs hinputs, hroot, ← hentitled, hentitlement])
    (fun t ht _ => not_demandRose hf hoffered hsolar (ht.trans hinputs) hkind hentitlement)
  have hvalid : (v.accepted i m rate).map.valid = v.map.valid := rfl
  have hissue : ((v.accepted i m rate).leaseSlot m).issue = k := congrArg LeaseSlot.issue haccepted
  have hrate : (if v.drawsBudget (v.runningAs rate f) then
      min (v.runningAs rate f).granted (v.demand (v.runningAs rate f)) else v.demand (v.runningAs rate f)) =
        v.ownRate i f := by
    rw [heq, ← hholder]
    rfl
  have hdemand (l : Lease) : (v.accepted i m rate).demand l = v.demand l := demand_of_desk rfl rfl l
  rw [hissue, hvalid, hdemand, drawsBudget_of_inputs hinputs, hrate] at hentered
  rw [State.entered, hentered, State.enteredAs, heq]
  rfl

/-- The slot once the free leases have taken their rates. -/
theorem leaseSlot_entered_rated (h1 : 1 ≤ m) (h8 : m ≤ 8) (hslot : v.leaseSlot m = { issue := k, lease := some f })
    (hoffered : f.state = .offered) (hbought : f.kind.isBought = true) (hholder : f.holder = i)
    (hentitled : f.entitlement = v.entitlementOf f) (rate : Nat) :
    (freeRates v (v.entered i m rate)).leaseSlot m = { issue := k, lease := some (v.enteredAs i rate f) } := by
  have hentered := leaseSlot_entered hslot hoffered hbought hholder hentitled rate
  have heq := runningAs_eq v rate f
  have hkind : (v.enteredAs i rate f).kind = f.kind := by
    rw [State.enteredAs, heq]
    rfl
  have hsame : (v.entered i m rate).entitlementOf (v.enteredAs i rate f) = (v.enteredAs i rate f).entitlement := by
    rw [entitlementOf_of_inputs (rateInputs_entered i m rate v), State.enteredAs, heq]
    exact hentitled.symm
  rw [leaseSlot_freeRates_bought v h1 h8 (congrArg LeaseSlot.lease hentered) (by rw [hkind, hbought]), hsame, hentered]

theorem settledState_enters (v : State) (i : Nat) (f : Lease) :
    settledState v.map.valid { v.enters f with granted := v.ownRate i f } = (v.entryContext i f).state := by
  unfold settledState State.entryContext State.enters
  cases v.finishingMet f with
  | true => rfl
  | false =>
    simp only [Bool.false_eq_true, if_false, Bool.and_eq_true, beq_iff_eq]
    exact if_pos rfl

theorem heating_entryContext (v : State) (i : Nat) (f : Lease) : (v.entryContext i f).state.isHeating = true := by
  unfold State.entryContext
  dsimp only
  split
  · rfl
  · split <;> rfl

/-- What the suspension of a lease as it enters its state saves. -/
theorem saved_enteredAs (hhold : f.hold = none) (v : State) (i rate : Nat) :
    ((v.enteredAs i rate f).suspended v.admission.freeHeat).saved = some (v.entryContext i f) := by
  have heq := runningAs_eq v rate f
  have hheld : (if v.finishingMet f then v.startHold f else f.hold) = (v.entryContext i f).hold := by
    unfold State.entryContext State.startHold
    rw [hhold]
    by_cases hmet : v.finishingMet f = true
    · by_cases hkind : f.kind = .sanitise
      · simp [hmet, hkind]
      · simp [hmet, hkind]
    · simp [hmet]
  rw [State.enteredAs, Lease.suspended, settledState_enters, heq, hheld]
  rfl

end Sys2Proof.Machine

/-! ### The ACCEPT of a bought lease, and that of a FREE one -/

namespace Sys2Proof.Machine
variable {s t u v w b e : State} {n m k i j a g rate : Nat} {l l' f : Lease} {x : Exchange} {h : Handle}

theorem flow_entered (h7 : i ≤ 7) (s : State) (m rate : Nat) (f : Lease) :
    ((s.heard i).entered i m rate).flow f = s.flow f :=
  (flow_of_inputs (rateInputs_entered i m rate (s.heard i)) f).trans (flow_heard h7 s f)

theorem kin_heard (h7 : i ≤ 7) (hf : s.lease? m = some f) (rate : Nat) : s.Kin ((s.heard i).entered i m rate) where
  cls k := ((kin_entered (v := s.heard i) hf i rate).cls k).trans (class_heard h7 s k)
  lease := (kin_entered (v := s.heard i) hf i rate).lease

theorem nearDue_heard (i : Nat) (s : State) (l : Lease) : (s.heard i).nearDue l = s.nearDue l := rfl

theorem entryContext_heard (h7 : i ≤ 7) (s : State) (f : Lease) : (s.heard i).entryContext i f = s.entryContext i f := by
  have hmet : (s.heard i).finishingMet f = s.finishingMet f := rfl
  have henters : (s.heard i).enters f = s.enters f := by rw [State.enters, State.enters, hmet]
  have hdemand (l : Lease) : (s.heard i).demand l = s.demand l := demand_of_desk rfl rfl l
  have hrate : (s.heard i).ownRate i f = s.ownRate i f := by
    rw [State.ownRate, State.ownRate, class_heard h7, henters, hdemand]
  rw [State.entryContext, State.entryContext, hmet, hrate]
  rfl

section accepted

variable (hs : s.tableInOrder) (hx : s.link.exchange = some x) (haddr : x.addr = a) (h31 : a ≠ 31)
  (hi : s.indexAt a = some i) (hlive : s.resolveLease h = .live) (hf : s.lease? h.slot = some f)
  (hholder : f.holder = i) (hoffered : f.state = .offered)
include hs hx haddr h31 hi hlive hf hholder hoffered

/-- A bought lease accepted under a flow is suspended as it enters its state. -/
theorem accept_underFlow {kind : LeaseKind} {c : Temp} {bud : Option Nat} (hcmd : x.cmd = .grant h kind rate c bud)
    (hbought : f.kind.isBought = true) (hentitled : f.entitlement = s.entitlementOf f)
    (hdue : s.nearDue f = false) (hflow : s.flowsOver f.inlet) :
    ∃ t l', exec (.accept a h) s = .next t ∧ t.leaseSlot h.slot = { issue := h.issue, lease := some l' } ∧
      l'.state = .suspended ∧ l'.granted = 0 ∧ l'.saved = some (s.entryContext i f) := by
  obtain ⟨h1, h8, -⟩ := slot_of_live hlive
  obtain ⟨-, h7⟩ := index_of_indexAt hi
  obtain ⟨-, -, -, -, -, -, -, -, -, hhold, -⟩ := hs.1 h.slot f h1 h8 hf
  have hnone : f.hold = none := by
    by_contra hsome
    have hfin := (hhold.mp hsome).1
    rw [hoffered] at hfin
    cases hfin
  have hslot : (s.heard i).leaseSlot h.slot = { issue := h.issue, lease := some f } := leaseSlot_of_live hlive hf
  have hentered := leaseSlot_entered_rated h1 h8 hslot hoffered hbought hholder
    (hentitled.trans (entitlementOf_heard h7 s f).symm) rate
  have heq := runningAs_eq (s.heard i) rate f
  have hroot : ((s.heard i).enteredAs i rate f).kind = f.kind ∧ ((s.heard i).enteredAs i rate f).inlet = f.inlet ∧
      ((s.heard i).enteredAs i rate f).serve = f.serve := by
    rw [State.enteredAs, heq]
    exact ⟨rfl, rfl, rfl⟩
  obtain ⟨hkind, hinlet, hserve⟩ := hroot
  have hheat : ((s.heard i).enteredAs i rate f).state.isHeating = true := by
    rw [State.enteredAs, settledState_enters]
    exact heating_entryContext _ _ _
  have hover : ((s.heard i).entered i h.slot rate).flowsOver ((s.heard i).enteredAs i rate f).inlet := by
    obtain ⟨k, f', hk1, hk8, hf', hfree, hrun, hflows, hle⟩ := hflow
    have hne : h.slot - 1 ≠ k - 1 := fun e => by
      rw [← lease_of_place e, hf] at hf'
      obtain rfl := Option.some.inj hf'
      rw [hbought] at hfree
      cases hfree
    refine ⟨k, f', hk1, hk8, ?_, hfree, hrun, by rw [flow_entered h7]; exact hflows, by rw [hinlet]; exact hle⟩
    rw [State.lease?, leaseSlot_entered_ne hne]
    exact hf'
  have hnear : (s.heard i).nearDue ((s.heard i).enteredAs i rate f) = false := by
    have hsame : (s.heard i).nearDue ((s.heard i).enteredAs i rate f) = (s.heard i).nearDue f := by
      simp only [State.nearDue, hkind, hserve]
    rw [hsame, nearDue_heard, hdue]
  have hrests := admission_suspends h1 h8 (drawsNone_of_kin hs (kin_heard h7 hf rate)) hentered
    (by rw [hkind, hbought]) hheat hover hnear (fun _ _ _ => rfl) x
  obtain ⟨l', hl', hstate, hgranted, -, hsaved⟩ := suspended_told hrests
  refine ⟨_, l', congrArg Host.Outcome.next (accept_taken hx haddr h31 hi hcmd hlive hf hholder hoffered), hl', hstate,
    hgranted, ?_⟩
  rw [← entryContext_heard h7, ← saved_enteredAs hnone (s.heard i) i rate]
  exact hsaved

end accepted

/-! #### A FREE lease accepted -/

/-- A FREE lease accepted runs, at its flow. -/
theorem runs_entered (hf : v.lease? m = some f) (hkind : f.kind = .free) (i rate : Nat) :
    ∃ f', (v.entered i m rate).lease? m = some f' ∧ f'.kind = .free ∧ f'.state.isRunning = true ∧ f'.inlet = f.inlet ∧
      ∀ u : State, f.state ≠ .finishing → u.flow f' = u.flow f := by
  have haccepted : (v.accepted i m rate).lease? m = some (v.runningAs rate f) := by
    rw [State.lease?, leaseSlot_accepted, hf]
    rfl
  have hmet : v.finishingMet f = false := by rw [State.finishingMet, hkind]
  have heq : v.runningAs rate f = { f with state := .admitted, ackRate := some rate, runView := some .running } := by
    rw [State.runningAs, State.acceptedAs, hmet, if_neg Bool.false_ne_true]
  obtain ⟨f', hf', hcore⟩ := lease_of_core (core_enterRate v m (v.accepted i m rate)) haccepted
  rw [heq] at hcore
  have hkind' : f'.kind = f.kind := (congrArg Lease.kind hcore :)
  have hoffer : f'.offer = f.offer := (congrArg Lease.offer hcore :)
  have hholder : f'.holder = f.holder := (congrArg Lease.holder hcore :)
  have hrun : f'.state.isRunning = true := (running_of_core hcore).trans rfl
  refine ⟨f', hf', hkind'.trans hkind, hrun, (congrArg Lease.inlet hcore :), fun u hstate => ?_⟩
  have hentitlement : u.entitlementOf f' = u.entitlementOf f := by
    rw [State.entitlementOf, State.entitlementOf, hkind', hoffer, hholder]
  refine demand_congr (l' := { f' with entitlement := u.entitlementOf f' })
    (l := { f with entitlement := u.entitlementOf f }) hkind' (iff_of_false (fun e => ?_) hstate) hentitlement
  have hfin : f'.state = .finishing := e
  rw [hfin] at hrun
  cases hrun

end Sys2Proof.Machine

/-! ### The queue of a station whose lease does not heat

While a lease does not heat, is not resumed and is tested by no finishing test of its own, the work on leases leaves it
and its station's queue. -/

namespace Sys2Proof.Machine
variable {s t u v w b : State} {n m k i j : Nat} {l l' : Lease} {x : Exchange} {slots : List Nat}

/-- The lease of slot `n`, if there is one, does not heat. -/
def State.cold (s : State) (n : Nat) : Prop := ∀ l, s.lease? n = some l → l.state.isHeating = false

theorem cold_of_plot (h : t.plot n i = s.plot n i) (hs : s.cold n) : t.cold n := by
  intro l' hl'
  obtain ⟨l, hl, hcore⟩ := lease_of_core (plot_eq_iff.mp h).2.2.1.symm hl'
  rw [← hs l hl, (same_of_core hcore).1]

theorem holds_of_plot (h : t.plot n i = s.plot n i) (hs : s.Holds n i) : t.Holds n i :=
  holds_of_turns (turns_of_plot h) hs

/-- A fold whose steps leave a cold slot and the queue, each from a state that still has both. -/
theorem plot_foldl_cold {f : State → Nat → State}
    (hf : ∀ u, ∀ m ∈ slots, u.Holds n i → u.cold n → (f u m).plot n i = u.plot n i) (hs : s.Holds n i)
    (hcold : s.cold n) : (slots.foldl f s).plot n i = s.plot n i := by
  refine List.foldlRecOn (motive := fun u => u.plot n i = s.plot n i) slots f rfl fun u hu m hm => ?_
  exact (hf u m hm (holds_of_plot hu hs) (cold_of_plot hu hcold)).trans hu

/-- A command for a heating lease is another station's. -/
theorem plot_place_heating (hs : s.Holds n i) (hcold : s.cold n) (hl : s.lease? m = some l)
    (hheat : l.state.isHeating = true) (c : LinkCmd) (u : State) : (place l.holder c u).plot n i = u.plot n i := by
  refine plot_place_ne (fun hi => ?_) c u
  have hmn := hs.only m l hl hi
  rw [lease_of_place hmn] at hl
  rw [hcold l hl] at hheat
  cases hheat

theorem plot_publishRate (b : State) (m : Nat) (hs : s.Holds n i) (hcold : s.cold n) :
    (publishRate b s m).plot n i = s.plot n i := by
  have hsettled : (s.modLease m fun l => { l with state := settledState s.map.valid l }).plot n i = s.plot n i :=
    plot_modLease m (core_settledState s.map.valid) s
  unfold publishRate
  split
  · rfl
  · next l hl =>
    dsimp only
    split
    · next hheat => rw [plot_place_heating hs hcold hl (Bool.and_eq_true_iff.mp hheat).1, hsettled]
    · exact hsettled

theorem plot_removeExcess (hs : s.Holds n i) : (removeExcess s).plot n i = s.plot n i := by
  have htaken := foldl_keeps (State.plot · n i) takePower (fun s m => plot_takePower m s) s.removalOrder s
  unfold removeExcess
  dsimp only
  split
  · exact (plot_stopTrial (holds_of_plot htaken hs)).trans htaken
  · exact htaken

theorem plot_settle (b : State) (hs : s.Holds n i) (hcold : s.cold n) : (settle b s).plot n i = s.plot n i := by
  unfold settle
  extract_lets s1 s2 s3 s4
  have h1 : s1.plot n i = s.plot n i := foldl_keeps (State.plot · n i) _ (fun s m => plot_followEntitlement m s) _ _
  have h2 : s2.plot n i = s.plot n i :=
    (foldl_keeps (State.plot · n i) _ (fun s m => plot_followDemand b m s) _ _).trans h1
  have h3 : s3.plot n i = s.plot n i := by
    unfold s3
    split
    · exact (plot_removeExcess (holds_of_plot h2 hs)).trans h2
    · exact h2
  have h4 : s4.plot n i = s.plot n i :=
    (foldl_keeps (State.plot · n i) _ (fun s m => plot_givePower m s) _ _).trans h3
  exact (plot_foldl_cold (fun u m _ hu hc => plot_publishRate b m hu hc) (holds_of_plot h4 hs)
    (cold_of_plot h4 hcold)).trans h4

/-- A change elsewhere, and the recomputation that follows it. -/
theorem plot_settling {f : State → State} (hf : (f s).plot n i = s.plot n i) (hs : s.Holds n i) (hcold : s.cold n) :
    (settling f s).plot n i = s.plot n i :=
  (plot_settle s (holds_of_plot hf hs) (cold_of_plot hf hcold)).trans hf

/-! #### The finishing test of another slot -/

section elsewhere

variable (hm : m - 1 ≠ n - 1) (hs : s.Holds n i) (hcold : s.cold n)
include hm hs hcold

theorem plot_endZeroHold_ne : (endZeroHold m s).plot n i = s.plot n i := by
  unfold endZeroHold
  split
  · rfl
  · next l hl =>
    split
    · exact plot_settling (plot_beginRevoking_ne hm (holder_ne hs hm hl) _ s) hs hcold
    · rfl

theorem plot_recharge_ne : (recharge m s).plot n i = s.plot n i := by
  have hsettled : (settling (fun t => t.modLease m fun l => { l with state := .admitted, hold := none }) s).plot n i =
      s.plot n i := by
    refine plot_settling (plot_modLease_ne hm (fun _ => ?_) s) hs hcold
    rfl
  unfold recharge
  dsimp only
  split
  · exact hsettled
  · next l hl => rw [plot_place_ne (holder_ne (holds_of_plot hsettled hs) hm hl), hsettled]

theorem plot_testFinishing_ne : (testFinishing m s).plot n i = s.plot n i := by
  have hbegun : (settling (beginFinishing m) s).plot n i = s.plot n i := by
    refine plot_settling (plot_modLease_ne hm (fun _ => ?_) s) hs hcold
    rfl
  unfold testFinishing
  split
  · rfl
  · split
    · rw [plot_endZeroHold_ne hm (holds_of_plot hbegun hs) (cold_of_plot hbegun hcold), hbegun]
    · split
      · exact plot_recharge_ne hm hs hcold
      · rfl

omit hcold in
theorem plot_announceResume_ne : (announceResume s m).plot n i = s.plot n i := by
  unfold announceResume
  split
  · rfl
  · next l hl =>
    split
    · exact plot_place_ne (holder_ne hs hm hl) _ s
    · rfl

end elsewhere

/-! #### The overlap test -/

theorem ne_of_toResume (h1 : 1 ≤ n) (hn : n ∉ s.toResume) (hm : m ∈ s.toResume) : m - 1 ≠ n - 1 := fun hmn => hn <| by
  have := pos_of_toResume hm
  obtain rfl : m = n := by omega
  exact hm

/-- What follows the suspensions of an overlap test that does not resume slot `n`. -/
theorem plot_afterSuspensions (b : State) {back : List Nat} (hback : ∀ m ∈ back, m - 1 ≠ n - 1) (hs : s.Holds n i)
    (hcold : s.cold n) :
    (back.foldl (fun t m => testFinishing m t) (back.foldl announceResume (settle b (back.foldl beginResumption s)))).plot
      n i = s.plot n i := by
  have h1 : (back.foldl beginResumption s).plot n i = s.plot n i :=
    plot_foldl_cold (fun u m hm hu _ => plot_beginResumption_ne (hback m hm) hu) hs hcold
  have h2 := (plot_settle b (holds_of_plot h1 hs) (cold_of_plot h1 hcold)).trans h1
  have h3 := (plot_foldl_cold (fun u m hm hu _ => plot_announceResume_ne (hback m hm) hu) (holds_of_plot h2 hs)
    (cold_of_plot h2 hcold)).trans h2
  exact (plot_foldl_cold (fun u m hm hu hc => plot_testFinishing_ne (hback m hm) hu hc) (holds_of_plot h3 hs)
    (cold_of_plot h3 hcold)).trans h3

/-- The suspensions as slot `n`, one of those suspended, sees them. -/
theorem plot_suspensions (hnodup : slots.Nodup) (hpos : ∀ m ∈ slots, 1 ≤ m) (hn : n ∈ slots) (hs : s.Holds n i) :
    ∃ u, u.plot n i = s.plot n i ∧ (slots.foldl beginSuspension s).plot n i = (beginSuspension u n).plot n i := by
  obtain ⟨before, after, rfl⟩ := List.append_of_mem hn
  obtain ⟨hfresh, -⟩ := List.nodup_cons.mp (List.nodup_middle.mp hnodup)
  have hothers {rest : List Nat} (hrest : ∀ m ∈ rest, m ∈ before ++ after) {u : State} (hu : u.Holds n i) :
      (rest.foldl beginSuspension u).plot n i = u.plot n i := by
    refine List.foldlRecOn (motive := fun w => w.plot n i = u.plot n i) rest beginSuspension rfl fun w hw m hm => ?_
    have hmem := hrest m hm
    have hne : m ≠ n := fun e => hfresh (e ▸ hmem)
    have h1 := hpos m (by simp only [List.mem_append, List.mem_cons] at hmem ⊢; tauto)
    have hn1 := hs.slot.1
    exact (plot_beginSuspension_ne (by omega) (holds_of_plot hw hu)).trans hw
  have hbefore := hothers (fun m hm => List.mem_append_left _ hm) hs
  refine ⟨before.foldl beginSuspension s, hbefore, ?_⟩
  rw [List.foldl_append, List.foldl_cons]
  refine hothers (fun m hm => List.mem_append_right _ hm) ?_
  exact holds_of_shelf (calm_eq_iff.mp (calm_beginSuspension _ n)).2.2.2.1 (shelf_beginSuspension _ n)
    (holds_of_plot hbefore hs)

theorem plot_actOnOverlap_suspended (b : State) (hn : n ∈ s.toSuspend) (hs : s.Holds n i) :
    ∃ u, u.plot n i = s.plot n i ∧ (actOnOverlap b s).plot n i = (beginSuspension u n).plot n i := by
  obtain ⟨u, hu, hsuspended⟩ := plot_suspensions (nodup_toSuspend s) (fun m hm => pos_of_toSuspend hm) hn hs
  have hnot : n ∉ s.toResume := fun hr => by
    obtain ⟨l, hl, hheat⟩ := heating_of_toSuspend hn
    rw [suspended_of_toResume hr l hl] at hheat
    cases hheat
  have hbegun : (beginSuspension u n).Holds n i :=
    holds_of_shelf (calm_eq_iff.mp (calm_beginSuspension u n)).2.2.2.1 (shelf_beginSuspension u n) (holds_of_plot hu hs)
  have hcold : (beginSuspension u n).cold n := by
    intro l hl
    rw [State.lease?, leaseSlot_beginSuspension] at hl
    obtain ⟨l0, -, rfl⟩ := Option.map_eq_some_iff.mp hl
    rfl
  refine ⟨u, hu, Eq.trans ?_ hsuspended⟩
  exact plot_afterSuspensions b (fun m hm => ne_of_toResume hs.slot.1 hnot hm) (holds_of_plot hsuspended hbegun)
    (cold_of_plot hsuspended hcold)

theorem plot_actOnOverlap_cold (b : State) (hn : n ∉ s.toResume) (hs : s.Holds n i) (hcold : s.cold n) :
    (actOnOverlap b s).plot n i = s.plot n i := by
  have hkept : (s.toSuspend.foldl beginSuspension s).plot n i = s.plot n i := by
    refine plot_foldl_cold (fun u m hm hu hc => plot_beginSuspension_ne (fun hmn => ?_) hu) hs hcold
    obtain ⟨l, hl, hheat⟩ := heating_of_toSuspend hm
    rw [lease_of_place hmn] at hl
    rw [hcold l hl] at hheat
    cases hheat
  exact (plot_afterSuspensions b (fun m hm => ne_of_toResume hs.slot.1 hn hm) (holds_of_plot hkept hs)
    (cold_of_plot hkept hcold)).trans hkept

theorem plot_closing_cold (hn : n ∉ s.toResume) (hs : s.Holds n i) (hcold : s.cold n) :
    (closing s).plot n i = s.plot n i := by
  have htested : (testOverlap s).plot n i = s.plot n i := by
    unfold testOverlap
    split
    · rfl
    · exact plot_actOnOverlap_cold s hn hs hcold
  have hcalled : (callOffEvicted (testOverlap s)).plot n i = s.plot n i := by
    have hholds := holds_of_plot htested hs
    have hcold' := cold_of_plot htested hcold
    generalize testOverlap s = u at htested hholds hcold'
    rw [← htested]
    unfold callOffEvicted
    split
    · rfl
    · split
      · rw [callOffTrial]
        exact plot_settling (plot_stopTrial hholds) hholds hcold'
      · rfl
  exact hcalled

/-! #### The SUSPEND placed (R105, R143) -/

/-- Where no RESUME for its lease waits, a SUSPEND placed does. -/
theorem waits_placeSuspend {q : List Queued} {bears : LinkCmd → Bool} {view : LeaseView} {h : Handle} {age : Nat}
    (hresume : ∀ y ∈ q, y.cmd.isResume h = false) : ∃ y ∈ placeSuspend bears view h age q, y.cmd = .suspend h := by
  have hnone : anyWaiting (·.isResume h) (removeAll (·.isSetRate h) q) = false := by
    rw [anyWaiting, List.any_eq_false]
    intro y hy
    rw [hresume y (mem_of_removeAll hy)]
    decide
  unfold placeSuspend
  dsimp only
  rw [hnone, if_neg Bool.false_ne_true]
  exact waits_replaceOrEnqueue

theorem suspend_beginSuspension (hs : s.Holds n i)
    (hresume : ∀ y ∈ (s.station i).queue, y.cmd.isResume (s.leaseHandle n) = false) :
    ∃ y ∈ ((beginSuspension s n).station i).queue, y.cmd = .suspend (s.leaseHandle n) := by
  obtain ⟨l, hl, hi⟩ := hs.lease
  unfold beginSuspension
  rw [hl]
  dsimp only
  rw [hi, queue_place hs.index.1 hs.index.2]
  exact waits_placeSuspend hresume

end Sys2Proof.Machine

/-! ### The ACCEPT of a FREE lease that comes to flow (R105, R107) -/

namespace Sys2Proof.Machine
variable {s t u v w b e : State} {n m k i j a g rate : Nat} {l l' f : Lease} {x : Exchange} {h : Handle}

/-- The free lease admitted is not FINISHING when its hold is looked at. -/
theorem unfinished_admitted (h1 : 1 ≤ m) (hf : v.lease? m = some f) (hkind : f.kind = .free) (c : Handle)
    (hl' : ((actOnOverlap v (freeRates v (v.entered i m rate))).corrected i m rate c).lease? m = some l') :
    l'.state ≠ .finishing := by
  obtain ⟨f1, hf1, hkind1, hrun1, -⟩ := runs_entered hf hkind i rate
  obtain ⟨f2, hf2, hcore2⟩ := lease_of_core (core_freeRates m v (v.entered i m rate)) hf1
  have hfree : f2.kind.isBought = false := by
    have hsame : f2.kind = f1.kind := (congrArg Lease.kind hcore2 :)
    rw [hsame, hkind1]
    rfl
  obtain ⟨f3, hf3, hcore3⟩ := lease_of_core (core_actOnOverlap_free v hf2 hfree h1) hf2
  rw [lease_corrected, hf3] at hl'
  obtain rfl := Option.some.inj hl'
  have hrun := (running_of_core (hcore3.trans hcore2)).trans hrun1
  intro hfin
  rw [hfin] at hrun
  cases hrun

/-- A FREE lease that will flow is offered to entry `i` in slot `m`. -/
structure State.Floods (s : State) (i m : Nat) (f : Lease) : Prop where
  table : s.tableInOrder
  index : 1 ≤ i ∧ i ≤ 7
  slot : 1 ≤ m ∧ m ≤ 8
  lease : s.lease? m = some f
  kind : f.kind = .free
  holder : f.holder = i
  offered : f.state = .offered
  flow : 0 < s.flow f

/-- A bought lease that heats at or below the FREE lease's inlet and is not near due. -/
structure State.Flooded (s : State) (f : Lease) (n : Nat) (l : Lease) : Prop where
  slot : 1 ≤ n ∧ n ≤ 8
  lease : s.lease? n = some l
  bought : l.kind.isBought = true
  heats : l.state.isHeating = true
  inlet : l.inlet ≤ f.inlet
  due : s.nearDue l = false

theorem plot_enterRate (b : State) (m : Nat) (s : State) : (enterRate b s m).plot n j = s.plot n j := by
  rw [enterRate, plot_modLease m (core_settledState s.map.valid), plot_followDemand, plot_followEntitlement]

theorem plot_corrected (hij : i ≠ j) (m rate : Nat) (h : Handle) (s : State) :
    (s.corrected i m rate h).plot n j = s.plot n j := by
  rcases corrected_cases i m rate h s with e | ⟨c, e⟩
  · rw [e]
  · rw [e, plot_place_ne hij]

theorem station_enumerated (x : Exchange) (u : State) (j : Nat) : (afterEnumerated x u).station j = u.station j := by
  obtain ⟨w, hw, hstations, -⟩ := afterEnumerated_eq x u
  rw [hw, State.station, State.station, modLink_link, hstations]

theorem holds_enumerated (x : Exchange) (hu : u.Holds n j) : (afterEnumerated x u).Holds n j := by
  refine holds_of_shelf ?_ (enumerated_shelf x u) hu
  obtain ⟨w, hw, -⟩ := afterEnumerated_eq x u
  rw [hw]
  rfl

section floods

variable (hf : s.Floods i m f) (hl : s.Flooded f n l)

section
include hf

theorem flowsOver_admitted (hinlet : l.inlet ≤ f.inlet) (rate : Nat) :
    ((s.heard i).entered i m rate).flowsOver l.inlet := by
  obtain ⟨f', hf', hkind', hrun, hinlet', hsame⟩ := runs_entered (v := s.heard i) hf.lease hf.kind i rate
  refine ⟨m, f', hf.slot.1, hf.slot.2, hf', by rw [hkind']; rfl, hrun, ?_, by rw [hinlet']; exact hinlet⟩
  rw [hsame _ (by rw [hf.offered]; decide), flow_entered hf.index.2]
  exact hf.flow

theorem drawsNone_floods (rate k : Nat) (f' : Lease) (h1 : 1 ≤ k) (h8 : k ≤ 8)
    (hf' : ((s.heard i).entered i m rate).lease? k = some f') (hfree : f'.kind.isBought = false) :
    ((s.heard i).entered i m rate).drawsBudget f' = false :=
  drawsNone_of_kin hf.table (kin_heard hf.index.2 hf.lease rate) k f' h1 h8 hf' hfree

end

include hf hl

theorem ne_of_floods : m - 1 ≠ n - 1 := fun e => by
  have hheat := hl.heats
  obtain rfl := Option.some.inj (hf.lease.symm.trans ((lease_of_place e s).trans hl.lease))
  rw [hf.offered] at hheat
  cases hheat

theorem lease_flooded (rate : Nat) : ((s.heard i).entered i m rate).leaseSlot n = s.leaseSlot n :=
  leaseSlot_entered_ne (ne_of_floods hf hl) i rate (s.heard i)

/-- The slot of the other lease as the free leases take their rates. -/
theorem leaseSlot_flooded (rate : Nat) :
    (freeRates (s.heard i) ((s.heard i).entered i m rate)).leaseSlot n =
      { issue := (s.leaseSlot n).issue
        lease := some { l with entitlement := ((s.heard i).entered i m rate).entitlementOf l } } := by
  have hentered : ((s.heard i).entered i m rate).lease? n = some l := by
    rw [State.lease?, lease_flooded hf hl]
    exact hl.lease
  rw [leaseSlot_freeRates_bought _ hl.slot.1 hl.slot.2 hentered hl.bought, lease_flooded hf hl]

theorem toSuspend_flooded (rate : Nat) : n ∈ (freeRates (s.heard i) ((s.heard i).entered i m rate)).toSuspend :=
  toSuspend_entered hl.slot.1 hl.slot.2 (drawsNone_floods hf rate) (leaseSlot_flooded hf hl rate) hl.bought hl.heats
    (flowsOver_admitted hf hl.inlet rate) hl.due

theorem admitLease_floods (rate : Nat) :
    admitLease i m rate (s.heard i) =
      (actOnOverlap (s.heard i) (freeRates (s.heard i) ((s.heard i).entered i m rate))).corrected i m rate
        ((s.heard i).leaseHandle m) :=
  admitLease_suspending hl.slot.1 hl.slot.2 (drawsNone_floods hf rate) (leaseSlot_flooded hf hl rate) hl.bought
    hl.heats (flowsOver_admitted hf hl.inlet rate) hl.due
    fun _ hl' hfin => absurd hfin (unfinished_admitted (v := s.heard i) hf.slot.1 hf.lease hf.kind _ hl')

/-- The lease is suspended, and covered as the step closes. -/
theorem covers_flooded (rate : Nat) (x : Exchange) :
    (afterEnumerated x (admitLease i m rate (s.heard i))).rests n (s.leaseSlot n).issue
        (Lease.suspended { l with entitlement := ((s.heard i).entered i m rate).entitlementOf l } s.admission.freeHeat) ∧
      (afterEnumerated x (admitLease i m rate (s.heard i))).covers n :=
  admission_covers hl.slot.1 hl.slot.2 (drawsNone_floods hf rate) (leaseSlot_flooded hf hl rate) hl.bought
    hl.heats (flowsOver_admitted hf hl.inlet rate) hl.due
    (fun _ hl' hfin => absurd hfin (unfinished_admitted (v := s.heard i) hf.slot.1 hf.lease hf.kind _ hl')) x

/-! #### Its holder's queue -/

theorem holds_flooded (rate : Nat) : ((s.heard i).entered i m rate).Holds n l.holder := by
  have hs : s.Holds n l.holder := by
    obtain ⟨hsolar, -⟩ := hf.table.1 n l hl.slot.1 hl.slot.2 hl.lease
    refine holds_of_tableInOrder hf.table hl.slot.1 hl.slot.2 hl.lease fun e => ?_
    have hbought := hl.bought
    rw [hsolar.mpr e] at hbought
    cases hbought
  obtain ⟨hentries, -⟩ := rateInputs_eq_iff.mp (rateInputs_entered i m rate (s.heard i))
  refine ⟨hs.slot, hs.index, ?_, ⟨l, ?_, rfl⟩, fun k l' hl' hi => ?_⟩
  · rw [State.entry, hentries]
    by_cases hj : l.holder = i
    · rw [hj]
      exact (state_heard hf.index.2 s).trans (hj ▸ hs.ready)
    · exact (congrArg Entry.state (heard_entry_ne hj s)).trans hs.ready
  · rw [State.lease?, lease_flooded hf hl]
    exact hl.lease
  · obtain ⟨l0, hl0, -, hholder⟩ := (kin_heard hf.index.2 hf.lease rate).lease k l' hl'
    exact hs.only k l0 hl0 (hholder.symm.trans hi)

theorem holder_flooded : i ≠ l.holder := fun e => by
  obtain ⟨-, -, -, honly, -⟩ := hf.table.1 n l hl.slot.1 hl.slot.2 hl.lease
  have hmn := honly m f hf.slot.1 hf.slot.2 hf.lease (hf.holder.trans e)
  exact ne_of_floods hf hl (by rw [hmn])

/-- The queue of the other lease's holder as the free leases take their rates. -/
theorem queue_flooded (rate : Nat) :
    ((freeRates (s.heard i) ((s.heard i).entered i m rate)).station l.holder).queue = (s.station l.holder).queue := by
  have hrated := (plot_eq_iff.mp (plot_freeRates (n := n) (i := l.holder) (s.heard i)
    ((s.heard i).entered i m rate))).2.2.2
  have hentered := (plot_eq_iff.mp (plot_enterRate (n := n) (j := l.holder) (s.heard i) m
    ((s.heard i).accepted i m rate))).2.2.2
  rw [hrated, State.entered, hentered]
  exact congrArg Station.queue (tget_tset_ne _ i l.holder _ _ (holder_flooded hf hl))

/-- Its SUSPEND waits where no RESUME for it did. -/
theorem suspend_flooded (rate : Nat) (x : Exchange)
    (hresume : ∀ y ∈ (s.station l.holder).queue, y.cmd.isResume (s.leaseHandle n) = false) :
    ∃ y ∈ (((admitLease i m rate (s.heard i)).concluded x).station l.holder).queue,
      y.cmd = .suspend (s.leaseHandle n) := by
  have hentered := holds_flooded hf hl rate
  have hrated : (freeRates (s.heard i) ((s.heard i).entered i m rate)).Holds n l.holder :=
    holds_of_plot (plot_freeRates _ _) hentered
  have hslot := leaseSlot_flooded hf hl rate
  have hqueue := queue_flooded hf hl rate
  obtain ⟨u, hu, hacted⟩ := plot_actOnOverlap_suspended (s.heard i) (toSuspend_flooded hf hl rate) hrated
  obtain ⟨hrests, hcovers⟩ := covers_flooded hf hl rate x
  have hhandle : u.leaseHandle n = s.leaseHandle n := by
    rw [leaseHandle_of_shelf (plot_eq_iff.mp hu).2.1, State.leaseHandle, hslot]
    rfl
  obtain ⟨y, hy, hcmd⟩ := suspend_beginSuspension (holds_of_plot hu hrated) fun y hy => by
    rw [(plot_eq_iff.mp hu).2.2.2, hqueue] at hy
    rw [hhandle]
    exact hresume y hy
  have hadmitted : (admitLease i m rate (s.heard i)).plot n l.holder = (beginSuspension u n).plot n l.holder := by
    rw [admitLease_floods hf hl, plot_corrected (holder_flooded hf hl), hacted]
  have hbegun : (beginSuspension u n).Holds n l.holder :=
    holds_of_shelf (calm_eq_iff.mp (calm_beginSuspension u n)).2.2.2.1 (shelf_beginSuspension u n)
      (holds_of_plot hu hrated)
  have hclosed := plot_closing_cold (not_toResume_of_covers hcovers)
    (holds_enumerated x (holds_of_plot hadmitted hbegun)) fun l' hl' => by
      rw [(suspended_of_rests hrests hl').1]
      rfl
  refine ⟨y, ?_, hcmd.trans (congrArg LinkCmd.suspend hhandle)⟩
  rw [State.concluded, (plot_eq_iff.mp hclosed).2.2.2, station_enumerated, (plot_eq_iff.mp hadmitted).2.2.2]
  exact hy

end floods

/-- The ACCEPT of a FREE lease that comes to flow suspends every lease it overlaps. -/
theorem accept_floods (hs : s.tableInOrder) (hx : s.link.exchange = some x) (haddr : x.addr = a) (h31 : a ≠ 31)
    (hi : s.indexAt a = some i) (hlive : s.resolveLease h = .live) (hf : s.lease? h.slot = some f)
    (hholder : f.holder = i) (hkind : f.kind = .free) (hoffered : f.state = .offered) (hflow : 0 < s.flow f)
    {kind : LeaseKind} {c : Temp} {bud : Option Nat} (hcmd : x.cmd = .grant h kind rate c bud) :
    ∃ t, exec (.accept a h) s = .next t ∧ ∀ n l, s.Flooded f n l →
      ∃ l', t.leaseSlot n = { issue := (s.leaseSlot n).issue, lease := some l' } ∧ l'.state = .suspended ∧
        l'.granted = 0 ∧ l'.root = l.root ∧
        l'.saved = some
          { state := l.state, rate := l.granted, timer := l.timer, hold := l.hold
            freeMark := s.admission.freeHeat, deliveredMark := l.delivered } ∧
        ((∀ y ∈ (s.station l.holder).queue, y.cmd.isResume (s.leaseHandle n) = false) →
          ∃ y ∈ (t.station l.holder).queue, y.cmd = .suspend (s.leaseHandle n)) := by
  obtain ⟨h1, h8, -⟩ := slot_of_live hlive
  have hfloods : s.Floods i h.slot f := ⟨hs, index_of_indexAt hi, ⟨h1, h8⟩, hf, hkind, hholder, hoffered, hflow⟩
  refine ⟨_, congrArg Host.Outcome.next (accept_taken hx haddr h31 hi hcmd hlive hf hholder hoffered),
    fun n l hl => ?_⟩
  obtain ⟨hrests, hcovers⟩ := covers_flooded hfloods hl rate x
  obtain ⟨l', hl', hstate, hgranted, hroot, hsaved⟩ := suspended_told (rests_closing_suspended hl.slot.1 hrests hcovers)
  exact ⟨l', hl', hstate, hgranted, hroot, hsaved, suspend_flooded hfloods hl rate x⟩

end Sys2Proof.Machine

/-! ### A lease that the overlap resumes (R106, R109, R110) -/

namespace Sys2Proof.Machine
variable {s t u w b : State} {n m k i : Nat} {l l0 l' : Lease} {ctx : SavedContext} {bud tm : Option Nat} {x : Exchange}

/-! #### A lease that goes on -/

/-- A lease that has gone on from its suspension with this budget and this timer, whatever came of it since in the same
step (R109). -/
structure Lease.GoesOn (l : Lease) (bud tm : Option Nat) (l' : Lease) : Prop where
  root : l'.root = l.root
  budget : l'.budget = bud
  saved : l'.saved = none
  state : l'.state ≠ .suspended
  timer : l'.timer = tm
  reason : l'.reason ≠ some .satisfiedByFree

/-- Slot `n` holds a lease that has gone on. -/
def State.goesOn (s : State) (n k : Nat) (l : Lease) (bud tm : Option Nat) : Prop :=
  ∃ l', s.leaseSlot n = { issue := k, lease := some l' } ∧ l.GoesOn bud tm l'

theorem goesOn_of_lease (hcore : l'.core = l0.core) (h : l.GoesOn bud tm l0) : l.GoesOn bud tm l' where
  root := (congrArg Lease.root hcore :).trans h.root
  budget := (congrArg Lease.budget hcore :).trans h.budget
  saved := (congrArg Lease.saved hcore :).trans h.saved
  state e := h.state ((same_of_core hcore).2.2.2.1.mp e)
  timer := (congrArg Lease.timer hcore :).trans h.timer
  reason := by
    have hsame : l'.reason = l0.reason := (congrArg Lease.reason hcore :)
    rw [hsame]
    exact h.reason

theorem goesOn_of_core (hcore : t.core n = s.core n) (hs : s.goesOn n k l bud tm) : t.goesOn n k l bud tm := by
  obtain ⟨l0, hslot, hgoes⟩ := hs
  obtain ⟨l', hl', hcore'⟩ := leaseSlot_of_core hcore hslot
  exact ⟨l', hl', goesOn_of_lease hcore' hgoes⟩

theorem goesOn_modLease (f : Lease → Lease) (hf : ∀ l', l.GoesOn bud tm l' → l.GoesOn bud tm (f l'))
    (hs : s.goesOn n k l bud tm) : (s.modLease n f).goesOn n k l bud tm := by
  obtain ⟨l0, hslot, hgoes⟩ := hs
  refine ⟨f l0, ?_, hf l0 hgoes⟩
  rw [leaseSlot_modLease, State.lease?, hslot]
  rfl

theorem goesOn_endZeroHold (hs : s.goesOn n k l bud tm) : (endZeroHold n s).goesOn n k l bud tm := by
  unfold endZeroHold
  split
  · exact hs
  · split
    · refine goesOn_of_core (core_settling n _ s) ?_
      rw [beginRevoking]
      refine goesOn_of_core (core_place _ _ _ _) (goesOn_modLease _ (fun l' h => ?_) hs)
      exact ⟨h.root, h.budget, rfl, nofun, h.timer, nofun⟩
    · exact hs

theorem goesOn_testFinishing (h1 : 1 ≤ n) (hm : 1 ≤ m) (hs : s.goesOn n k l bud tm) :
    (testFinishing m s).goesOn n k l bud tm := by
  by_cases hmn : m - 1 = n - 1
  · obtain rfl : m = n := by omega
    unfold testFinishing
    split
    · exact hs
    · split
      · refine goesOn_endZeroHold (goesOn_of_core (core_settling m _ s) (goesOn_modLease _ (fun l' h => ?_) hs))
        exact ⟨h.root, h.budget, h.saved, nofun, h.timer, h.reason⟩
      · split
        · have hback : (settling (fun t => t.modLease m fun l => { l with state := .admitted, hold := none }) s).goesOn m k
              l bud tm := by
            refine goesOn_of_core (core_settling m _ s) (goesOn_modLease _ (fun l' h => ?_) hs)
            exact ⟨h.root, h.budget, h.saved, nofun, h.timer, h.reason⟩
          unfold recharge
          dsimp only
          split
          · exact hback
          · exact goesOn_of_core (core_place _ _ _ _) hback
        · exact hs
  · exact goesOn_of_core (core_testFinishing_ne hmn s) hs

theorem goesOn_closing (h1 : 1 ≤ n) (hnot : n ∉ s.toSuspend) (hs : s.goesOn n k l bud tm) :
    (closing s).goesOn n k l bud tm := by
  obtain ⟨l', hslot, hgoes⟩ := id hs
  have hcore := core_closing_unresumed h1 (not_toResume (congrArg LeaseSlot.lease hslot) hgoes.state)
  rw [if_neg hnot] at hcore
  exact goesOn_of_core hcore hs

/-! #### The resumption itself -/

theorem leaseSlot_beginResumption_ne (hmn : m - 1 ≠ n - 1) (s : State) :
    (beginResumption s m).leaseSlot n = s.leaseSlot n := by
  have hlease := lease_beginResumption_ne hmn s
  have hissue := issue_of_shelf (shelf_beginResumption s m) n
  calc (beginResumption s m).leaseSlot n
      = { issue := ((beginResumption s m).leaseSlot n).issue, lease := (beginResumption s m).lease? n } := rfl
    _ = { issue := (s.leaseSlot n).issue, lease := s.lease? n } := by rw [hissue, hlease]
    _ = s.leaseSlot n := rfl

/-- What holds of slot `n` once its lease is resumed, and stays while the arbiter and the finishing tests work, holds once
the overlap is acted on. -/
theorem actOnOverlap_resumes {P : State → Prop} (hslot : ∀ u w : State, w.leaseSlot n = u.leaseSlot n → P u → P w)
    (hsettle : ∀ u, P u → P (settle b u)) (htest : ∀ m u, 1 ≤ m → P u → P (testFinishing m u))
    (hown : ∀ u : State, u.core n = s.core n → u.calm = s.calm → P (beginResumption u n)) (hn : n ∈ s.toResume) :
    P (actOnOverlap b s) := by
  have h1 := pos_of_toResume hn
  have hkept : n ∉ s.toSuspend := fun hs => by
    obtain ⟨l, hl, hheat⟩ := heating_of_toSuspend hs
    rw [suspended_of_toResume hn l hl] at hheat
    cases hheat
  have hpos : ∀ m ∈ s.toResume, 1 ≤ m := fun m hm => pos_of_toResume hm
  obtain ⟨before, after, hsplit⟩ := List.append_of_mem hn
  have hne : ∀ m ∈ before ++ after, m - 1 ≠ n - 1 := by
    have hnodup : (before ++ n :: after).Nodup := hsplit ▸ nodup_toResume s
    obtain ⟨hfresh, -⟩ := List.nodup_cons.mp (List.nodup_middle.mp hnodup)
    intro m hm hmn
    have hmem : m ∈ s.toResume := by
      rw [hsplit]
      simp only [List.mem_append, List.mem_cons] at hm ⊢
      tauto
    have := hpos m hmem
    obtain rfl : m = n := by omega
    exact hfresh hm
  unfold actOnOverlap
  dsimp only
  have hsuspended : (s.toSuspend.foldl beginSuspension s).core n = s.core n := by
    have hslots := leaseSlot_suspensions (s := s) (nodup_toSuspend s) (fun m hm => pos_of_toSuspend hm) h1
    rw [if_neg hkept] at hslots
    exact core_of_leaseSlot hslots
  have hcalm : (s.toSuspend.foldl beginSuspension s).calm = s.calm := foldl_calm _ calm_beginSuspension _ _
  have hresumed : P (s.toResume.foldl beginResumption (s.toSuspend.foldl beginSuspension s)) := by
    generalize s.toSuspend.foldl beginSuspension s = q at hsuspended hcalm
    rw [hsplit, List.foldl_append, List.foldl_cons]
    have hbefore : (before.foldl beginResumption q).core n = q.core n :=
      foldl_core n _ _ (fun m => m - 1 ≠ n - 1) (fun t m hm => core_beginResumption_ne hm t)
        (fun m hm => hne m (List.mem_append_left _ hm)) q
    have hcalm' : (before.foldl beginResumption q).calm = q.calm := foldl_calm _ calm_beginResumption _ _
    exact List.foldlRecOn (motive := P) after beginResumption (hown _ (hbefore.trans hsuspended) (hcalm'.trans hcalm))
      fun u hu m hm => hslot u _ (leaseSlot_beginResumption_ne (hne m (List.mem_append_right _ hm)) u) hu
  refine List.foldlRecOn (motive := P) _ _ ?_ fun u hu m hm => htest m u (hpos m hm) hu
  refine List.foldlRecOn (motive := P) _ _ (hsettle _ hresumed) fun u hu m _ => hslot u _ ?_ hu
  unfold announceResume
  repeat' split
  · rfl
  · exact leaseSlot_of_admission (admission_place _ _ _) n
  · rfl

theorem core_revoked (h : l'.core = l.core) (bud : Option Nat) (r : LeaseOutcome) :
    (Lease.revoked { l' with budget := bud } r).core = (Lease.revoked { l with budget := bud } r).core :=
  (congrArg (fun c : Lease => (Lease.revoked { c with budget := bud } r).core) h :)

/-- The adjusted budget is read off the lease's budget and the free heat. -/
theorem adjustedBudget_congr (hcalm : t.calm = s.calm) (hcore : l'.core = l.core) (ctx : SavedContext) :
    t.adjustedBudget l' ctx = s.adjustedBudget l ctx := by
  have hbudget : l'.budget = l.budget := (congrArg Lease.budget hcore :)
  rw [State.adjustedBudget, State.adjustedBudget, freeHeat_of_calm hcalm, hbudget]

theorem satisfied_congr (hcalm : t.calm = s.calm) (hcore : l'.core = l.core) (ctx : SavedContext) :
    t.satisfiedByFree l' ctx = s.satisfiedByFree l ctx := by
  have hdelivered : l'.delivered = l.delivered := (congrArg Lease.delivered hcore :)
  rw [State.satisfiedByFree, State.satisfiedByFree, adjustedBudget_congr hcalm hcore, hdelivered]

section resumed

variable (hslot : s.leaseSlot n = { issue := k, lease := some l }) (hctx : l.saved = some ctx)
include hslot hctx

theorem rests_beginResumption (hsat : s.satisfiedByFree l ctx = true) :
    (beginResumption s n).rests n k (Lease.revoked { l with budget := s.adjustedBudget l ctx } .satisfiedByFree) := by
  have hl : s.lease? n = some l := congrArg LeaseSlot.lease hslot
  unfold beginResumption
  rw [hl]
  dsimp only
  rw [hctx]
  dsimp only
  rw [if_pos hsat]
  refine ⟨Lease.revoked { l with budget := s.adjustedBudget l ctx } .satisfiedByFree, ?_, rfl, fun _ => rfl⟩
  rw [leaseSlot_beginRevoking, lease_modLease, leaseSlot_modLease, hslot, hl]
  rfl

theorem goesOn_beginResumption (hsat : s.satisfiedByFree l ctx = false) (hstate : ctx.state ≠ .suspended)
    (hreason : l.reason ≠ some .satisfiedByFree) :
    (beginResumption s n).goesOn n k l (s.adjustedBudget l ctx) ctx.timer := by
  have hl : s.lease? n = some l := congrArg LeaseSlot.lease hslot
  have hresumed : (s.modLease n fun l' => { l' with
      state := ctx.state, timer := ctx.timer, hold := ctx.hold, saved := none, budget := s.adjustedBudget l ctx
      granted := 0, waiting := s.drawsBudget l' }).goesOn n k l (s.adjustedBudget l ctx) ctx.timer := by
    refine ⟨{ l with
      state := ctx.state, timer := ctx.timer, hold := ctx.hold, saved := none, budget := s.adjustedBudget l ctx
      granted := 0, waiting := s.drawsBudget l }, ?_, ⟨rfl, rfl, rfl, hstate, rfl, hreason⟩⟩
    rw [leaseSlot_modLease, hslot, hl]
    rfl
  unfold beginResumption
  rw [hl]
  dsimp only
  rw [hctx]
  dsimp only
  rw [if_neg (by rw [hsat]; decide)]
  split
  · exact hresumed
  · exact goesOn_of_core (core_place _ _ _ _) hresumed

variable (hn : n ∈ s.toResume)
include hn

/-- A lease resumed whose adjusted budget is delivered goes to REVOKING (R109). -/
theorem rests_resumed (b : State) (hsat : s.satisfiedByFree l ctx = true) :
    (actOnOverlap b s).rests n k (Lease.revoked { l with budget := s.adjustedBudget l ctx } .satisfiedByFree) := by
  refine actOnOverlap_resumes (P := fun u => u.rests n k _) (fun u w hw hu => rests_of_leaseSlot hw hu)
    (fun u hu => rests_of_works (core_settle n b u) (works_settle b u) hu)
    (fun m u hm hu => rests_testFinishing hm (pos_of_toResume hn) (state_revoked _ _) hu) (fun u hcore hcalm => ?_) hn
  obtain ⟨l1, hslot1, hcore1⟩ := leaseSlot_of_core hcore hslot
  have hctx1 : l1.saved = some ctx := (congrArg Lease.saved hcore1 :).trans hctx
  obtain ⟨l2, hslot2, hcore2, hpower⟩ := rests_beginResumption hslot1 hctx1
    ((satisfied_congr hcalm hcore1 ctx).trans hsat)
  rw [adjustedBudget_congr hcalm hcore1] at hcore2
  exact ⟨l2, hslot2, hcore2.trans (core_revoked hcore1 _ _), hpower⟩

/-- Any other goes on (R109). -/
theorem goesOn_resumed (b : State) (hsat : s.satisfiedByFree l ctx = false) (hstate : ctx.state ≠ .suspended)
    (hreason : l.reason ≠ some .satisfiedByFree) :
    (actOnOverlap b s).goesOn n k l (s.adjustedBudget l ctx) ctx.timer := by
  refine actOnOverlap_resumes (P := fun u => u.goesOn n k l _ _)
    (fun u w hw hu => goesOn_of_core (core_of_leaseSlot hw) hu) (fun u hu => goesOn_of_core (core_settle n b u) hu)
    (fun m u hm hu => goesOn_testFinishing (pos_of_toResume hn) hm hu) (fun u hcore hcalm => ?_) hn
  obtain ⟨l1, hslot1, hcore1⟩ := leaseSlot_of_core hcore hslot
  have hctx1 : l1.saved = some ctx := (congrArg Lease.saved hcore1 :).trans hctx
  have hreason1 : l1.reason = l.reason := (congrArg Lease.reason hcore1 :)
  obtain ⟨l2, hslot2, hgoes⟩ := goesOn_beginResumption hslot1 hctx1
    ((satisfied_congr hcalm hcore1 ctx).trans hsat) hstate (by rw [hreason1]; exact hreason)
  rw [adjustedBudget_congr hcalm hcore1] at hgoes
  exact ⟨l2, hslot2, { hgoes with root := hgoes.root.trans (congrArg Lease.root hcore1 :) }⟩

end resumed

end Sys2Proof.Machine

/-! ### The end of a flow (R106, R109) -/

namespace Sys2Proof.Machine
variable {s t u v w b e : State} {n m k i a rate : Nat} {l l' f : Lease} {ctx : SavedContext} {bud : Option Nat}
  {x : Exchange} {h : Handle} {flags : Byte}

/-! #### A lease resumed, to the end of the step -/

/-- The budget is delivered. -/
def Lease.deliveredOf (l : Lease) (bud : Option Nat) : Prop := ∃ b, bud = some b ∧ b ≤ l.delivered

/-- Slot `n` holds the lease as its resumption leaves it: in REVOKING where its adjusted budget is delivered, and else
gone on. -/
def State.resumes (t : State) (n k : Nat) (l : Lease) (bud : Option Nat) (ctx : SavedContext) : Prop :=
  (l.deliveredOf bud → t.rests n k (Lease.revoked { l with budget := bud } .satisfiedByFree)) ∧
    (¬l.deliveredOf bud → t.goesOn n k l bud ctx.timer)

theorem satisfiedByFree_iff : s.satisfiedByFree l ctx = true ↔ l.deliveredOf (s.adjustedBudget l ctx) := by
  rw [State.satisfiedByFree, Lease.deliveredOf, Option.any_eq_true]
  simp only [decide_eq_true_eq]

theorem resumes_actOnOverlap (b : State) (hslot : s.leaseSlot n = { issue := k, lease := some l })
    (hctx : l.saved = some ctx) (hn : n ∈ s.toResume) (hstate : ctx.state ≠ .suspended)
    (hreason : l.reason ≠ some .satisfiedByFree) : (actOnOverlap b s).resumes n k l (s.adjustedBudget l ctx) ctx :=
  ⟨fun hsat => rests_resumed hslot hctx hn b (satisfiedByFree_iff.mpr hsat), fun hsat =>
    goesOn_resumed hslot hctx hn b (Bool.eq_false_iff.mpr (mt satisfiedByFree_iff.mp hsat)) hstate hreason⟩

theorem resumes_of_leaseSlot (h : t.leaseSlot n = s.leaseSlot n) (hs : s.resumes n k l bud ctx) :
    t.resumes n k l bud ctx :=
  ⟨fun hsat => rests_of_leaseSlot h (hs.1 hsat), fun hsat => goesOn_of_core (core_of_leaseSlot h) (hs.2 hsat)⟩

theorem root_of_resumes (hs : s.resumes n k l bud ctx) (hl' : s.lease? n = some l') : l'.root = l.root := by
  by_cases hsat : l.deliveredOf bud
  · obtain ⟨l0, hslot, hcore, -⟩ := hs.1 hsat
    obtain rfl := Option.some.inj ((congrArg LeaseSlot.lease hslot).symm.trans hl')
    exact (congrArg Lease.root hcore :)
  · obtain ⟨l0, hslot, hgoes⟩ := hs.2 hsat
    obtain rfl := Option.some.inj ((congrArg LeaseSlot.lease hslot).symm.trans hl')
    exact hgoes.root

/-- The lease of slot `n` is not overlapped, or near due. -/
def State.spares (s : State) (n : Nat) : Prop :=
  ∀ l, s.lease? n = some l → s.overlapped l = false ∨ s.nearDue l = true

theorem not_toSuspend_of_spares (h : s.spares n) : n ∉ s.toSuspend := fun hn => by
  obtain ⟨l, hl, -⟩ := heating_of_toSuspend hn
  obtain ⟨-, -, -, hover, hdue⟩ := (mem_toSuspend_iff hl).mp hn
  rcases h l hl with hnot | hnear
  · rw [hover] at hnot
    cases hnot
  · rw [hdue] at hnear
    cases hnear

theorem resumes_closing (h1 : 1 ≤ n) (hspared : s.spares n) (hs : s.resumes n k l bud ctx) :
    (closing s).resumes n k l bud ctx :=
  ⟨fun hsat => rests_closing h1 rfl nofun (hs.1 hsat), fun hsat =>
    goesOn_closing h1 (not_toSuspend_of_spares hspared) (hs.2 hsat)⟩

/-- What a lease resumed is told by. -/
theorem resumed_told (hs : s.resumes n k l bud ctx) :
    ∃ l', s.leaseSlot n = { issue := k, lease := some l' } ∧ l'.state ≠ .suspended ∧ l'.saved = none ∧
      l'.root = l.root ∧ l'.budget = bud ∧ ((∃ b, bud = some b ∧ b ≤ l.delivered) → l'.isRevokingFor .satisfiedByFree) ∧
      ((∀ b, bud = some b → l.delivered < b) → l'.timer = ctx.timer ∧ l'.reason ≠ some .satisfiedByFree) := by
  by_cases hsat : l.deliveredOf bud
  · obtain ⟨l', hslot, hrevoking, hroot, hbudget, -⟩ := revoked_of_rests (hs.1 hsat)
    obtain ⟨hstate, -, -, -, -, hsaved⟩ := id hrevoking
    refine ⟨l', hslot, by rw [hstate]; decide, hsaved, hroot, hbudget, fun _ => hrevoking, fun hmore => ?_⟩
    obtain ⟨b, hb, hle⟩ := hsat
    exact absurd (hmore b hb) (Nat.not_lt.mpr hle)
  · obtain ⟨l', hslot, hgoes⟩ := hs.2 hsat
    exact ⟨l', hslot, hgoes.state, hgoes.saved, hgoes.root, hgoes.budget, fun hdone => absurd hdone hsat,
      fun _ => ⟨hgoes.timer, hgoes.reason⟩⟩

theorem resettle_resuming (b : State) (hn : n ∈ (freeRates b s).toResume) :
    resettle b s = actOnOverlap b (freeRates b s) := by
  unfold resettle
  refine if_neg fun hcalm => ?_
  rw [State.overlapCalm, Bool.and_eq_true, List.isEmpty_iff, List.isEmpty_iff] at hcalm
  rw [hcalm.2] at hn
  cases hn

/-- What the order of the table says of a SUSPENDED lease. -/
theorem context_of_suspended (hs : s.tableInOrder) (h1 : 1 ≤ n) (h8 : n ≤ 8) (hl : s.lease? n = some l)
    (hstate : l.state = .suspended) (hctx : l.saved = some ctx) :
    ctx.state ≠ .suspended ∧ l.reason ≠ some .satisfiedByFree := by
  obtain ⟨-, -, -, -, -, -, hreason, -, hcontext, -⟩ := hs.1 n l h1 h8 hl
  refine ⟨fun e => ?_, fun e => ?_⟩
  · have hheat := (hcontext ctx hctx).1
    rw [e] at hheat
    cases hheat
  · have hrevoking := hreason.mp (by rw [e]; nofun)
    rw [hstate] at hrevoking
    cases hrevoking

/-! #### A CHANGE that stops a flow -/

theorem demand_le_entitlement (s : State) (l : Lease) : s.demand l ≤ l.entitlement := by
  have hguarded : s.guarded l ≤ l.entitlement := Nat.min_le_left _ _
  unfold State.demand
  dsimp only
  split
  · split
    · exact (Nat.min_le_left _ _).trans ((Nat.min_le_left _ _).trans hguarded)
    · exact (Nat.min_le_left _ _).trans hguarded
  · split
    · exact (Nat.min_le_left _ _).trans hguarded
    · exact hguarded

/-- An offer below 100 W is no flow (R88). -/
theorem flow_eq_zero (hkind : f.kind = .free) (hoffer : f.offer < 100) : s.flow f = 0 := by
  have hnone : f.offer / 100 * 100 = 0 := by omega
  have hentitlement : s.entitlementOf f = 0 := by rw [entitlementOf_free hkind, hnone, Nat.zero_min]
  have hle := demand_le_entitlement s { f with entitlement := s.entitlementOf f }
  exact Nat.le_zero.mp (hle.trans_eq hentitlement)

/-- A FREE lease that runs, of entry `i` in slot `m`, to be offered less than 100 W. -/
structure State.Ebbs (s : State) (i m : Nat) (f : Lease) : Prop where
  table : s.tableInOrder
  index : 1 ≤ i ∧ i ≤ 7
  slot : 1 ≤ m ∧ m ≤ 8
  lease : s.lease? m = some f
  kind : f.kind = .free
  holder : f.holder = i

/-- A bought lease SUSPENDED in slot `n` that no flow but that of slot `m` overlaps. -/
structure State.Stranded (s : State) (m n : Nat) (l : Lease) (ctx : SavedContext) : Prop where
  slot : 1 ≤ n ∧ n ≤ 8
  lease : s.lease? n = some l
  bought : l.kind.isBought = true
  state : l.state = .suspended
  saved : l.saved = some ctx
  alone : ∀ k f', 1 ≤ k → k ≤ 8 → k ≠ m → s.lease? k = some f' → f'.kind.isBought = false → f'.state.isRunning = true →
    s.flow f' = 0 ∨ f'.inlet < l.inlet

/-- The part with the new offer noted. -/
def State.changed (s : State) (i m rate : Nat) (flags : Byte) : State :=
  (s.reported i flags).modLease m fun l => { l with offer := rate }

section changed

variable (hf : s.Ebbs i m f)

theorem rateInputs_changed (i m rate : Nat) (flags : Byte) (s : State) :
    (s.changed i m rate flags).rateInputs = (s.reported i flags).rateInputs :=
  rateInputs_of_calm (calm_modLease m _ _)

include hf

theorem flow_changed (rate : Nat) (flags : Byte) (f' : Lease) : (s.changed i m rate flags).flow f' = s.flow f' :=
  (flow_of_inputs (rateInputs_changed i m rate flags s) f').trans (flow_heard hf.index.2 s f')

theorem kin_changed (rate : Nat) (flags : Byte) : s.Kin (s.changed i m rate flags) where
  cls j := by
    obtain ⟨hentries, -⟩ := rateInputs_eq_iff.mp (rateInputs_changed i m rate flags s)
    rw [State.entry, hentries]
    exact class_heard hf.index.2 s j
  lease k l' hl' := by
    obtain ⟨l0, hl0, rfl | ⟨rfl, -⟩⟩ := lease_of_modLease hl'
    · exact ⟨l0, hl0, rfl, rfl⟩
    · exact ⟨l', hl0, rfl, rfl⟩

variable (hl : s.Stranded m n l ctx)
include hl

theorem ne_of_stranded : m - 1 ≠ n - 1 := fun e => by
  have hbought := hl.bought
  obtain rfl := Option.some.inj (hf.lease.symm.trans ((lease_of_place e s).trans hl.lease))
  rw [hf.kind] at hbought
  cases hbought

/-- No flow is left over the lease. -/
theorem not_flowsOver_changed (hrate : rate < 100) (flags : Byte) : ¬(s.changed i m rate flags).flowsOver l.inlet := by
  rintro ⟨k, f', h1, h8, hf', hfree, hrun, hflow, hle⟩
  rw [flow_changed hf] at hflow
  by_cases hkm : k = m
  · subst hkm
    have hchanged : (s.changed i k rate flags).lease? k = some { f with offer := rate } := by
      have hlease : (s.reported i flags).lease? k = some f := hf.lease
      rw [State.changed, lease_modLease, hlease]
      rfl
    obtain rfl := Option.some.inj (hchanged.symm.trans hf')
    rw [flow_eq_zero (f := { f with offer := rate }) hf.kind hrate] at hflow
    exact Nat.lt_irrefl 0 hflow
  · have hm1 := hf.slot.1
    have hsame : s.lease? k = some f' := (lease_modLease_ne (by omega) _ (s.reported i flags)).symm.trans hf'
    rcases hl.alone k f' h1 h8 hkm hsame hfree hrun with hnone | hlow
    · omega
    · omega

theorem leaseSlot_changed (flags : Byte) :
    (freeRates (s.reported i flags) (s.changed i m rate flags)).leaseSlot n =
      { issue := (s.leaseSlot n).issue
        lease := some { l with entitlement := (s.changed i m rate flags).entitlementOf l } } := by
  have hslot : (s.changed i m rate flags).leaseSlot n = s.leaseSlot n :=
    leaseSlot_modLease_ne (ne_of_stranded hf hl) _ (s.reported i flags)
  have hlease : (s.changed i m rate flags).lease? n = some l := by
    rw [State.lease?, hslot]
    exact hl.lease
  rw [leaseSlot_freeRates_bought _ hl.slot.1 hl.slot.2 hlease hl.bought, hslot]

theorem toResume_changed (hrate : rate < 100) (flags : Byte) :
    n ∈ (freeRates (s.reported i flags) (s.changed i m rate flags)).toResume := by
  refine (mem_toResume_iff (congrArg LeaseSlot.lease (leaseSlot_changed hf hl flags))).mpr
    ⟨hl.slot, hl.bought, hl.state, .inl (Bool.eq_false_iff.mpr fun hover => ?_)⟩
  exact not_flowsOver_changed hf hl hrate flags ((overlapped_of_follows
    (follows_freeRates _ (drawsNone_of_kin hf.table (kin_changed hf rate flags))) _).mp hover)

/-- The lease as the CHANGE resumes it. -/
theorem resumes_changed (hrate : rate < 100) (flags : Byte) :
    (resettle (s.reported i flags) (s.changed i m rate flags)).resumes n (s.leaseSlot n).issue
      { l with entitlement := (s.changed i m rate flags).entitlementOf l } (s.adjustedBudget l ctx) ctx := by
  have hn := toResume_changed hf hl hrate flags
  have hslot := leaseSlot_changed (rate := rate) hf hl flags
  obtain ⟨hstate, hnone⟩ := context_of_suspended hf.table hl.slot.1 hl.slot.2 hl.lease hl.state hl.saved
  have hfree : (freeRates (s.reported i flags) (s.changed i m rate flags)).admission.freeHeat = s.admission.freeHeat :=
    freeHeat_of_calm (s := s.reported i flags) ((calm_freeRates _ _).trans (calm_modLease m _ _))
  have hresumes := resumes_actOnOverlap (s.reported i flags) hslot hl.saved hn hstate hnone
  rw [State.adjustedBudget, hfree] at hresumes
  rw [resettle_resuming _ hn]
  exact hresumes

/-- And as the step ends. -/
theorem resumes_concluded (hrate : rate < 100) (flags : Byte) (x : Exchange) :
    ((resettle (s.reported i flags) (s.changed i m rate flags)).concluded x).resumes n (s.leaseSlot n).issue
      { l with entitlement := (s.changed i m rate flags).entitlementOf l } (s.adjustedBudget l ctx) ctx := by
  have hresumes := resumes_changed hf hl hrate flags
  have hn := toResume_changed hf hl hrate flags
  have hfollows := follows_actOnOverlap (s.reported i flags)
    (follows_freeRates (s.reported i flags) (drawsNone_of_kin hf.table (kin_changed hf rate flags)))
  rw [← resettle_resuming _ hn] at hfollows
  have hslot (u : State) : (afterEnumerated x u).leaseSlot n = u.leaseSlot n := by
    obtain ⟨w, hw, -⟩ := afterEnumerated_eq x u
    rw [hw]
    rfl
  have hended := resumes_of_leaseSlot (hslot _) hresumes
  refine resumes_closing hl.slot.1 (fun l' hl' => .inl (Bool.eq_false_iff.mpr fun hover => ?_)) hended
  have hover' := (overlapped_of_follows (follows_enumerated x hfollows) l').mp hover
  have hinlet : l'.inlet = l.inlet := (congrArg Lease.inlet (root_of_resumes hended hl') :)
  rw [hinlet] at hover'
  exact not_flowsOver_changed hf hl hrate flags hover'

end changed

/-- A CHANGE to less than 100 W resumes the leases that no other flow overlaps. -/
theorem change_ebbs (hs : s.tableInOrder) (hx : s.link.exchange = some x) (haddr : x.addr = a) (h31 : a ≠ 31)
    (hi : s.indexAt a = some i) (hlive : s.resolveLease h = .live) (hf : s.lease? h.slot = some f)
    (hholder : f.holder = i) (hkind : f.kind = .free) (hcmd : x.cmd = .poll) (hfault : flags.getLsbD 3 = false)
    (hrate : rate < 100) :
    ∃ t, exec (.status a flags (some h) (some (.change rate))) s = .next t ∧ ∀ n l ctx, s.Stranded h.slot n l ctx →
      ∃ l0 : Lease, l0.root = l.root ∧ l0.delivered = l.delivered ∧
        t.resumes n (s.leaseSlot n).issue l0 (s.adjustedBudget l ctx) ctx := by
  obtain ⟨h1, h8, -⟩ := slot_of_live hlive
  have hindex := index_of_indexAt hi
  have hholds : s.Holds h.slot i := hholder ▸ holds_of_tableInOrder hs h1 h8 hf (by omega)
  have hheld := slotHeldBy_of_holds hholds
  have hown : s.handleHeldBy i = some h := by
    rw [State.handleHeldBy, hheld, Option.map_some, leaseHandle_of_live hlive]
  have hready : ((resettle (s.reported i flags) (s.changed i h.slot rate flags)).entry i).state ≠ .identifying := by
    have hentry : (resettle (s.reported i flags) (s.changed i h.slot rate flags)).entry = (s.heard i).entry :=
      (entry_of_calm ((calm_resettle _ _).trans (calm_modLease _ _ _))).trans rfl
    rw [hentry, state_heard hindex.2, hholds.ready]
    decide
  have htaken : takeChange i rate (s.reported i flags) = resettle (s.reported i flags) (s.changed i h.slot rate flags) :=
    takeChange_free (v := s.reported i flags) hheld hf hkind rate
  have hexec := status_item hx haddr h31 hcmd hi (by rw [hholds.ready]; decide) hfault (.change rate)
  rw [hown] at hexec
  have hebbs : s.Ebbs i h.slot f := ⟨hs, hindex, ⟨h1, h8⟩, hf, hkind, hholder⟩
  refine ⟨_, hexec, fun n l ctx hl => ⟨{ l with entitlement := (s.changed i h.slot rate flags).entitlementOf l }, rfl, rfl, ?_⟩⟩
  have hrouted : routeItem i (.change rate) (s.reported i flags) = takeChange i rate (s.reported i flags) := rfl
  rw [hrouted, htaken, leaveIdentifying_ready hready]
  exact resumes_concluded hebbs hl hrate flags x

end Sys2Proof.Machine

/-! ### A minute that brings a reservation near its due (R106, R168) -/

namespace Sys2Proof.Machine
variable {s t u w b e : State} {n m k i : Nat} {l l' : Lease} {ctx : SavedContext} {bud : Option Nat}

/-! #### What the rest of a clock event leaves -/

theorem leaseSlot_checkRecoolWindow (s : State) (n : Nat) : (checkRecoolWindow s).leaseSlot n = s.leaseSlot n := by
  unfold checkRecoolWindow
  split <;> rfl

theorem book_checkRecoolWindow (s : State) : (checkRecoolWindow s).book = s.book := by
  unfold checkRecoolWindow
  split <;> rfl

/-- An opening takes a slot that was free. -/
theorem leaseSlot_openOffered {l0 : Lease} {h : Handle} (e : openOffered l0 s = some (h, t))
    (hl : s.lease? n = some l) : t.leaseSlot n = s.leaseSlot n := by
  obtain ⟨m, l1, hm, -, -, rfl⟩ := openOffered_eq_some e
  obtain ⟨hm1, -, hfree⟩ := freeLeaseSlot_some hm
  have hne : m - 1 ≠ n - 1 := fun hmn => by
    rw [← lease_of_place hmn, hfree] at hl
    cases hl
  rw [leaseSlot_of_admission (admission_place _ _ _), leaseSlot_of_admission (admission_noteEligible _ _)]
  exact leaseSlot_putLease_ne hne l0 s

/-- The daily attempt leaves an occupied slot and the book. -/
theorem attempt_beside (hl : s.lease? n = some l) :
    (attempt s).leaseSlot n = s.leaseSlot n ∧ (attempt s).book = s.book := by
  unfold attempt
  split
  · exact ⟨rfl, rfl⟩
  · split
    · exact ⟨rfl, rfl⟩
    · split
      · exact ⟨rfl, rfl⟩
      · unfold openSanitise
        split
        · split
          · exact ⟨rfl, rfl⟩
          · next e => exact ⟨leaseSlot_openOffered e hl, book_openOffered e⟩
        · exact ⟨rfl, rfl⟩

theorem tryAttempt_beside (hl : s.lease? n = some l) :
    (tryAttempt s).leaseSlot n = s.leaseSlot n ∧ (tryAttempt s).book = s.book := by
  unfold tryAttempt
  split
  · exact attempt_beside (s := s.modSanitise fun m => { m with attempted := true }) hl
  · exact ⟨rfl, rfl⟩

theorem clock_tryAttempt (s : State) : (tryAttempt s).clock = s.clock := congrArg Kept.clock (kept_tryAttempt s)

/-! #### The minute -/

theorem nextMinute_eq {c : Clock} (h : c.minute < 1439) : c.nextMinute = { c with minute := c.minute + 1, second := 0 } := by
  have hday : Config.dayMinutes = 1440 := rfl
  rw [Clock.nextMinute, hday, if_pos (by omega)]

theorem now_nextMinute {c : Clock} (h : c.minute < 1439) : c.nextMinute.now = c.now + 1 := by
  rw [nextMinute_eq h]
  exact (Nat.add_assoc _ _ _).symm

/-- A minute within a day that brings no due: the overlap is tested under the new clock. -/
theorem advanceMinute_undue (hset : s.clock.set = true) (hminute : s.clock.minute < 1439)
    (hdues : ∀ k y, 1 ≤ k → k ≤ 24 → s.record? k = some y → y.state.isOpen = true → s.clock.now + 1 < dueOf y.terms) :
    advanceMinute s =
      closing (tryAttempt (checkRecoolWindow (testOverlap (s.setTo s.clock.nextMinute)))) := by
  have hend : s.clock.atEnd = false := by
    have hday : Config.dayMinutes - 1 = 1439 := rfl
    rw [Clock.atEnd, hday, Bool.and_eq_false_iff]
    exact .inr (beq_false_of_ne (by omega))
  have hclock : s.withClock s.clock.nextMinute = s.setTo s.clock.nextMinute := by
    refine if_pos ?_
    have hsame : (s.setTo s.clock.nextMinute).clock.day = s.clock.nextMinute.day := rfl
    rw [hsame, nextMinute_eq hminute]
  have hnone : (s.setTo s.clock.nextMinute).slotsDue = [] := by
    refine List.eq_nil_iff_forall_not_mem.mpr fun k hk => ?_
    obtain ⟨⟨h1, h24⟩, y, hy, hopen, hdue⟩ := mem_slotsDue.mp hk
    have hlate := hdues k y h1 h24 hy hopen
    have hnow : (s.setTo s.clock.nextMinute).clock.now = s.clock.now + 1 := now_nextMinute hminute
    omega
  have hprocessed : s.withDues s.clock.nextMinute = s.setTo s.clock.nextMinute := by
    rw [State.withDues, hclock]
    split
    · rw [processDues, hnone]
      rfl
    · rfl
  rw [advanceMinute, if_pos ⟨hset, hend⟩]
  have hevent := clockEvent_eq s.clock.nextMinute s
  rw [hprocessed] at hevent
  exact congrArg closing hevent

theorem testOverlap_resuming (hn : n ∈ s.toResume) : testOverlap s = actOnOverlap s s := by
  refine if_neg fun hcalm => ?_
  rw [State.overlapCalm, Bool.and_eq_true, List.isEmpty_iff, List.isEmpty_iff] at hcalm
  rw [hcalm.2] at hn
  cases hn

/-- A lease SUSPENDED in slot `n` that serves a reservation due within 15 min of the next minute. -/
structure State.Awaited (s : State) (n : Nat) (l : Lease) (ctx : SavedContext) : Prop where
  slot : 1 ≤ n ∧ n ≤ 8
  lease : s.lease? n = some l
  state : l.state = .suspended
  saved : l.saved = some ctx
  context : ctx.state ≠ .suspended
  reason : l.reason ≠ some .satisfiedByFree
  due : s.dueBy l (s.clock.now + 1)

section awaited

variable (hl : s.Awaited n l ctx) (hminute : s.clock.minute < 1439)
include hl hminute

theorem nearDue_nextMinute : (s.setTo s.clock.nextMinute).nearDue l = true := by
  refine nearDue_iff.mpr ?_
  have hnow : (s.setTo s.clock.nextMinute).clock.now = s.clock.now + 1 := now_nextMinute hminute
  rw [hnow]
  exact hl.due

theorem toResume_nextMinute : n ∈ (s.setTo s.clock.nextMinute).toResume := by
  refine (mem_toResume_iff (s := s.setTo s.clock.nextMinute) (l := l) hl.lease).mpr
    ⟨hl.slot, ?_, hl.state, .inr (nearDue_nextMinute hl hminute)⟩
  rw [hl.due.1]
  rfl

/-- The lease is resumed under the overlap, and the end of the step leaves it so. -/
theorem resumes_minute :
    (closing (tryAttempt (checkRecoolWindow (testOverlap (s.setTo s.clock.nextMinute))))).resumes n
      (s.leaseSlot n).issue l (s.adjustedBudget l ctx) ctx := by
  have hn := toResume_nextMinute hl hminute
  have hslot : (s.setTo s.clock.nextMinute).leaseSlot n = { issue := (s.leaseSlot n).issue, lease := some l } :=
    leaseSlot_of_parts (s := s) rfl hl.lease
  have hresumes := resumes_actOnOverlap (s.setTo s.clock.nextMinute) hslot hl.saved hn hl.context hl.reason
  have hcalm := calm_testOverlap (s.setTo s.clock.nextMinute)
  rw [← testOverlap_resuming hn] at hresumes
  have hbook : (testOverlap (s.setTo s.clock.nextMinute)).book = s.book := (book_of_calm hcalm).trans rfl
  have hclock : (testOverlap (s.setTo s.clock.nextMinute)).clock = s.clock.nextMinute :=
    (calm_eq_iff.mp hcalm).2.2.2.2.2.2.2.1
  generalize testOverlap (s.setTo s.clock.nextMinute) = u at hresumes hbook hclock
  have hchecked := resumes_of_leaseSlot (leaseSlot_checkRecoolWindow u n) hresumes
  obtain ⟨l1, hslot1, -⟩ := resumed_told hchecked
  obtain ⟨hkept, hkeptBook⟩ := tryAttempt_beside (congrArg LeaseSlot.lease hslot1)
  have hattempted := resumes_of_leaseSlot hkept hchecked
  refine resumes_closing hl.slot.1 (fun l' hl' => .inr ?_) hattempted
  rw [nearDue_congr (s := s.setTo s.clock.nextMinute) ?_ ?_ (root_of_resumes hattempted hl')]
  · exact nearDue_nextMinute hl hminute
  · rw [hkeptBook, book_checkRecoolWindow, hbook]
    rfl
  · have hchecked : (checkRecoolWindow u).clock = u.clock := congrArg Kept.clock (kept_checkRecoolWindow u)
    rw [clock_tryAttempt, hchecked, hclock]
    rfl

end awaited

end Sys2Proof.Machine

/-! ### A flow suspends, and its end resumes (O34) -/

namespace Sys2Proof.Machine

/-- Settles O34: an ACCEPT settles a bought lease and then suspends it under the flow (`accept_underFlow`), or sets a
flow over others (`accept_floods`); a CHANGE (`change_ebbs`) and a minute (`resumes_minute`) put a SUSPENDED lease in
the overlap's list of resumptions, and nothing later in the step acts on it. -/
theorem aFlowSuspendsAndItsEndResumes : Obligations.AFlowSuspendsAndItsEndResumes := by
  unfold Obligations.AFlowSuspendsAndItsEndResumes
  intro s hs flow adjusted resumed dueBy
  have undue : ∀ l, ¬dueBy l s.clock.now → s.nearDue l = false := fun l h => Bool.eq_false_iff.mpr (mt nearDue_iff.mp h)
  refine ⟨fun a i h x f hx haddr h31 hi hlive hf hholder => ⟨?_, fun hkind => ⟨?_, ?_⟩⟩, fun hset hminute => ?_⟩
  · intro kind rate ceiling budget hcmd hbought hoffered hentitled hdue hflow
    exact accept_underFlow hs hx haddr h31 hi hlive hf hholder hoffered hcmd hbought hentitled (undue f hdue) hflow
  · intro rate ceiling budget hcmd hoffered hflow
    obtain ⟨t, ht, hflooded⟩ := accept_floods hs hx haddr h31 hi hlive hf hholder hkind hoffered hflow hcmd
    exact ⟨t, ht, fun n l h1 h8 hl hbought hheat hinlet hdue =>
      hflooded n l ⟨⟨h1, h8⟩, hl, hbought, hheat, hinlet, undue l hdue⟩⟩
  · intro flags rate hcmd hfault hrun hrate
    obtain ⟨t, ht, hstranded⟩ := change_ebbs hs hx haddr h31 hi hlive hf hholder hkind hcmd hfault hrate
    refine ⟨t, ht, fun n l ctx h1 h8 hl hbought hstate hctx halone => ?_⟩
    obtain ⟨l0, hroot, hdelivered, hresumes⟩ := hstranded n l ctx ⟨⟨h1, h8⟩, hl, hbought, hstate, hctx, halone⟩
    have htold := resumed_told hresumes
    rw [hroot, hdelivered] at htold
    exact htold
  · refine ⟨advanceMinute s, rfl, fun n l ctx h1 h8 hl hstate hctx hdue hdues => ?_⟩
    obtain ⟨hcontext, hreason⟩ := context_of_suspended hs h1 h8 hl hstate hctx
    rw [advanceMinute_undue hset hminute hdues]
    exact resumed_told (resumes_minute ⟨⟨h1, h8⟩, hl, hstate, hctx, hcontext, hreason, hdue⟩ hminute)

end Sys2Proof.Machine
